-- ==== Sys2Proof/Word.lean ====
section
/-! DEFINITION. Sys2Proof/Word.lean: the word types of the part (R3, R64, R102) and their plainest arithmetic. -/

namespace Sys2Proof

/-- A byte of memory. -/
abbrev Byte := BitVec 8
/-- A 32-bit register, issue word or literal (R64, R12). -/
abbrev Word := BitVec 32
/-- A 64-bit pair, address, record or 8-byte memory word (R102, R135). -/
abbrev DWord := BitVec 64
/-- A 6-bit register or pair field of a word (R18). -/
abbrev Reg := BitVec 6

end Sys2Proof
end

