-- ==== Sys2Proof/Syntax.lean ====
section
/-! DEFINITION. Sys2Proof/Syntax.lean: the abstract syntax, one constructor per row of spec/opcode_table.json.
The first 160 are the issue words of R27 to R31; the other 120 are the table's events, those from outside last, each with the
operands that say which occurrence of the event is meant (95_what_each_step_holds.md). -/

namespace Sys2Proof

/-- Bits [31:26] of every issue word (R12): chain, switch marker, guard. -/
structure Head where
  /-- C: the word issues in the same cycle as the next issue word. -/
  c : Bool
  /-- S: switch marker. -/
  s : Bool
  /-- G: 0 to 11 a predicate, 12 always, 13 to 15 illegal. -/
  g : BitVec 4
  deriving DecidableEq, Repr

/-- An issue word or an event of the part. -/
inductive Instr where
  /-- IADD (R105): Adds two registers modulo 2^32. -/
  | iadd (h : Head) (d : BitVec 6) (a : BitVec 6) (b : BitVec 6)
  /-- ISUB (R105): Subtracts two registers modulo 2^32. -/
  | isub (h : Head) (d : BitVec 6) (a : BitVec 6) (b : BitVec 6)
  /-- IMUL (R105): Multiplies two registers and keeps the low 32 bits. -/
  | imul (h : Head) (d : BitVec 6) (a : BitVec 6) (b : BitVec 6)
  /-- IMULH.s (R105): Returns the high 32 bits of the signed 64-bit product. -/
  | imulhS (h : Head) (d : BitVec 6) (a : BitVec 6) (b : BitVec 6)
  /-- IMULH.n (R105): Returns the high 32 bits of the unsigned 64-bit product. -/
  | imulhN (h : Head) (d : BitVec 6) (a : BitVec 6) (b : BitVec 6)
  /-- IMAC (R105): Adds the product of two registers to the destination modulo 2^32. -/
  | imac (h : Head) (d : BitVec 6) (a : BitVec 6) (b : BitVec 6)
  /-- IMIN.s (R105): Returns the signed minimum of two registers. -/
  | iminS (h : Head) (d : BitVec 6) (a : BitVec 6) (b : BitVec 6)
  /-- IMIN.n (R105): Returns the unsigned minimum of two registers. -/
  | iminN (h : Head) (d : BitVec 6) (a : BitVec 6) (b : BitVec 6)
  /-- IMAX.s (R105): Returns the signed maximum of two registers. -/
  | imaxS (h : Head) (d : BitVec 6) (a : BitVec 6) (b : BitVec 6)
  /-- IMAX.n (R105): Returns the unsigned maximum of two registers. -/
  | imaxN (h : Head) (d : BitVec 6) (a : BitVec 6) (b : BitVec 6)
  /-- AND (R106): Bitwise and of two registers. -/
  | and (h : Head) (d : BitVec 6) (a : BitVec 6) (b : BitVec 6)
  /-- OR (R106): Bitwise or of two registers. -/
  | or (h : Head) (d : BitVec 6) (a : BitVec 6) (b : BitVec 6)
  /-- XOR (R106): Bitwise exclusive or of two registers. -/
  | xor (h : Head) (d : BitVec 6) (a : BitVec 6) (b : BitVec 6)
  /-- ANDN (R106): Bitwise and of the first register with the complement of the second. -/
  | andn (h : Head) (d : BitVec 6) (a : BitVec 6) (b : BitVec 6)
  /-- SHL (R106): Shifts left by the low five bits of the second register. -/
  | shl (h : Head) (d : BitVec 6) (a : BitVec 6) (b : BitVec 6)
  /-- SHR (R106): Shifts right logically by the low five bits of the second register. -/
  | shr (h : Head) (d : BitVec 6) (a : BitVec 6) (b : BitVec 6)
  /-- SAR (R106): Shifts right arithmetically by the low five bits of the second register. -/
  | sar (h : Head) (d : BitVec 6) (a : BitVec 6) (b : BitVec 6)
  /-- ROL (R106): Rotates left by the low five bits of the second register. -/
  | rol (h : Head) (d : BitVec 6) (a : BitVec 6) (b : BitVec 6)
  /-- BFX (R107): Extracts a zero-extended bit field described by the second register. -/
  | bfx (h : Head) (d : BitVec 6) (a : BitVec 6) (b : BitVec 6)
  /-- BFI (R107): Inserts a bit field into the destination register. -/
  | bfi (h : Head) (d : BitVec 6) (a : BitVec 6) (b : BitVec 6)
  /-- ICMP.s (R109): Compares two registers as signed values and writes a predicate pair. -/
  | icmpS (h : Head) (n : BitVec 3) (p : BitVec 3) (a : BitVec 6) (b : BitVec 6)
  /-- ICMP.n (R109): Compares two registers as unsigned values and writes a predicate pair. -/
  | icmpN (h : Head) (n : BitVec 3) (p : BitVec 3) (a : BitVec 6) (b : BitVec 6)
  /-- POPC (R108): Counts the 1 bits of a register. -/
  | popc (h : Head) (d : BitVec 6) (a : BitVec 6)
  /-- CLZ (R108): Counts the leading zero bits of a register. -/
  | clz (h : Head) (d : BitVec 6) (a : BitVec 6)
  /-- BREV (R108): Reverses the bit order of a register. -/
  | brev (h : Head) (d : BitVec 6) (a : BitVec 6)
  /-- MOV (R84): Copies one register to another. -/
  | mov (h : Head) (d : BitVec 6) (a : BitVec 6)
  /-- LADD (R111): Adds two pairs modulo 2^64 on both ALU pipes. -/
  | ladd (h : Head) (d : BitVec 6) (a : BitVec 6) (b : BitVec 6)
  /-- LSUB (R111): Subtracts two pairs modulo 2^64. -/
  | lsub (h : Head) (d : BitVec 6) (a : BitVec 6) (b : BitVec 6)
  /-- LMUL (R111): Multiplies two pairs modulo 2^64. -/
  | lmul (h : Head) (d : BitVec 6) (a : BitVec 6) (b : BitVec 6)
  /-- LMULH.s (R111): Returns the high 64 bits of the signed 128-bit product of two pairs. -/
  | lmulhS (h : Head) (d : BitVec 6) (a : BitVec 6) (b : BitVec 6)
  /-- LMULH.n (R111): Returns the high 64 bits of the unsigned 128-bit product of two pairs. -/
  | lmulhN (h : Head) (d : BitVec 6) (a : BitVec 6) (b : BitVec 6)
  /-- LSHL (R111): Shifts a pair left by a register count. -/
  | lshl (h : Head) (d : BitVec 6) (a : BitVec 6) (b : BitVec 6)
  /-- LSHR (R111): Shifts a pair right logically by a register count. -/
  | lshr (h : Head) (d : BitVec 6) (a : BitVec 6) (b : BitVec 6)
  /-- LSAR (R111): Shifts a pair right arithmetically by a register count. -/
  | lsar (h : Head) (d : BitVec 6) (a : BitVec 6) (b : BitVec 6)
  /-- LCMP.s (R113): Compares two pairs as signed 64-bit values and writes a predicate pair. -/
  | lcmpS (h : Head) (n : BitVec 3) (p : BitVec 3) (a : BitVec 6) (b : BitVec 6)
  /-- LCMP.n (R113): Compares two pairs as unsigned 64-bit values and writes a predicate pair. -/
  | lcmpN (h : Head) (n : BitVec 3) (p : BitVec 3) (a : BitVec 6) (b : BitVec 6)
  /-- LAND (R111): Bitwise and of two pairs. -/
  | land (h : Head) (d : BitVec 6) (a : BitVec 6) (b : BitVec 6)
  /-- LOR (R111): Bitwise or of two pairs. -/
  | lor (h : Head) (d : BitVec 6) (a : BitVec 6) (b : BitVec 6)
  /-- LXOR (R111): Bitwise exclusive or of two pairs. -/
  | lxor (h : Head) (d : BitVec 6) (a : BitVec 6) (b : BitVec 6)
  /-- LEA.1 (R112): Forms a pair address from a base pair plus a sign-extended index scaled by 1. -/
  | lea1 (h : Head) (d : BitVec 6) (a : BitVec 6) (b : BitVec 6)
  /-- LEA.2 (R112): Forms a pair address from a base pair plus a sign-extended index scaled by 2. -/
  | lea2 (h : Head) (d : BitVec 6) (a : BitVec 6) (b : BitVec 6)
  /-- LEA.4 (R112): Forms a pair address from a base pair plus a sign-extended index scaled by 4. -/
  | lea4 (h : Head) (d : BitVec 6) (a : BitVec 6) (b : BitVec 6)
  /-- LEA.8 (R112): Forms a pair address from a base pair plus a sign-extended index scaled by 8. -/
  | lea8 (h : Head) (d : BitVec 6) (a : BitVec 6) (b : BitVec 6)
  /-- FADD (R115): Binary32 addition rounded once in %RMODE. -/
  | fadd (h : Head) (d : BitVec 6) (a : BitVec 6) (b : BitVec 6)
  /-- FSUB (R115): Binary32 subtraction rounded once in %RMODE. -/
  | fsub (h : Head) (d : BitVec 6) (a : BitVec 6) (b : BitVec 6)
  /-- FMUL (R115): Binary32 multiplication rounded once in %RMODE. -/
  | fmul (h : Head) (d : BitVec 6) (a : BitVec 6) (b : BitVec 6)
  /-- FMAC (R115): Fused binary32 multiply-add into the destination with one rounding. -/
  | fmac (h : Head) (d : BitVec 6) (a : BitVec 6) (b : BitVec 6)
  /-- FNMAC (R115): Fused binary32 destination minus product with one rounding. -/
  | fnmac (h : Head) (d : BitVec 6) (a : BitVec 6) (b : BitVec 6)
  /-- FMIN (R116): Returns the lesser binary32 operand, a NaN losing to a number. -/
  | fmin (h : Head) (d : BitVec 6) (a : BitVec 6) (b : BitVec 6)
  /-- FMAX (R116): Returns the greater binary32 operand, a NaN losing to a number. -/
  | fmax (h : Head) (d : BitVec 6) (a : BitVec 6) (b : BitVec 6)
  /-- FCMP (R117): Compares two binary32 values and writes a predicate pair. -/
  | fcmp (h : Head) (n : BitVec 3) (p : BitVec 3) (a : BitVec 6) (b : BitVec 6)
  /-- FNEG (R118): Inverts the sign bit of a binary32 value, canonicalising a NaN. -/
  | fneg (h : Head) (d : BitVec 6) (a : BitVec 6)
  /-- FABS (R118): Clears the sign bit of a binary32 value, canonicalising a NaN. -/
  | fabs (h : Head) (d : BitVec 6) (a : BitVec 6)
  /-- HADD2 (R120): Adds two pairs of binary16 elements. -/
  | hadd2 (h : Head) (d : BitVec 6) (a : BitVec 6) (b : BitVec 6)
  /-- HMUL2 (R120): Multiplies two pairs of binary16 elements. -/
  | hmul2 (h : Head) (d : BitVec 6) (a : BitVec 6) (b : BitVec 6)
  /-- HFMAC2 (R120): Fused multiply-add of binary16 element pairs into the destination. -/
  | hfmac2 (h : Head) (d : BitVec 6) (a : BitVec 6) (b : BitVec 6)
  /-- BADD2 (R120): Adds two pairs of bfloat16 elements. -/
  | badd2 (h : Head) (d : BitVec 6) (a : BitVec 6) (b : BitVec 6)
  /-- BMUL2 (R120): Multiplies two pairs of bfloat16 elements. -/
  | bmul2 (h : Head) (d : BitVec 6) (a : BitVec 6) (b : BitVec 6)
  /-- BFMAC2 (R120): Fused multiply-add of bfloat16 element pairs into the destination. -/
  | bfmac2 (h : Head) (d : BitVec 6) (a : BitVec 6) (b : BitVec 6)
  /-- DADD (R121): Binary64 addition of two pairs on the XU pipe. -/
  | dadd (h : Head) (d : BitVec 6) (a : BitVec 6) (b : BitVec 6)
  /-- DMUL (R121): Binary64 multiplication of two pairs on the XU pipe. -/
  | dmul (h : Head) (d : BitVec 6) (a : BitVec 6) (b : BitVec 6)
  /-- DFMAC (R121): Fused binary64 multiply-add into the destination pair on the XU pipe. -/
  | dfmac (h : Head) (d : BitVec 6) (a : BitVec 6) (b : BitVec 6)
  /-- DCMP (R122): Compares two binary64 pairs on the XU pipe and writes a predicate pair. -/
  | dcmp (h : Head) (n : BitVec 3) (p : BitVec 3) (a : BitVec 6) (b : BitVec 6)
  /-- IADDI (R110): Adds a sign-extended immediate to a register. -/
  | iaddi (h : Head) (d : BitVec 6) (a : BitVec 6) (k : BitVec 8)
  /-- ANDI (R110): Bitwise and with a zero-extended immediate. -/
  | andi (h : Head) (d : BitVec 6) (a : BitVec 6) (k : BitVec 8)
  /-- ORI (R110): Bitwise or with a zero-extended immediate. -/
  | ori (h : Head) (d : BitVec 6) (a : BitVec 6) (k : BitVec 8)
  /-- XORI (R110): Bitwise exclusive or with a zero-extended immediate. -/
  | xori (h : Head) (d : BitVec 6) (a : BitVec 6) (k : BitVec 8)
  /-- SHLI (R110): Shifts left by an immediate count. -/
  | shli (h : Head) (d : BitVec 6) (a : BitVec 6) (k : BitVec 5)
  /-- SHRI (R110): Shifts right logically by an immediate count. -/
  | shri (h : Head) (d : BitVec 6) (a : BitVec 6) (k : BitVec 5)
  /-- SARI (R110): Shifts right arithmetically by an immediate count. -/
  | sari (h : Head) (d : BitVec 6) (a : BitVec 6) (k : BitVec 5)
  /-- ICMPI.s (R110): Compares a register with a sign-extended immediate as signed values. -/
  | icmpiS (h : Head) (n : BitVec 3) (p : BitVec 3) (a : BitVec 6) (k : BitVec 8)
  /-- ICMPI.n (R110): Compares a register with a zero-extended immediate as unsigned values. -/
  | icmpiN (h : Head) (n : BitVec 3) (p : BitVec 3) (a : BitVec 6) (k : BitVec 8)
  /-- MOVI (R84): Writes a sign-extended 8-bit immediate to a register. -/
  | movi (h : Head) (d : BitVec 6) (k : BitVec 8)
  /-- LADDI (R110): Adds a sign-extended immediate to a pair modulo 2^64. -/
  | laddi (h : Head) (d : BitVec 6) (a : BitVec 6) (k : BitVec 8)
  /-- IMULI (R110): Multiplies a register by a sign-extended immediate. -/
  | imuli (h : Head) (d : BitVec 6) (a : BitVec 6) (k : BitVec 8)
  /-- LDB (R147): Loads one byte zero-extended, in the F/E form that Q selects. -/
  | ldb (h : Head) (q : BitVec 3) (d : BitVec 6) (a : BitVec 5) (p : BitVec 2) (off : Option Word)
  /-- LDBS (R147): Loads one byte sign-extended, in the F/E form that Q selects. -/
  | ldbs (h : Head) (q : BitVec 3) (d : BitVec 6) (a : BitVec 5) (p : BitVec 2) (off : Option Word)
  /-- LDH (R147): Loads two bytes zero-extended. -/
  | ldh (h : Head) (q : BitVec 3) (d : BitVec 6) (a : BitVec 5) (p : BitVec 2) (off : Option Word)
  /-- LDHS (R147): Loads two bytes sign-extended. -/
  | ldhs (h : Head) (q : BitVec 3) (d : BitVec 6) (a : BitVec 5) (p : BitVec 2) (off : Option Word)
  /-- LDW (R147): Loads four bytes into a register. -/
  | ldw (h : Head) (q : BitVec 3) (d : BitVec 6) (a : BitVec 5) (p : BitVec 2) (off : Option Word)
  /-- LDD (R147): Loads eight bytes into a pair. -/
  | ldd (h : Head) (q : BitVec 3) (d : BitVec 6) (a : BitVec 5) (p : BitVec 2) (off : Option Word)
  /-- LDQ (R147): Loads sixteen bytes into two pairs. -/
  | ldq (h : Head) (q : BitVec 3) (d : BitVec 6) (a : BitVec 5) (p : BitVec 2) (off : Option Word)
  /-- STB (R147): Stores one byte, in the F/E form that Q selects. -/
  | stb (h : Head) (q : BitVec 3) (d : BitVec 6) (a : BitVec 5) (p : BitVec 2) (off : Option Word)
  /-- STH (R147): Stores two bytes. -/
  | sth (h : Head) (q : BitVec 3) (d : BitVec 6) (a : BitVec 5) (p : BitVec 2) (off : Option Word)
  /-- STW (R147): Stores four bytes. -/
  | stw (h : Head) (q : BitVec 3) (d : BitVec 6) (a : BitVec 5) (p : BitVec 2) (off : Option Word)
  /-- STD (R147): Stores eight bytes from a pair. -/
  | std (h : Head) (q : BitVec 3) (d : BitVec 6) (a : BitVec 5) (p : BitVec 2) (off : Option Word)
  /-- STQ (R147): Stores sixteen bytes from two pairs. -/
  | stq (h : Head) (q : BitVec 3) (d : BitVec 6) (a : BitVec 5) (p : BitVec 2) (off : Option Word)
  /-- LDT (R152): Loads one tensor element by handle and coordinates. -/
  | ldt (h : Head) (q : BitVec 3) (d : BitVec 6) (a : BitVec 5) (p : BitVec 2) (lit : Word)
  /-- STT (R152): Stores one tensor element by handle and coordinates. -/
  | stt (h : Head) (q : BitVec 3) (d : BitVec 6) (a : BitVec 5) (p : BitVec 2) (lit : Word)
  /-- ATOM (R154): Performs a 4-byte integer atomic at the word's home and returns the old value. -/
  | atom (h : Head) (q : BitVec 3) (d : BitVec 6) (a : BitVec 5) (p : BitVec 2) (off : Option Word)
  /-- ATOMN (R154): Performs a 4-byte integer atomic at the home with no returned value. -/
  | atomn (h : Head) (q : BitVec 3) (d : BitVec 6) (a : BitVec 5) (p : BitVec 2) (off : Option Word)
  /-- ATOMD (R154): Performs an 8-byte integer atomic and returns the old value. -/
  | atomd (h : Head) (q : BitVec 3) (d : BitVec 6) (a : BitVec 5) (p : BitVec 2) (off : Option Word)
  /-- ATOMDN (R154): Performs an 8-byte integer atomic with no returned value. -/
  | atomdn (h : Head) (q : BitVec 3) (d : BitVec 6) (a : BitVec 5) (p : BitVec 2) (off : Option Word)
  /-- ATOMF (R154): Performs a binary32 atomic and returns the old value. -/
  | atomf (h : Head) (q : BitVec 3) (d : BitVec 6) (a : BitVec 5) (p : BitVec 2) (off : Option Word)
  /-- ATOMFN (R154): Performs a binary32 atomic with no returned value. -/
  | atomfn (h : Head) (q : BitVec 3) (d : BitVec 6) (a : BitVec 5) (p : BitVec 2) (off : Option Word)
  /-- XCHG (R156): Swaps a register with a memory word at its home. -/
  | xchg (h : Head) (d : BitVec 6) (a : BitVec 5) (p : BitVec 2) (off : Option Word)
  /-- CAS (R156): Compares a 4-byte word with an expected value and swaps in a new one if equal. -/
  | cas (h : Head) (d : BitVec 6) (a : BitVec 5) (p : BitVec 2) (off : Option Word)
  /-- CASD (R156): Compares an 8-byte word with an expected value and swaps in a new one if equal. -/
  | casd (h : Head) (d : BitVec 6) (a : BitVec 5) (p : BitVec 2) (off : Option Word)
  /-- TAGR (R157): Reads a word's F/E bit into a register. -/
  | tagr (h : Head) (d : BitVec 6) (a : BitVec 5) (p : BitVec 2) (off : Option Word)
  /-- TAGS (R157): Sets a word's F/E bit from a register and starts a scan. -/
  | tags (h : Head) (d : BitVec 6) (a : BitVec 5) (p : BitVec 2) (off : Option Word)
  /-- PREF (R158): Hints that a line be brought into L1 or L2, with no visible effect. -/
  | pref (h : Head) (a : BitVec 5) (p : BitVec 2) (off : Option Word)
  /-- BRA (R79): Branches to a packet at a signed offset. -/
  | bra (h : Head) (o : BitVec 18)
  /-- CALL (R79): Writes the next packet address to w31 and branches. -/
  | call (h : Head) (o : BitVec 18)
  /-- BRX (R80): Branches to the byte address held in a pair. -/
  | brx (h : Head) (a : BitVec 6)
  /-- RET (R80): Branches to the address held in w31. -/
  | ret (h : Head)
  /-- LOOP (R79): Decrements a count register and branches while it is nonzero. -/
  | loop (h : Head) (d : BitVec 6) (k : BitVec 12)
  /-- END (R81): Waits for outstanding results and ends the fibre. -/
  | endF (h : Head)
  /-- END.J (R82): Releases, decrements a join word, fills it at zero, and ends the fibre. -/
  | endJ (h : Head) (a : BitVec 6)
  /-- FORK (R168): Pushes entry, argument and join address onto the core's deque as a release. -/
  | fork (h : Head) (d : BitVec 6) (a : BitVec 6) (b : BitVec 6)
  /-- YIELD (R83): Makes the band ineligible until other eligible bands have issued. -/
  | yield (h : Head)
  /-- NOP (R83): Does nothing but counts as a retired group. -/
  | nop (h : Head)
  /-- TRAP (R172): Raises the TRAP-instruction class with a 12-bit code. -/
  | trap (h : Head) (k : BitVec 12)
  /-- RETT (R172): Returns from a handler to %TRESUME, restoring shadow state when privileged. -/
  | rett (h : Head)
  /-- RDS (R84): Reads a special register by index, with half latching. -/
  | rds (h : Head) (d : BitVec 6) (i : BitVec 6)
  /-- WRS (R84): Writes a special register by index, subject to value rules. -/
  | wrs (h : Head) (d : BitVec 6) (i : BitVec 6)
  /-- MOVL (R84): Writes the 32-bit literal in the next slot to a register. -/
  | movl (h : Head) (d : BitVec 6) (lit : Word)
  /-- SHFL (R89): Meeting instruction moving a register between lanes by the selected mode. -/
  | shfl (h : Head) (d : BitVec 6) (m : BitVec 2) (k : BitVec 7)
  /-- BCAST (R89): Meeting instruction broadcasting one lane's register to the crew. -/
  | bcast (h : Head) (d : BitVec 6) (l : BitVec 7)
  /-- VOTE (R90): Meeting instruction combining per-lane truth values as any, all or ballot. -/
  | vote (h : Head) (d : BitVec 6) (a : BitVec 6) (v : BitVec 2)
  /-- MATCH (R91): Meeting instruction returning leader and count of lanes with equal values. -/
  | matchL (h : Head) (d : BitVec 6) (a : BitVec 6)
  /-- RED (R92): Meeting instruction reducing values across the crew in a fixed tree. -/
  | red (h : Head) (d : BitVec 6) (a : BitVec 6) (o : BitVec 4)
  /-- SCAN (R92): Meeting instruction computing a prefix combination in lane order. -/
  | scan (h : Head) (d : BitVec 6) (a : BitVec 6) (o : BitVec 4) (e : BitVec 1)
  /-- SIGN (R192): Adds one signature to a sign register, posting its command at zero. -/
  | sign (h : Head) (k : BitVec 5)
  /-- MARM (R191): Arms a sign register with a checked matrix command card and count. -/
  | marm (h : Head) (d : BitVec 6) (a : BitVec 6) (b : BitVec 6)
  /-- CPYQ (R212): Checks and posts one copy job from a card. -/
  | cpyq (h : Head) (a : BitVec 6)
  /-- BARI (R164): Initialises a barrier word in scratch and sets it full. -/
  | bari (h : Head) (a : BitVec 6) (b : BitVec 6)
  /-- BARV (R165): Arrives at a barrier as a release and returns the phase. -/
  | barv (h : Head) (d : BitVec 6) (a : BitVec 6)
  /-- BARW (R166): Waits for a barrier phase as an acquire and returns the elect flag. -/
  | barw (h : Head) (d : BitVec 6) (a : BitVec 6) (b : BitVec 6)
  /-- FENCE (R160): Orders the fibre's later accesses by kind and scope, optionally including engine jobs. -/
  | fence (h : Head) (e : BitVec 1) (k : BitVec 2) (scope : BitVec 3)
  /-- LAYQ (R271): Reads a region's layout record at its place in the notice stream. -/
  | layq (h : Head) (d : BitVec 6) (a : BitVec 6)
  /-- LAYADV (R272): Presents layout advice and window length to a region's monitor. -/
  | layadv (h : Head) (d : BitVec 6) (a : BitVec 6) (b : BitVec 6)
  /-- LAYPIN (R273): Pins or unpins a region's layout. -/
  | laypin (h : Head) (d : BitVec 6) (a : BitVec 6) (b : BitVec 6)
  /-- LAYACQ (R332): Acquires a layer, raising its hold count and starting a swap-in if absent. -/
  | layacq (h : Head) (a : BitVec 6)
  /-- LAYREL (R332): Releases a hold on a layer after the fibre's accesses are performed. -/
  | layrel (h : Head) (a : BitVec 6)
  /-- TGPOST (R305): Adds a node to the partition's task graph from a record in memory. -/
  | tgpost (h : Head) (d : BitVec 6) (a : BitVec 6)
  /-- ICINV (R179): Invalidates instruction-fetch copies of the cores in scope. -/
  | icinv (h : Head) (scope : BitVec 3)
  /-- IDIV.s (R114): Signed integer division on the XU pipe. -/
  | idivS (h : Head) (d : BitVec 6) (a : BitVec 6) (b : BitVec 6)
  /-- IDIV.n (R114): Unsigned integer division on the XU pipe. -/
  | idivN (h : Head) (d : BitVec 6) (a : BitVec 6) (b : BitVec 6)
  /-- IREM.s (R114): Signed integer remainder on the XU pipe. -/
  | iremS (h : Head) (d : BitVec 6) (a : BitVec 6) (b : BitVec 6)
  /-- IREM.n (R114): Unsigned integer remainder on the XU pipe. -/
  | iremN (h : Head) (d : BitVec 6) (a : BitVec 6) (b : BitVec 6)
  /-- FDIV (R123): Binary32 division correctly rounded in %RMODE. -/
  | fdiv (h : Head) (d : BitVec 6) (a : BitVec 6) (b : BitVec 6)
  /-- FSQRT (R124): Binary32 square root. -/
  | fsqrt (h : Head) (d : BitVec 6) (a : BitVec 6)
  /-- FRCP (R124): Binary32 reciprocal. -/
  | frcp (h : Head) (d : BitVec 6) (a : BitVec 6)
  /-- FRSQ (R124): Binary32 reciprocal square root. -/
  | frsq (h : Head) (d : BitVec 6) (a : BitVec 6)
  /-- FEXP2 (R125): Computes 2^x in binary32, rounded to nearest even. -/
  | fexp2 (h : Head) (d : BitVec 6) (a : BitVec 6)
  /-- FLOG2 (R125): Computes log2 x in binary32, rounded to nearest even. -/
  | flog2 (h : Head) (d : BitVec 6) (a : BitVec 6)
  /-- FSINP (R125): Computes sin(pi x) in binary32, rounded to nearest even. -/
  | fsinp (h : Head) (d : BitVec 6) (a : BitVec 6)
  /-- FCOSP (R125): Computes cos(pi x) in binary32, rounded to nearest even. -/
  | fcosp (h : Head) (d : BitVec 6) (a : BitVec 6)
  /-- DDIV (R123): Binary64 division of two pairs. -/
  | ddiv (h : Head) (d : BitVec 6) (a : BitVec 6) (b : BitVec 6)
  /-- DSQRT (R124): Binary64 square root of a pair. -/
  | dsqrt (h : Head) (d : BitVec 6) (a : BitVec 6)
  /-- CVT (R127): Converts a value between the source and destination types in B. -/
  | cvt (h : Head) (d : BitVec 6) (a : BitVec 6) (x : BitVec 3) (y : BitVec 3)
  /-- NARROW (R131): Converts binary32 to a narrow-format code described by a descriptor. -/
  | narrow (h : Head) (d : BitVec 6) (a : BitVec 6) (b : BitVec 6)
  /-- WIDEN (R132): Converts a narrow-format code to its exact binary32 value. -/
  | widen (h : Head) (d : BitVec 6) (a : BitVec 6) (b : BitVec 6)
  /-- FCLASS (R119): Writes a one-hot class word for a binary32 value. -/
  | fclass (h : Head) (d : BitVec 6) (a : BitVec 6)
  /-- LNKQ (R369): Checks and posts one link job from a card. -/
  | lnkq (h : Head) (a : BitVec 6)
  /-- CARVE (R134): Records a pending scratch size for the issuing core. -/
  | carve (h : Head) (k : BitVec 3)
  /-- TLBINV (R240): Removes selected cached translations of the partition and waits for their users. -/
  | tlbinv (h : Head) (a : BitVec 6) (b : BitVec 6)
  /-- RDFS (R174): Reads saved state of a fibre or core of the gang. -/
  | rdfs (h : Head) (d : BitVec 6) (a : BitVec 6) (b : BitVec 6)
  /-- WRFS (R174): Writes saved state of a fibre or core of the gang. -/
  | wrfs (h : Head) (d : BitVec 6) (a : BitVec 6) (b : BitVec 6)
  /-- SAVED (R177): Ends the fibre's part in the save routine. -/
  | saved (h : Head)
  /-- INSTRUCTION_FETCH (R17): The core fetches a packet as a unit, faulting for the whole packet if a page is unusable. -/
  | instructionFetch (b : Nat)
  /-- VARIABLE_RESULT_RETURN (R25): A variable-latency result arrives in its destination register or predicate. -/
  | variableResultReturn (id : Nat)
  /-- SWITCH_MARKER_RESUME (R26): A band parked at a switch marker becomes eligible once its results have returned. -/
  | switchMarkerResume (b : Nat)
  /-- CREW_MISMATCH (R87): All live fibres of a crew parked at different meetings take the crew-mismatch trap. -/
  | crewMismatch (gang : Nat) (crew : Nat)
  /-- YIELD_EXPIRY (R83): A yielding band becomes eligible again after 64 cycles. -/
  | yieldExpiry (b : Nat)
  /-- CARVE_APPLY (R134): A pending scratch size takes effect once no allocation lies above it, invalidating given-up L1 ways. -/
  | carveApply (core : Nat)
  /-- BANK_ACCESS (R137): A scratch bank performs a request, including a remote message, in its fixed order. -/
  | bankAccess (id : Nat)
  /-- HOME_REQUEST (R229): A home L2 slice performs a request for one of its lines in arrival order. -/
  | homeRequest (id : Nat)
  /-- WAIT_REPRESENT (R231): A refused waiting access is presented again in the partition's next network slot. -/
  | waitRepresent (id : Nat)
  /-- STORE_ACKNOWLEDGEMENT (R139): A home's acknowledgement arrives and raises %HORIZON to its completion time. -/
  | storeAcknowledgement (id : Nat)
  /-- L1_LEASE_EXPIRY (R138): An L1 copy's lease reaches its expiry and later loads go to the home. -/
  | l1LeaseExpiry (core : Nat) (line : Nat)
  /-- RELEASE_CONDITION_MET (R149): An access or posting held for the release condition proceeds once it holds. -/
  | releaseConditionMet (id : Nat)
  /-- FE_TIMEOUT (R144): A waiting access's budget expires, it leaves its list with no effect and its fibre traps. -/
  | feTimeout (id : Nat)
  /-- DEQUE_TAKE (R169): A free slot takes a deque entry and becomes a fibre. -/
  | dequeTake (core : Nat)
  /-- DEQUE_STEAL (R169): A core with an empty deque steals the tail entry of another core of the gang. -/
  | dequeSteal (core : Nat)
  /-- PREEMPT_DECISION (R311): The front chooses victim gangs for a waiting gang and starts their pre-emption. -/
  | preemptDecision (part : Nat)
  /-- PREEMPT_TRAP (R173): After the gang's results and jobs drain, every live fibre takes class 0x40. -/
  | preemptTrap (gang : Nat)
  /-- RESTORE_PLACEMENT (R178): A saved gang is placed again and its fibres enter the restore routine. -/
  | restorePlacement (gang : Nat)
  /-- TRACE_SAMPLE (R183): Every sampling interval the core writes one sample record. -/
  | traceSample (core : Nat)
  /-- COMMAND_POST (R192): A command whose count reached zero enters the reservation table once an entry is free. -/
  | commandPost (id : Nat)
  /-- MMA (R201): A granted MMA pass accumulates its K chunk into the bank, checking the command at first grant. -/
  | mma (job : Nat)
  /-- DRAIN (R205): A granted DRAIN writes the bank to scratch as full words and optionally zeroes it. -/
  | drain (job : Nat)
  /-- PRIME (R205): A granted PRIME loads the bank from a scratch array. -/
  | prime (job : Nat)
  /-- STREAM_FETCH_RETURN (R203): A streamed B operand fetch returns, or faults and stalls its command. -/
  | streamFetchReturn (job : Nat)
  /-- ENTRY_RAISE (R206): An eligible entry ungranted for 4,096 cycles is raised. -/
  | entryRaise (job : Nat)
  /-- COPY_JOB_START (R212): A queued copy job starts once its edges are clear and an engine slot is free. -/
  | copyJobStart (job : Nat)
  /-- JOB_COMPLETE (R209): An engine job's last write is performed and its status and %SATCNT are settled. -/
  | jobComplete (job : Nat)
  /-- COMPLETION_ACTION (R209): Once time passes the job's completion time, the status is force-filled or a barrier arrival is made. -/
  | completionAction (job : Nat)
  /-- SIDE_LOG_REPLAY (R243): A side-log entry is translated again and performed at its home. -/
  | sideLogReplay (id : Nat)
  /-- MIGRATION_ROUND (R246): A round copies the marked lines and tests whether to freeze. -/
  | migrationRound (m : Nat)
  /-- MIGRATION_FREEZE (R246): The old homes hold requests, copy the rest and carry waiters and leases. -/
  | migrationFreeze (m : Nat)
  /-- MAP_APPLY (R249): Committed peal maps take effect at slot 0 of the next round, or are refused. -/
  | mapApply
  /-- REGION_CREATE (R258): The front creates a tensor region from a descriptor and returns its handle. -/
  | regionCreate (part : Nat) (node : Nat)
  /-- REGION_DESTROY (R258): The front destroys a region, ending its parked accesses and jobs. -/
  | regionDestroy (part : Nat) (node : Nat)
  /-- MONITOR_NOTICE (R263): A region's monitor scores an element-access notice and advances the window count. -/
  | monitorNotice (region : Nat)
  /-- WINDOW_END (R264): After W notices the monitor decides a re-tile, updates holds and resets scores. -/
  | windowEnd (region : Nat)
  /-- DRIFT_TILE (R266): Drift locks one target tile, copies its elements, bits and waiters, and unlocks it. -/
  | driftTile (region : Nat)
  /-- NODE_POST (R302): A node record is posted to its slot, refused if busy or malformed. -/
  | nodePost (part : Nat) (q : Nat)
  /-- NODE_LAUNCH (R307): A ready launch node is checked and its gangs are queued for placement. -/
  | nodeLaunch (part : Nat) (node : Nat)
  /-- NODE_COPY (R301): A ready copy node is dispatched to the least-loaded copy engine. -/
  | nodeCopy (part : Nat) (node : Nat)
  /-- NODE_SWAP_IN (R333): A ready swap node loads its layer or joins a swap-in in flight. -/
  | nodeSwapIn (part : Nat) (node : Nat)
  /-- NODE_SWAP_EVICT (R334): A ready swap node with E set evicts its layer if unheld. -/
  | nodeSwapEvict (part : Nat) (node : Nat)
  /-- NODE_LINK (R301): A ready link node is dispatched to the partition's link engines. -/
  | nodeLink (part : Nat) (node : Nat)
  /-- NODE_MARKER (R301): A ready marker node completes when dispatched. -/
  | nodeMarker (part : Nat) (node : Nat)
  /-- NODE_RESERVED_KIND (R301): A node of a reserved kind completes at once with error 2. -/
  | nodeReservedKind (part : Nat) (node : Nat)
  /-- NODE_COMPLETE (R303): A node's writes are released, its status written and its successors decremented. -/
  | nodeComplete (part : Nat) (node : Nat)
  /-- PRIORITY_AGING (R308): Each further millisecond of waiting raises a node's effective priority. -/
  | priorityAging (part : Nat) (node : Nat)
  /-- GANG_PLACEMENT (R309): The front places the first waiting gang at the lowest fitting position. -/
  | gangPlacement (part : Nat)
  /-- DET_ROUND (R314): Each core of a deterministic gang takes one rotation turn once the previous round has ended. -/
  | detRound (gang : Nat)
  /-- CARILLON_RELEASE (R318): The carillon presents a finished gang's staged accesses and TGPOSTs in order. -/
  | carillonRelease (part : Nat) (node : Nat)
  /-- SWAP_IN_FRAMES (R333): A swap-in obtains its frames, then advises layouts and reads and converts its source. -/
  | swapInFrames (swap : Nat)
  /-- EVICTION_FRAMES_RETURN (R335): After accepted accesses drain, an evicted layer's frames return to the pool. -/
  | evictionFramesReturn (part : Nat) (m : Nat) (layer : Nat)
  /-- SWAP_IN_COMPLETE (R333): Once its writes pass, the residency word is force-filled and waiting acquires are performed. -/
  | swapInComplete (swap : Nat)
  /-- SWAP_IN_FAILURE (R336): A failed swap-in frees frames, records its cause and makes the waiters take the swap fault. -/
  | swapInFailure (swap : Nat)
  /-- READ_SECTOR (R342): A slice request to read one sector from a channel port. -/
  | readSector (ch : Nat) (tag : Nat)
  /-- READ_LINE (R342): A slice request to read two sectors forming a line. -/
  | readLine (ch : Nat) (tag : Nat)
  /-- WRITE_SECTOR (R344): A slice request to write one whole sector with its F/E bits. -/
  | writeSector (ch : Nat) (tag : Nat)
  /-- WRITE_LINE (R344): A slice request to write a whole line. -/
  | writeLine (ch : Nat) (tag : Nat)
  /-- PARTIAL_WRITE (R344): A masked write performed by the base die as a read-modify-write of the sector. -/
  | partialWrite (ch : Nat) (tag : Nat)
  /-- SCRUB_READ (R349): A scrub read of a sector that corrects or retires its frame. -/
  | scrubRead (ch : Nat) (sector : Nat)
  /-- READ_DATA (R342): The base die's read reply with per-sector status arrives at the slice. -/
  | readData (ch : Nat) (tag : Nat)
  /-- WRITE_DONE (R344): The base die's write reply arrives, a status-2 reply being reported as write lost. -/
  | writeDone (ch : Nat) (tag : Nat)
  /-- SPARE_ROW_COPY (R351): A row needing many corrections is copied to a spare row. -/
  | spareRowCopy (ch : Nat) (row : Nat)
  /-- THERMAL_SHUTDOWN (R356): A trip not cleared within 1 s shuts the module down with fail code 4. -/
  | thermalShutdown
  /-- REKEY (R366): A direction's counter threshold triggers new keys and a switch at a control flit. -/
  | rekey (part : Nat) (n : Nat)
  /-- LINK_DOWN_EXPIRY (R367): A link down for more than 1 s loses its sessions. -/
  | linkDownExpiry (link : Nat)
  /-- LINK_RETRAIN (R364): After 16 failed resends the link retrains. -/
  | linkRetrain (link : Nat)
  /-- LINK_PUT (R371): A put job sends local bytes to the peer's window. -/
  | linkPut (job : Nat)
  /-- LINK_GET (R371): A get job reads bytes from the peer's window into local memory. -/
  | linkGet (job : Nat)
  /-- LINK_REDUCE (R372): A reduce job quantises and sends its vector to every member. -/
  | linkReduce (job : Nat)
  /-- PUT_FLAG_FILL (R371): The peer fills the remote flag and acknowledges once its writes pass. -/
  | putFlagFill (put : Nat)
  /-- REDUCE_DEADLINE (R373): A reduce's deadline expires and it ends with the contributors present. -/
  | reduceDeadline (job : Nat)
  /-- LINK_JOB_END (R374): A link job writes its mask and force-fills its status word after its writes pass. -/
  | linkJobEnd (job : Nat)
  /-- CLUSTER_SPARE_TAKEOVER (R350): A spare cluster takes a failing cluster's number after pre-emption of its gangs. -/
  | clusterSpareTakeover (k : Nat)
  /-- POWER_GOOD (R353): Power is applied, device time starts and bring-up runs. -/
  | powerGood
  /-- TRCTL_WRITE (R183): A write to TRCTL sets trace enables and an interval, refusing values below 256. -/
  | trctlWrite (core : Nat) (v : DWord)
  /-- TRLOST_CLEAR (R183): A write to TRLOST clears the lost-record count. -/
  | trlostClear (core : Nat)
  /-- HISTOGRAM_CLEAR (R185): A write to a histogram counter clears it. -/
  | histogramClear (core : Nat) (k : Nat)
  /-- EVENT_SELECT_WRITE (R186): A guest selector write is applied, muted, or refused with an event-selection notice. -/
  | eventSelectWrite (core : Nat) (k : Nat) (v : DWord)
  /-- COUNTER_STATUS_CLEAR (R187): Writing 1 to a counter status bit clears it. -/
  | counterStatusClear (core : Nat) (v : DWord)
  /-- FAULT_ANSWER (R245): The front takes an answer record and retries, replays or ends the context. -/
  | faultAnswer (part : Nat) (tag : DWord) (status : DWord) (tagArea : DWord)
  /-- RANGE_ENTRY_WRITE (R238): A completed stage-2 range entry write is checked, written and clears cached translations. -/
  | rangeEntryWrite (part : Nat) (k : Nat) (base : DWord) (limit : DWord) (off : DWord) (ctl : DWord)
  /-- MIGRATION_START (R246): A migration descriptor starts round 0, copying every line of the frame. -/
  | migrationStart (part : Nat) (old : Nat) (new : Nat) (size : Nat) (bitmap : Nat) (checkpoint : Bool)
  /-- MIGRATION_END_FORWARDING (R246): System software ends forwarding of a moved frame. -/
  | migrationEndForwarding (m : Nat)
  /-- MAPCOMMIT (R359): Writing 1 schedules both peal maps to apply at the next round. -/
  | mapcommit (v : DWord)
  /-- PCTL_WRITE (R249): A write to PCTL enables or disables a partition, refused if it owns no needed slot. -/
  | pctlWrite (part : Nat) (v : DWord)
  /-- PFSTAT_CLEAR (R359): Writing 1 to PFSTAT bit 63 clears the refusal flag. -/
  | pfstatClear (v : DWord)
  /-- REGISTER_WRITE (R359): A write to a register with no behaviour of its own, refused if it breaks its rule. -/
  | registerWrite (part : Nat) (vf : Bool) (off : Nat) (v : DWord)
  /-- HOST_CXL_READ (R293): A host read of device memory over CXL.mem is performed at the home. -/
  | hostCxlRead (addr : Nat) (size : Nat)
  /-- HOST_CXL_WRITE (R293): A host write over CXL.mem is performed at the home and acknowledged after leases pass. -/
  | hostCxlWrite (addr : Nat) (data : List Byte)
  /-- SQTAIL (R297): A doorbell write makes the front read and post submission entries up to the new tail. -/
  | sqtail (part : Nat) (q : Nat) (v : DWord)
  /-- CQHEAD (R297): A write to CQHEAD frees completion-ring room so waiting completions proceed. -/
  | cqhead (part : Nat) (q : Nat) (v : DWord)
  /-- QSIZE (R295): A write to QSIZE sets ring sizes and enable, failing the enable if a ring fails stage 2. -/
  | qsize (part : Nat) (q : Nat) (v : DWord)
  /-- MODEL_RECORD_WRITE (R325): A write to a model record's fields, refused for most fields while enabled. -/
  | modelRecordWrite (part : Nat) (m : Nat) (k : Nat) (v : DWord)
  /-- MODEL_ENABLE (R325): Setting the enable bit checks the model and initialises its residency words. -/
  | modelEnable (part : Nat) (m : Nat)
  /-- MODEL_DISABLE (R325): Clearing the enable bit evicts every resident layer, refused while holds stand. -/
  | modelDisable (part : Nat) (m : Nat)
  /-- PORT_RESERVED_KIND (R342): A request of a reserved kind is dropped and a port error raised. -/
  | portReservedKind (ch : Nat) (hdr : DWord)
  /-- SPARE_CHANNEL_TAKEOVER (R351): A stack's spare channel takes over a failing channel. -/
  | spareChannelTakeover (ch : Nat) (readable : Bool)
  /-- LANE_REPLACE (R352): A lane that fails retraining is replaced by a spare lane. -/
  | laneReplace (link : Nat) (lane : Nat)
  /-- MPLIM (R356): A write to the module power limit, refused if it breaks the share rules. -/
  | mplim (v : DWord)
  /-- MSHARE (R356): A write to a partition's power share, refused if shares exceed the limit. -/
  | mshare (part : Nat) (v : DWord)
  /-- POWER_THROTTLE (R356): Each 1 ms average lowers or raises a partition's cluster clock against its share. -/
  | powerThrottle (part : Nat) (watts : Nat)
  /-- THERMAL_TRIP (R356): A thermal trip sets every cluster to 0.4 GHz and sets THERM. -/
  | thermalTrip
  /-- VF_RESET (R358): A function-level reset of a VF resets its partition alone. -/
  | vfReset (part : Nat)
  /-- PF_RESET (R358): A PF reset resets the whole module and reruns bring-up. -/
  | pfReset
  /-- GET_MEASUREMENTS (R361): An SPDM request returns the measurement digests. -/
  | getMeasurements (k : Nat)
  /-- SESSION_OPEN (R365): The security processor authenticates a peer and derives session keys. -/
  | sessionOpen (part : Nat) (link : Nat) (peer : Nat) (n : Nat) (base : Nat) (len : Nat)
  /-- SESSION_CLOSE (R367): Either end closes a session, ending its jobs. -/
  | sessionClose (part : Nat) (n : Nat)
  /-- SESSION_LOSS (R367): A session is lost, its put and get jobs end with error 1 and a record is queued. -/
  | sessionLoss (part : Nat) (n : Nat)
  /-- FLIT_DATA (R363): A data flit is received, checked and delivered to the session. -/
  | flitData (link : Nat) (flit : List Byte)
  /-- FLIT_ACKNOWLEDGEMENT (R363): An acknowledgement flit is received for a session. -/
  | flitAcknowledgement (link : Nat) (flit : List Byte)
  /-- FLIT_CONTRIBUTION (R363): A reduce contribution flit is received. -/
  | flitContribution (link : Nat) (flit : List Byte)
  /-- FLIT_CONTROL (R366): A control flit is received, including the key-switch flit. -/
  | flitControl (link : Nat) (flit : List Byte)
  /-- FLIT_RESERVED_KIND (R364): A flit of a reserved kind is dropped and counted. -/
  | flitReservedKind (link : Nat) (flit : List Byte)
  /-- NAK (R364): A NAK makes the sender resend every flit from the one named. -/
  | nak (link : Nat) (seq : BitVec 16)
  /-- CXL_CACHE_SNOOP (R293): A CXL.cache snoop from the host for a host-memory line held in its owning slice updates or invalidates that slice's copy. -/
  | cxlCacheSnoop (addr : Nat) (data : List Byte)
  /-- LINK_RETRAINED (R364): A Tiraux link that was retraining comes back up and resumes carrying its sessions' flits. -/
  | linkRetrained (link : Nat)
  /-- TEMPERATURE_FALL (R356): After a thermal trip, the module temperature falls back within 1 s, so the module is not shut down. -/
  | temperatureFall
  /-- HOST_LINK_LOSS (R11): The host link is lost, which is a fault of the module as a whole and affects every partition. -/
  | hostLinkLoss
  /-- CLUSTER_LOST (R350): A cluster stops responding, and every context with a gang on it ends with the fatal fault cluster lost. -/
  | clusterLost (k : Nat)
  deriving DecidableEq, Repr

end Sys2Proof
end

