-- ==== Sys2Proof/WellFormed.lean ====
section
/-! DEFINITION. Sys2Proof/WellFormed.lean: which terms of Instr the encoding admits: guard codes (R12), register and
pair ranges (R19), conditions and pair codes (R28), Q values (R30, R141), subcodes and scopes (R31), CVT type pairs
(R127), literals of LDT and STT (R30). An event is no word and has no encoding to break. -/

namespace Sys2Proof

/-- The head of an issue word, none for an event. -/
def Instr.head? : Instr → Option Head
  | .iadd h _ _ _ | .isub h _ _ _ | .imul h _ _ _ | .imulhS h _ _ _ | .imulhN h _ _ _ | .imac h _ _ _
  | .iminS h _ _ _ | .iminN h _ _ _ | .imaxS h _ _ _ | .imaxN h _ _ _ | .and h _ _ _ | .or h _ _ _
  | .xor h _ _ _ | .andn h _ _ _ | .shl h _ _ _ | .shr h _ _ _ | .sar h _ _ _ | .rol h _ _ _ | .bfx h _ _ _
  | .bfi h _ _ _ | .icmpS h _ _ _ _ | .icmpN h _ _ _ _ | .popc h _ _ | .clz h _ _ | .brev h _ _ | .mov h _ _
  | .ladd h _ _ _ | .lsub h _ _ _ | .lmul h _ _ _ | .lmulhS h _ _ _ | .lmulhN h _ _ _ | .lshl h _ _ _
  | .lshr h _ _ _ | .lsar h _ _ _ | .lcmpS h _ _ _ _ | .lcmpN h _ _ _ _ | .land h _ _ _ | .lor h _ _ _
  | .lxor h _ _ _ | .lea1 h _ _ _ | .lea2 h _ _ _ | .lea4 h _ _ _ | .lea8 h _ _ _ | .fadd h _ _ _
  | .fsub h _ _ _ | .fmul h _ _ _ | .fmac h _ _ _ | .fnmac h _ _ _ | .fmin h _ _ _ | .fmax h _ _ _
  | .fcmp h _ _ _ _ | .fneg h _ _ | .fabs h _ _ | .hadd2 h _ _ _ | .hmul2 h _ _ _ | .hfmac2 h _ _ _
  | .badd2 h _ _ _ | .bmul2 h _ _ _ | .bfmac2 h _ _ _ | .dadd h _ _ _ | .dmul h _ _ _ | .dfmac h _ _ _
  | .dcmp h _ _ _ _ | .iaddi h _ _ _ | .andi h _ _ _ | .ori h _ _ _ | .xori h _ _ _ | .shli h _ _ _
  | .shri h _ _ _ | .sari h _ _ _ | .icmpiS h _ _ _ _ | .icmpiN h _ _ _ _ | .movi h _ _ | .laddi h _ _ _
  | .imuli h _ _ _ | .ldb h _ _ _ _ _ | .ldbs h _ _ _ _ _ | .ldh h _ _ _ _ _ | .ldhs h _ _ _ _ _
  | .ldw h _ _ _ _ _ | .ldd h _ _ _ _ _ | .ldq h _ _ _ _ _ | .stb h _ _ _ _ _ | .sth h _ _ _ _ _
  | .stw h _ _ _ _ _ | .std h _ _ _ _ _ | .stq h _ _ _ _ _ | .ldt h _ _ _ _ _ | .stt h _ _ _ _ _
  | .atom h _ _ _ _ _ | .atomn h _ _ _ _ _ | .atomd h _ _ _ _ _ | .atomdn h _ _ _ _ _ | .atomf h _ _ _ _ _
  | .atomfn h _ _ _ _ _ | .xchg h _ _ _ _ | .cas h _ _ _ _ | .casd h _ _ _ _ | .tagr h _ _ _ _
  | .tags h _ _ _ _ | .pref h _ _ _ | .bra h _ | .call h _ | .brx h _ | .ret h | .loop h _ _ | .endF h
  | .endJ h _ | .fork h _ _ _ | .yield h | .nop h | .trap h _ | .rett h | .rds h _ _ | .wrs h _ _ | .movl h _ _
  | .shfl h _ _ _ | .bcast h _ _ | .vote h _ _ _ | .matchL h _ _ | .red h _ _ _ | .scan h _ _ _ _ | .sign h _
  | .marm h _ _ _ | .cpyq h _ | .bari h _ _ | .barv h _ _ | .barw h _ _ _ | .fence h _ _ _ | .layq h _ _
  | .layadv h _ _ _ | .laypin h _ _ _ | .layacq h _ | .layrel h _ | .tgpost h _ _ | .icinv h _ | .idivS h _ _ _
  | .idivN h _ _ _ | .iremS h _ _ _ | .iremN h _ _ _ | .fdiv h _ _ _ | .fsqrt h _ _ | .frcp h _ _ | .frsq h _ _
  | .fexp2 h _ _ | .flog2 h _ _ | .fsinp h _ _ | .fcosp h _ _ | .ddiv h _ _ _ | .dsqrt h _ _ | .cvt h _ _ _ _
  | .narrow h _ _ _ | .widen h _ _ _ | .fclass h _ _ | .lnkq h _ | .carve h _ | .tlbinv h _ _ | .rdfs h _ _ _
  | .wrfs h _ _ _ | .saved h => some h
  | .instructionFetch .. | .variableResultReturn .. | .switchMarkerResume .. | .crewMismatch ..
  | .yieldExpiry .. | .carveApply .. | .bankAccess .. | .homeRequest .. | .waitRepresent ..
  | .storeAcknowledgement .. | .l1LeaseExpiry .. | .releaseConditionMet .. | .feTimeout .. | .dequeTake ..
  | .dequeSteal .. | .preemptDecision .. | .preemptTrap .. | .restorePlacement .. | .traceSample ..
  | .trctlWrite .. | .trlostClear .. | .histogramClear .. | .eventSelectWrite .. | .counterStatusClear ..
  | .commandPost .. | .mma .. | .drain .. | .prime .. | .streamFetchReturn .. | .entryRaise ..
  | .copyJobStart .. | .jobComplete .. | .completionAction .. | .faultAnswer .. | .sideLogReplay ..
  | .rangeEntryWrite .. | .migrationStart .. | .migrationRound .. | .migrationFreeze ..
  | .migrationEndForwarding .. | .mapcommit .. | .mapApply .. | .pctlWrite .. | .pfstatClear ..
  | .registerWrite .. | .regionCreate .. | .regionDestroy .. | .monitorNotice .. | .windowEnd ..
  | .driftTile .. | .hostCxlRead .. | .hostCxlWrite .. | .sqtail .. | .cqhead .. | .qsize .. | .nodePost ..
  | .nodeLaunch .. | .nodeCopy .. | .nodeSwapIn .. | .nodeSwapEvict .. | .nodeLink .. | .nodeMarker ..
  | .nodeReservedKind .. | .nodeComplete .. | .priorityAging .. | .gangPlacement .. | .detRound ..
  | .carillonRelease .. | .modelRecordWrite .. | .modelEnable .. | .modelDisable .. | .swapInFrames ..
  | .evictionFramesReturn .. | .swapInComplete .. | .swapInFailure .. | .readSector .. | .readLine ..
  | .writeSector .. | .writeLine .. | .partialWrite .. | .scrubRead .. | .portReservedKind .. | .readData ..
  | .writeDone .. | .spareRowCopy .. | .spareChannelTakeover .. | .laneReplace .. | .clusterSpareTakeover ..
  | .powerGood .. | .mplim .. | .mshare .. | .powerThrottle .. | .thermalTrip .. | .thermalShutdown ..
  | .vfReset .. | .pfReset .. | .getMeasurements .. | .sessionOpen .. | .rekey .. | .sessionClose ..
  | .sessionLoss .. | .linkDownExpiry .. | .flitData .. | .flitAcknowledgement .. | .flitContribution ..
  | .flitControl .. | .flitReservedKind .. | .nak .. | .linkRetrain .. | .linkPut .. | .linkGet ..
  | .linkReduce .. | .putFlagFill .. | .reduceDeadline .. | .linkJobEnd .. | .cxlCacheSnoop ..
  | .linkRetrained .. | .temperatureFall .. | .hostLinkLoss .. | .clusterLost .. => none

/-- A field that names a pair holds 0 to 31 (R19). -/
def pairOk (x : BitVec 6) : Bool := decide (x.toNat < 32)

/-- A field that names an even pair holds an even value from 0 to 30 (R19). -/
def evenOk (x : BitVec 6) : Bool := decide (x.toNat < 32) && x.toNat % 2 == 0

/-- The CVT types held in a pair: f64, s64, n64 (R31, R127). -/
def is64 (t : BitVec 3) : Bool := decide (5 ≤ t.toNat)

/-- Guard codes 13 to 15 are reserved (R12). -/
def Instr.guardOk (i : Instr) : Bool :=
  match i.head? with
  | some h => decide (h.g.toNat ≤ 12)
  | none => true

/-- The must-be-zero bits [31:6] of the literal of LDT and STT (R30). -/
def Instr.mbzOk (i : Instr) : Bool :=
  match i with
  | .ldt _ _ _ _ _ lit => decide (lit.toNat < 64)
  | .stt _ _ _ _ _ lit => decide (lit.toNat < 64)
  | _ => true

/-- Legal Q values, conditions, pair codes, subcodes, scopes, type pairs and index ranges: what cause 3 of R95
is raised for. -/
def Instr.subOk : Instr → Bool
  | .iadd .. | .isub .. | .imul .. | .imulhS .. | .imulhN .. | .imac .. | .iminS .. | .iminN .. | .imaxS ..
  | .imaxN .. | .and .. | .or .. | .xor .. | .andn .. | .shl .. | .shr .. | .sar .. | .rol .. | .bfx ..
  | .bfi .. | .popc .. | .clz .. | .brev .. | .mov .. | .fadd .. | .fsub .. | .fmul .. | .fmac .. | .fnmac ..
  | .fmin .. | .fmax .. | .fneg .. | .fabs .. | .hadd2 .. | .hmul2 .. | .hfmac2 .. | .badd2 .. | .bmul2 ..
  | .bfmac2 .. | .iaddi .. | .andi .. | .ori .. | .xori .. | .shli .. | .shri .. | .sari .. | .movi ..
  | .imuli .. | .atom .. | .atomn .. | .xchg .. | .tagr .. | .tags .. | .pref .. | .bra .. | .call .. | .ret ..
  | .loop .. | .endF .. | .yield .. | .nop .. | .trap .. | .rett .. | .rds .. | .wrs .. | .movl .. | .shfl ..
  | .bcast .. | .sign .. | .idivS .. | .idivN .. | .iremS .. | .iremN .. | .fdiv .. | .fsqrt .. | .frcp ..
  | .frsq .. | .fexp2 .. | .flog2 .. | .fsinp .. | .fcosp .. | .narrow .. | .widen .. | .fclass .. | .rdfs ..
  | .wrfs .. | .saved .. | .instructionFetch .. | .variableResultReturn .. | .switchMarkerResume ..
  | .crewMismatch .. | .yieldExpiry .. | .carveApply .. | .bankAccess .. | .homeRequest .. | .waitRepresent ..
  | .storeAcknowledgement .. | .l1LeaseExpiry .. | .releaseConditionMet .. | .feTimeout .. | .dequeTake ..
  | .dequeSteal .. | .preemptDecision .. | .preemptTrap .. | .restorePlacement .. | .traceSample ..
  | .trctlWrite .. | .trlostClear .. | .histogramClear .. | .eventSelectWrite .. | .counterStatusClear ..
  | .commandPost .. | .mma .. | .drain .. | .prime .. | .streamFetchReturn .. | .entryRaise ..
  | .copyJobStart .. | .jobComplete .. | .completionAction .. | .faultAnswer .. | .sideLogReplay ..
  | .rangeEntryWrite .. | .migrationStart .. | .migrationRound .. | .migrationFreeze ..
  | .migrationEndForwarding .. | .mapcommit .. | .mapApply .. | .pctlWrite .. | .pfstatClear ..
  | .registerWrite .. | .regionCreate .. | .regionDestroy .. | .monitorNotice .. | .windowEnd ..
  | .driftTile .. | .hostCxlRead .. | .hostCxlWrite .. | .sqtail .. | .cqhead .. | .qsize .. | .nodePost ..
  | .nodeLaunch .. | .nodeCopy .. | .nodeSwapIn .. | .nodeSwapEvict .. | .nodeLink .. | .nodeMarker ..
  | .nodeReservedKind .. | .nodeComplete .. | .priorityAging .. | .gangPlacement .. | .detRound ..
  | .carillonRelease .. | .modelRecordWrite .. | .modelEnable .. | .modelDisable .. | .swapInFrames ..
  | .evictionFramesReturn .. | .swapInComplete .. | .swapInFailure .. | .readSector .. | .readLine ..
  | .writeSector .. | .writeLine .. | .partialWrite .. | .scrubRead .. | .portReservedKind .. | .readData ..
  | .writeDone .. | .spareRowCopy .. | .spareChannelTakeover .. | .laneReplace .. | .clusterSpareTakeover ..
  | .powerGood .. | .mplim .. | .mshare .. | .powerThrottle .. | .thermalTrip .. | .thermalShutdown ..
  | .vfReset .. | .pfReset .. | .getMeasurements .. | .sessionOpen .. | .rekey .. | .sessionClose ..
  | .sessionLoss .. | .linkDownExpiry .. | .flitData .. | .flitAcknowledgement .. | .flitContribution ..
  | .flitControl .. | .flitReservedKind .. | .nak .. | .linkRetrain .. | .linkPut .. | .linkGet ..
  | .linkReduce .. | .putFlagFill .. | .reduceDeadline .. | .linkJobEnd .. | .cxlCacheSnoop ..
  | .linkRetrained .. | .temperatureFall .. | .hostLinkLoss .. | .clusterLost .. => true
  | .icmpS _ n p _ _ | .icmpN _ n p _ _ | .icmpiS _ n p _ _ | .icmpiN _ n p _ _ => decide (n.toNat < 6) && decide (p.toNat < 6)
  | .ladd _ d a b | .lsub _ d a b | .lmul _ d a b | .lmulhS _ d a b | .lmulhN _ d a b | .land _ d a b
  | .lor _ d a b | .lxor _ d a b | .dadd _ d a b | .dmul _ d a b | .dfmac _ d a b | .fork _ d a b
  | .ddiv _ d a b => pairOk d && pairOk a && pairOk b
  | .lshl _ d a _ | .lshr _ d a _ | .lsar _ d a _ | .lea1 _ d a _ | .lea2 _ d a _ | .lea4 _ d a _
  | .lea8 _ d a _ | .laddi _ d a _ | .marm _ d a _ | .layq _ d a | .dsqrt _ d a => pairOk d && pairOk a
  | .lcmpS _ n p a b | .lcmpN _ n p a b => decide (n.toNat < 6) && decide (p.toNat < 6) && pairOk a && pairOk b
  | .fcmp _ _ p _ _ => decide (p.toNat < 6)
  | .dcmp _ _ p a b => decide (p.toNat < 6) && pairOk a && pairOk b
  | .ldb _ q _ _ _ _ | .ldbs _ q _ _ _ _ | .ldh _ q _ _ _ _ | .ldhs _ q _ _ _ _ | .ldw _ q _ _ _ _
  | .ldt _ q _ _ _ _ | .atomf _ q _ _ _ _ | .atomfn _ q _ _ _ _ => (q == 0 || q == 1 || q == 2)
  | .ldd _ q d _ _ _ => pairOk d && (q == 0 || q == 1 || q == 2)
  | .ldq _ q d _ _ _ => evenOk d && (q == 0 || q == 1 || q == 2)
  | .stb _ q _ _ _ _ | .sth _ q _ _ _ _ | .stw _ q _ _ _ _ | .stt _ q _ _ _ _ => (q == 0 || q == 3 || q == 4 || q == 5)
  | .std _ q d _ _ _ => pairOk d && (q == 0 || q == 3 || q == 4 || q == 5)
  | .stq _ q d _ _ _ => evenOk d && (q == 0 || q == 3 || q == 4 || q == 5)
  | .atomd _ _ d _ _ _ | .atomdn _ _ d _ _ _ | .cas _ d _ _ _ | .matchL _ d _ => pairOk d
  | .casd _ d _ _ _ => evenOk d
  | .brx _ a | .endJ _ a | .cpyq _ a | .bari _ a _ | .barv _ _ a | .barw _ _ a _ | .layacq _ a | .layrel _ a
  | .tgpost _ _ a | .lnkq _ a | .tlbinv _ a _ => pairOk a
  | .vote _ d _ v => decide (v.toNat < 3) && (v != 2 || pairOk d)
  | .red _ _ _ o | .scan _ _ _ o _ => decide (o.toNat < 11)
  | .fence _ _ k scope => decide (scope.toNat < 5) && k != 3
  | .layadv _ _ a b | .laypin _ _ a b => pairOk a && pairOk b
  | .icinv _ scope => decide (scope.toNat < 5)
  | .cvt _ d a x y => x != y && (!is64 x || pairOk a) && (!is64 y || pairOk d)
  | .carve _ k => k != 0

/-- A well-formed instruction: one the encoding of R12 to R31 admits. -/
def Instr.wf (i : Instr) : Bool := i.guardOk && i.mbzOk && i.subOk

/-- The rows of the table that are issue words. -/
def Instr.isWord (i : Instr) : Bool := i.head?.isSome

end Sys2Proof
end

