-- ==== Sys2Proof/Decode.lean ====
section
/-! DEFINITION. Sys2Proof/Decode.lean: from issue words to instructions (R12 to R33) and back.
Decoding is total: it answers an instruction or the lowest-numbered cause of R95 among 0 to 4 that applies (R380). -/

namespace Sys2Proof

/-- Why a word decodes to no instruction: causes 0 to 4 of R95. -/
inductive Illegal where
  /-- Cause 0: a reserved opcode (R33). -/
  | reservedOpcode
  /-- Cause 1: a reserved guard code (R12). -/
  | reservedGuard
  /-- Cause 2: a nonzero must-be-zero field (R19). -/
  | mustBeZero
  /-- Cause 3: an illegal Q, condition, pair code, subcode, scope, type pair or index (R19, R30, R31). -/
  | subcode
  /-- Cause 4: a literal owner in slot 2 (R20). -/
  | literalSlot2
  deriving DecidableEq, Repr

/-- The cause number of R95. -/
def Illegal.cause : Illegal → Nat
  | .reservedOpcode => 0
  | .reservedGuard => 1
  | .mustBeZero => 2
  | .subcode => 3
  | .literalSlot2 => 4

/-! ### Fields (R12, R18) -/

/-- C, S and G of a word. -/
def fHead (w : Word) : Head := ⟨w.getLsbD 31, w.getLsbD 30, w.extractLsb' 26 4⟩
def fF (w : Word) : BitVec 2 := w.extractLsb' 24 2
/-- The opcode of the T and X formats. -/
def fOp (w : Word) : BitVec 6 := w.extractLsb' 18 6
def fD (w : Word) : BitVec 6 := w.extractLsb' 12 6
def fA (w : Word) : BitVec 6 := w.extractLsb' 6 6
def fB (w : Word) : BitVec 6 := w.extractLsb' 0 6
/-- Condition and predicate pair of a T-format compare (R28). -/
def fN (w : Word) : BitVec 3 := w.extractLsb' 15 3
def fP (w : Word) : BitVec 3 := w.extractLsb' 12 3
def fO (w : Word) : BitVec 18 := w.extractLsb' 0 18
def fK (w : Word) : BitVec 12 := w.extractLsb' 0 12
/-- The I format. -/
def iOp (w : Word) : BitVec 4 := w.extractLsb' 20 4
def iD (w : Word) : BitVec 6 := w.extractLsb' 14 6
def iA (w : Word) : BitVec 6 := w.extractLsb' 8 6
def iK (w : Word) : BitVec 8 := w.extractLsb' 0 8
def iK5 (w : Word) : BitVec 5 := w.extractLsb' 0 5
def iKhi (w : Word) : BitVec 3 := w.extractLsb' 5 3
def iN (w : Word) : BitVec 3 := w.extractLsb' 17 3
def iP (w : Word) : BitVec 3 := w.extractLsb' 14 3
/-- The M format. -/
def mOp (w : Word) : BitVec 5 := w.extractLsb' 19 5
def mQ (w : Word) : BitVec 3 := w.extractLsb' 16 3
def mD (w : Word) : BitVec 6 := w.extractLsb' 10 6
def mA (w : Word) : BitVec 5 := w.extractLsb' 5 5
def mP (w : Word) : BitVec 2 := w.extractLsb' 3 2
def mL (w : Word) : Bool := w.getLsbD 2
def mZ (w : Word) : BitVec 2 := w.extractLsb' 0 2

/-! ### Decoding -/

/-- An opcode's instruction with what the word's other bits say of it: the must-be-zero fields are zero, the
subcodes outside the term are legal, the literal it owns is there. -/
structure Cand where
  instr : Instr
  mbz : Bool
  sub : Bool
  lit : Bool

/-- A candidate whose every field is an operand. -/
def Cand.ok (i : Instr) : Cand := ⟨i, true, true, true⟩

/-- The instruction, or the lowest cause that applies (R380). -/
def Cand.settle (k : Cand) : Except Illegal Instr :=
  if !k.instr.guardOk then .error .reservedGuard
  else if !(k.mbz && k.instr.mbzOk) then .error .mustBeZero
  else if !(k.sub && k.instr.subOk) then .error .subcode
  else if !k.lit then .error .literalSlot2
  else .ok k.instr

/-- The T-format map (R27, R28). -/
def decodeT (w : Word) : Option Cand :=
  let h := fHead w
  match (fOp w).toNat with
  | 0 => some (.ok (.iadd h (fD w) (fA w) (fB w)))
  | 1 => some (.ok (.isub h (fD w) (fA w) (fB w)))
  | 2 => some (.ok (.imul h (fD w) (fA w) (fB w)))
  | 3 => some (.ok (.imulhS h (fD w) (fA w) (fB w)))
  | 4 => some (.ok (.imulhN h (fD w) (fA w) (fB w)))
  | 5 => some (.ok (.imac h (fD w) (fA w) (fB w)))
  | 6 => some (.ok (.iminS h (fD w) (fA w) (fB w)))
  | 7 => some (.ok (.iminN h (fD w) (fA w) (fB w)))
  | 8 => some (.ok (.imaxS h (fD w) (fA w) (fB w)))
  | 9 => some (.ok (.imaxN h (fD w) (fA w) (fB w)))
  | 10 => some (.ok (.and h (fD w) (fA w) (fB w)))
  | 11 => some (.ok (.or h (fD w) (fA w) (fB w)))
  | 12 => some (.ok (.xor h (fD w) (fA w) (fB w)))
  | 13 => some (.ok (.andn h (fD w) (fA w) (fB w)))
  | 14 => some (.ok (.shl h (fD w) (fA w) (fB w)))
  | 15 => some (.ok (.shr h (fD w) (fA w) (fB w)))
  | 16 => some (.ok (.sar h (fD w) (fA w) (fB w)))
  | 17 => some (.ok (.rol h (fD w) (fA w) (fB w)))
  | 18 => some (.ok (.bfx h (fD w) (fA w) (fB w)))
  | 19 => some (.ok (.bfi h (fD w) (fA w) (fB w)))
  | 20 => some (.ok (.icmpS h (fN w) (fP w) (fA w) (fB w)))
  | 21 => some (.ok (.icmpN h (fN w) (fP w) (fA w) (fB w)))
  | 22 => some (.mk (.popc h (fD w) (fA w)) (fB w == 0) true true)
  | 23 => some (.mk (.clz h (fD w) (fA w)) (fB w == 0) true true)
  | 24 => some (.mk (.brev h (fD w) (fA w)) (fB w == 0) true true)
  | 25 => some (.mk (.mov h (fD w) (fA w)) (fB w == 0) true true)
  | 26 => some (.ok (.ladd h (fD w) (fA w) (fB w)))
  | 27 => some (.ok (.lsub h (fD w) (fA w) (fB w)))
  | 28 => some (.ok (.lmul h (fD w) (fA w) (fB w)))
  | 29 => some (.ok (.lmulhS h (fD w) (fA w) (fB w)))
  | 30 => some (.ok (.lmulhN h (fD w) (fA w) (fB w)))
  | 31 => some (.ok (.lshl h (fD w) (fA w) (fB w)))
  | 32 => some (.ok (.lshr h (fD w) (fA w) (fB w)))
  | 33 => some (.ok (.lsar h (fD w) (fA w) (fB w)))
  | 34 => some (.ok (.lcmpS h (fN w) (fP w) (fA w) (fB w)))
  | 35 => some (.ok (.lcmpN h (fN w) (fP w) (fA w) (fB w)))
  | 36 => some (.ok (.land h (fD w) (fA w) (fB w)))
  | 37 => some (.ok (.lor h (fD w) (fA w) (fB w)))
  | 38 => some (.ok (.lxor h (fD w) (fA w) (fB w)))
  | 39 => some (.ok (.lea1 h (fD w) (fA w) (fB w)))
  | 40 => some (.ok (.lea2 h (fD w) (fA w) (fB w)))
  | 41 => some (.ok (.lea4 h (fD w) (fA w) (fB w)))
  | 42 => some (.ok (.lea8 h (fD w) (fA w) (fB w)))
  | 43 => some (.ok (.fadd h (fD w) (fA w) (fB w)))
  | 44 => some (.ok (.fsub h (fD w) (fA w) (fB w)))
  | 45 => some (.ok (.fmul h (fD w) (fA w) (fB w)))
  | 46 => some (.ok (.fmac h (fD w) (fA w) (fB w)))
  | 47 => some (.ok (.fnmac h (fD w) (fA w) (fB w)))
  | 48 => some (.ok (.fmin h (fD w) (fA w) (fB w)))
  | 49 => some (.ok (.fmax h (fD w) (fA w) (fB w)))
  | 50 => some (.ok (.fcmp h (fN w) (fP w) (fA w) (fB w)))
  | 51 => some (.mk (.fneg h (fD w) (fA w)) (fB w == 0) true true)
  | 52 => some (.mk (.fabs h (fD w) (fA w)) (fB w == 0) true true)
  | 53 => some (.ok (.hadd2 h (fD w) (fA w) (fB w)))
  | 54 => some (.ok (.hmul2 h (fD w) (fA w) (fB w)))
  | 55 => some (.ok (.hfmac2 h (fD w) (fA w) (fB w)))
  | 56 => some (.ok (.badd2 h (fD w) (fA w) (fB w)))
  | 57 => some (.ok (.bmul2 h (fD w) (fA w) (fB w)))
  | 58 => some (.ok (.bfmac2 h (fD w) (fA w) (fB w)))
  | 59 => some (.ok (.dadd h (fD w) (fA w) (fB w)))
  | 60 => some (.ok (.dmul h (fD w) (fA w) (fB w)))
  | 61 => some (.ok (.dfmac h (fD w) (fA w) (fB w)))
  | 62 => some (.ok (.dcmp h (fN w) (fP w) (fA w) (fB w)))
  | _ => none

/-- The I-format map (R29). -/
def decodeI (w : Word) : Option Cand :=
  let h := fHead w
  match (iOp w).toNat with
  | 0 => some (.ok (.iaddi h (iD w) (iA w) (iK w)))
  | 1 => some (.ok (.andi h (iD w) (iA w) (iK w)))
  | 2 => some (.ok (.ori h (iD w) (iA w) (iK w)))
  | 3 => some (.ok (.xori h (iD w) (iA w) (iK w)))
  | 4 => some (.mk (.shli h (iD w) (iA w) (iK5 w)) (iKhi w == 0) true true)
  | 5 => some (.mk (.shri h (iD w) (iA w) (iK5 w)) (iKhi w == 0) true true)
  | 6 => some (.mk (.sari h (iD w) (iA w) (iK5 w)) (iKhi w == 0) true true)
  | 7 => some (.ok (.icmpiS h (iN w) (iP w) (iA w) (iK w)))
  | 8 => some (.ok (.icmpiN h (iN w) (iP w) (iA w) (iK w)))
  | 9 => some (.mk (.movi h (iD w) (iK w)) (iA w == 0) true true)
  | 10 => some (.ok (.laddi h (iD w) (iA w) (iK w)))
  | 11 => some (.ok (.imuli h (iD w) (iA w) (iK w)))
  | _ => none

/-- An M-format word whose address may own a literal offset (R20, R30). DEDUCED: log entry 69. -/
def mCand (w : Word) (lit : Option Word) (f : Option Word → Instr) (mbz sub : Bool) : Cand :=
  if mL w then ⟨f (some (lit.getD 0)), mbz && mZ w == 0, sub, lit.isSome⟩ else ⟨f none, mbz && mZ w == 0, sub, true⟩

/-- The M-format map (R30). `lit` is the word of the next slot, none in slot 2. -/
def decodeM (w : Word) (lit : Option Word) : Option Cand :=
  let h := fHead w
  match (mOp w).toNat with
  | 0 => some (mCand w lit (.ldb h (mQ w) (mD w) (mA w) (mP w)) true true)
  | 1 => some (mCand w lit (.ldbs h (mQ w) (mD w) (mA w) (mP w)) true true)
  | 2 => some (mCand w lit (.ldh h (mQ w) (mD w) (mA w) (mP w)) true true)
  | 3 => some (mCand w lit (.ldhs h (mQ w) (mD w) (mA w) (mP w)) true true)
  | 4 => some (mCand w lit (.ldw h (mQ w) (mD w) (mA w) (mP w)) true true)
  | 5 => some (mCand w lit (.ldd h (mQ w) (mD w) (mA w) (mP w)) true true)
  | 6 => some (mCand w lit (.ldq h (mQ w) (mD w) (mA w) (mP w)) true true)
  | 7 => some (mCand w lit (.stb h (mQ w) (mD w) (mA w) (mP w)) true true)
  | 8 => some (mCand w lit (.sth h (mQ w) (mD w) (mA w) (mP w)) true true)
  | 9 => some (mCand w lit (.stw h (mQ w) (mD w) (mA w) (mP w)) true true)
  | 10 => some (mCand w lit (.std h (mQ w) (mD w) (mA w) (mP w)) true true)
  | 11 => some (mCand w lit (.stq h (mQ w) (mD w) (mA w) (mP w)) true true)
  | 12 => some (.mk (.ldt h (mQ w) (mD w) (mA w) (mP w) (if mL w then lit.getD 0 else 0)) (mZ w == 0) (mL w) lit.isSome)
  | 13 => some (.mk (.stt h (mQ w) (mD w) (mA w) (mP w) (if mL w then lit.getD 0 else 0)) (mZ w == 0) (mL w) lit.isSome)
  | 14 => some (mCand w lit (.atom h (mQ w) (mD w) (mA w) (mP w)) true true)
  | 15 => some (mCand w lit (.atomn h (mQ w) (mD w) (mA w) (mP w)) true true)
  | 16 => some (mCand w lit (.atomd h (mQ w) (mD w) (mA w) (mP w)) true true)
  | 17 => some (mCand w lit (.atomdn h (mQ w) (mD w) (mA w) (mP w)) true true)
  | 18 => some (mCand w lit (.atomf h (mQ w) (mD w) (mA w) (mP w)) true true)
  | 19 => some (mCand w lit (.atomfn h (mQ w) (mD w) (mA w) (mP w)) true true)
  | 20 => some (mCand w lit (.xchg h (mD w) (mA w) (mP w)) true (mQ w == 0))
  | 21 => some (mCand w lit (.cas h (mD w) (mA w) (mP w)) true (mQ w == 0))
  | 22 => some (mCand w lit (.casd h (mD w) (mA w) (mP w)) true (mQ w == 0))
  | 23 => some (mCand w lit (.tagr h (mD w) (mA w) (mP w)) true (mQ w == 0))
  | 24 => some (mCand w lit (.tags h (mD w) (mA w) (mP w)) true (mQ w == 0))
  | 25 => some (mCand w lit (.pref h (mA w) (mP w)) (mD w == 0) (mQ w == 0))
  | _ => none

/-- The X-format map (R31). -/
def decodeX (w : Word) (lit : Option Word) : Option Cand :=
  let h := fHead w
  match (fOp w).toNat with
  | 0 => some (.ok (.bra h (fO w)))
  | 1 => some (.ok (.call h (fO w)))
  | 2 => some (.mk (.brx h (fA w)) (fD w == 0 && fB w == 0) true true)
  | 3 => some (.mk (.ret h) (fD w == 0 && fA w == 0 && fB w == 0) true true)
  | 4 => some (.ok (.loop h (fD w) (fK w)))
  | 5 => some (if fB w &&& 1 == 0 then .mk (.endF h) (fD w == 0 && fA w == 0 && fB w == 0) true true
      else .mk (.endJ h (fA w)) (fD w == 0 && fB w == 1) true true)
  | 6 => some (.ok (.fork h (fD w) (fA w) (fB w)))
  | 7 => some (.mk (.yield h) (fD w == 0 && fA w == 0 && fB w == 0) true true)
  | 8 => some (.mk (.nop h) (fD w == 0 && fA w == 0 && fB w == 0) true true)
  | 9 => some (.mk (.trap h (fK w)) (fD w == 0) true true)
  | 10 => some (.mk (.rett h) (fD w == 0 && fA w == 0 && fB w == 0) true true)
  | 11 => some (.mk (.rds h (fD w) (fB w)) (fA w == 0) true true)
  | 12 => some (.mk (.wrs h (fD w) (fB w)) (fA w == 0) true true)
  | 13 => some (.mk (.movl h (fD w) (lit.getD 0)) (fK w == 0) true lit.isSome)
  | 14 => some (.mk (.shfl h (fD w) (w.extractLsb' 10 2) (w.extractLsb' 0 7)) (w.extractLsb' 7 3 == 0) true true)
  | 15 => some (.mk (.bcast h (fD w) (w.extractLsb' 0 7)) (w.extractLsb' 7 5 == 0) true true)
  | 16 => some (.mk (.vote h (fD w) (fA w) (w.extractLsb' 4 2)) (w.extractLsb' 0 4 == 0) true true)
  | 17 => some (.mk (.matchL h (fD w) (fA w)) (fB w == 0) true true)
  | 18 => some (.mk (.red h (fD w) (fA w) (w.extractLsb' 2 4)) (w.extractLsb' 0 2 == 0) true true)
  | 19 => some (.mk (.scan h (fD w) (fA w) (w.extractLsb' 2 4) (w.extractLsb' 0 1)) (w.extractLsb' 1 1 == 0) true true)
  | 20 => some (.mk (.sign h (w.extractLsb' 0 5)) (fD w == 0 && w.extractLsb' 5 7 == 0) true true)
  | 21 => some (.ok (.marm h (fD w) (fA w) (fB w)))
  | 22 => some (.mk (.cpyq h (fA w)) (fD w == 0 && fB w == 0) true true)
  | 23 => some (.mk (.bari h (fA w) (fB w)) (fD w == 0) true true)
  | 24 => some (.mk (.barv h (fD w) (fA w)) (fB w == 0) true true)
  | 25 => some (.ok (.barw h (fD w) (fA w) (fB w)))
  | 26 => some (.mk (.fence h (w.extractLsb' 5 1) (w.extractLsb' 3 2) (w.extractLsb' 0 3)) (fD w == 0 && fA w == 0) true true)
  | 27 => some (.mk (.layq h (fD w) (fA w)) (fB w == 0) true true)
  | 28 => some (.ok (.layadv h (fD w) (fA w) (fB w)))
  | 29 => some (.ok (.laypin h (fD w) (fA w) (fB w)))
  | 30 => some (.mk (.layacq h (fA w)) (fD w == 0 && fB w == 0) true true)
  | 31 => some (.mk (.layrel h (fA w)) (fD w == 0 && fB w == 0) true true)
  | 32 => some (.mk (.tgpost h (fD w) (fA w)) (fB w == 0) true true)
  | 33 => some (.mk (.icinv h (w.extractLsb' 0 3)) (fD w == 0 && w.extractLsb' 3 9 == 0) true true)
  | 34 => some (.ok (.idivS h (fD w) (fA w) (fB w)))
  | 35 => some (.ok (.idivN h (fD w) (fA w) (fB w)))
  | 36 => some (.ok (.iremS h (fD w) (fA w) (fB w)))
  | 37 => some (.ok (.iremN h (fD w) (fA w) (fB w)))
  | 38 => some (.ok (.fdiv h (fD w) (fA w) (fB w)))
  | 39 => some (.mk (.fsqrt h (fD w) (fA w)) (fB w == 0) true true)
  | 40 => some (.mk (.frcp h (fD w) (fA w)) (fB w == 0) true true)
  | 41 => some (.mk (.frsq h (fD w) (fA w)) (fB w == 0) true true)
  | 42 => some (.mk (.fexp2 h (fD w) (fA w)) (fB w == 0) true true)
  | 43 => some (.mk (.flog2 h (fD w) (fA w)) (fB w == 0) true true)
  | 44 => some (.mk (.fsinp h (fD w) (fA w)) (fB w == 0) true true)
  | 45 => some (.mk (.fcosp h (fD w) (fA w)) (fB w == 0) true true)
  | 46 => some (.ok (.ddiv h (fD w) (fA w) (fB w)))
  | 47 => some (.mk (.dsqrt h (fD w) (fA w)) (fB w == 0) true true)
  | 48 => some (.ok (.cvt h (fD w) (fA w) (w.extractLsb' 3 3) (w.extractLsb' 0 3)))
  | 49 => some (.ok (.narrow h (fD w) (fA w) (fB w)))
  | 50 => some (.ok (.widen h (fD w) (fA w) (fB w)))
  | 51 => some (.mk (.fclass h (fD w) (fA w)) (fB w == 0) true true)
  | 52 => some (.mk (.lnkq h (fA w)) (fD w == 0 && fB w == 0) true true)
  | 53 => some (.mk (.carve h (w.extractLsb' 0 3)) (fD w == 0 && w.extractLsb' 3 9 == 0) true true)
  | 54 => some (.mk (.tlbinv h (fA w) (fB w)) (fD w == 0) true true)
  | 55 => some (.ok (.rdfs h (fD w) (fA w) (fB w)))
  | 56 => some (.ok (.wrfs h (fD w) (fA w) (fB w)))
  | 57 => some (.mk (.saved h) (fD w == 0 && fA w == 0 && fB w == 0) true true)
  | _ => none

/-- The candidate of a word, none for a reserved opcode (R33). -/
def candOf (w : Word) (lit : Option Word) : Option Cand :=
  match (fF w).toNat with
  | 0 => decodeT w
  | 1 => decodeI w
  | 2 => decodeM w lit
  | _ => decodeX w lit

/-- An issue word with the word of the slot after it (none in slot 2). -/
def decodeWord (w : Word) (lit : Option Word) : Except Illegal Instr :=
  match candOf w lit with
  | none => .error .reservedOpcode
  | some k => k.settle

/-- A literal owner (R20): MOVL, and an M-format word with L = 1. -/
def ownsLiteral (w : Word) : Bool :=
  (fF w == 2 && mL w) || (fF w == 3 && fOp w == 0x0D)

/-- The instruction of the slot at which a list of words begins. -/
def decodeAt : List Word → Except Illegal Instr
  | [] => .error .reservedOpcode
  | w :: rest => decodeWord w rest.head?

/-- The instruction the decoder reads from a packet whose slot 0 and slot 1 hold the low 64 bits of `w`, slot 2 zero
(the opcode table's numbering: bit 0 is the least significant bit of the first word). -/
def decodeTableWord (_nbits w : Nat) : Option Instr :=
  match decodeAt [BitVec.ofNat 32 w, BitVec.ofNat 32 (w / 2 ^ 32), 0] with
  | .ok i => some i
  | .error _ => none

/-! ### Encoding (R12, R18) -/

/-- Bits [31:26]. -/
def Head.bits (h : Head) : BitVec 6 := BitVec.ofBool h.c ++ BitVec.ofBool h.s ++ h.g

/-- A T-format word (f = 0) or an XT-format word (f = 3). -/
def tWord (h : Head) (f : BitVec 2) (op : BitVec 6) (d a b : BitVec 6) : Word := h.bits ++ f ++ op ++ d ++ a ++ b
def iWord (h : Head) (op : BitVec 4) (d a : BitVec 6) (k : BitVec 8) : Word := h.bits ++ 1#2 ++ op ++ d ++ a ++ k
def xbWord (h : Head) (op : BitVec 6) (o : BitVec 18) : Word := h.bits ++ 3#2 ++ op ++ o
def xkWord (h : Head) (op : BitVec 6) (d : BitVec 6) (k : BitVec 12) : Word := h.bits ++ 3#2 ++ op ++ d ++ k
/-- An M-format word, with the literal it owns when it has an offset. -/
def mWord (h : Head) (op : BitVec 5) (q : BitVec 3) (d : BitVec 6) (a : BitVec 5) (p : BitVec 2) :
    Option Word → List Word
  | none => [h.bits ++ 2#2 ++ op ++ q ++ d ++ a ++ p ++ 0#1 ++ 0#2]
  | some l => [h.bits ++ 2#2 ++ op ++ q ++ d ++ a ++ p ++ 1#1 ++ 0#2, l]

/-- The words of an instruction; an event has none. -/
def encode : Instr → List Word
  | .iadd h d a b => [tWord h 0 0 d a b]
  | .isub h d a b => [tWord h 0 1 d a b]
  | .imul h d a b => [tWord h 0 2 d a b]
  | .imulhS h d a b => [tWord h 0 3 d a b]
  | .imulhN h d a b => [tWord h 0 4 d a b]
  | .imac h d a b => [tWord h 0 5 d a b]
  | .iminS h d a b => [tWord h 0 6 d a b]
  | .iminN h d a b => [tWord h 0 7 d a b]
  | .imaxS h d a b => [tWord h 0 8 d a b]
  | .imaxN h d a b => [tWord h 0 9 d a b]
  | .and h d a b => [tWord h 0 10 d a b]
  | .or h d a b => [tWord h 0 11 d a b]
  | .xor h d a b => [tWord h 0 12 d a b]
  | .andn h d a b => [tWord h 0 13 d a b]
  | .shl h d a b => [tWord h 0 14 d a b]
  | .shr h d a b => [tWord h 0 15 d a b]
  | .sar h d a b => [tWord h 0 16 d a b]
  | .rol h d a b => [tWord h 0 17 d a b]
  | .bfx h d a b => [tWord h 0 18 d a b]
  | .bfi h d a b => [tWord h 0 19 d a b]
  | .icmpS h n p a b => [tWord h 0 20 (n ++ p) a b]
  | .icmpN h n p a b => [tWord h 0 21 (n ++ p) a b]
  | .popc h d a => [tWord h 0 22 d a 0]
  | .clz h d a => [tWord h 0 23 d a 0]
  | .brev h d a => [tWord h 0 24 d a 0]
  | .mov h d a => [tWord h 0 25 d a 0]
  | .ladd h d a b => [tWord h 0 26 d a b]
  | .lsub h d a b => [tWord h 0 27 d a b]
  | .lmul h d a b => [tWord h 0 28 d a b]
  | .lmulhS h d a b => [tWord h 0 29 d a b]
  | .lmulhN h d a b => [tWord h 0 30 d a b]
  | .lshl h d a b => [tWord h 0 31 d a b]
  | .lshr h d a b => [tWord h 0 32 d a b]
  | .lsar h d a b => [tWord h 0 33 d a b]
  | .lcmpS h n p a b => [tWord h 0 34 (n ++ p) a b]
  | .lcmpN h n p a b => [tWord h 0 35 (n ++ p) a b]
  | .land h d a b => [tWord h 0 36 d a b]
  | .lor h d a b => [tWord h 0 37 d a b]
  | .lxor h d a b => [tWord h 0 38 d a b]
  | .lea1 h d a b => [tWord h 0 39 d a b]
  | .lea2 h d a b => [tWord h 0 40 d a b]
  | .lea4 h d a b => [tWord h 0 41 d a b]
  | .lea8 h d a b => [tWord h 0 42 d a b]
  | .fadd h d a b => [tWord h 0 43 d a b]
  | .fsub h d a b => [tWord h 0 44 d a b]
  | .fmul h d a b => [tWord h 0 45 d a b]
  | .fmac h d a b => [tWord h 0 46 d a b]
  | .fnmac h d a b => [tWord h 0 47 d a b]
  | .fmin h d a b => [tWord h 0 48 d a b]
  | .fmax h d a b => [tWord h 0 49 d a b]
  | .fcmp h n p a b => [tWord h 0 50 (n ++ p) a b]
  | .fneg h d a => [tWord h 0 51 d a 0]
  | .fabs h d a => [tWord h 0 52 d a 0]
  | .hadd2 h d a b => [tWord h 0 53 d a b]
  | .hmul2 h d a b => [tWord h 0 54 d a b]
  | .hfmac2 h d a b => [tWord h 0 55 d a b]
  | .badd2 h d a b => [tWord h 0 56 d a b]
  | .bmul2 h d a b => [tWord h 0 57 d a b]
  | .bfmac2 h d a b => [tWord h 0 58 d a b]
  | .dadd h d a b => [tWord h 0 59 d a b]
  | .dmul h d a b => [tWord h 0 60 d a b]
  | .dfmac h d a b => [tWord h 0 61 d a b]
  | .dcmp h n p a b => [tWord h 0 62 (n ++ p) a b]
  | .iaddi h d a k => [iWord h 0 d a k]
  | .andi h d a k => [iWord h 1 d a k]
  | .ori h d a k => [iWord h 2 d a k]
  | .xori h d a k => [iWord h 3 d a k]
  | .shli h d a k => [iWord h 4 d a (0#3 ++ k)]
  | .shri h d a k => [iWord h 5 d a (0#3 ++ k)]
  | .sari h d a k => [iWord h 6 d a (0#3 ++ k)]
  | .icmpiS h n p a k => [iWord h 7 (n ++ p) a k]
  | .icmpiN h n p a k => [iWord h 8 (n ++ p) a k]
  | .movi h d k => [iWord h 9 d 0 k]
  | .laddi h d a k => [iWord h 10 d a k]
  | .imuli h d a k => [iWord h 11 d a k]
  | .ldb h q d a p off => mWord h 0 q d a p off
  | .ldbs h q d a p off => mWord h 1 q d a p off
  | .ldh h q d a p off => mWord h 2 q d a p off
  | .ldhs h q d a p off => mWord h 3 q d a p off
  | .ldw h q d a p off => mWord h 4 q d a p off
  | .ldd h q d a p off => mWord h 5 q d a p off
  | .ldq h q d a p off => mWord h 6 q d a p off
  | .stb h q d a p off => mWord h 7 q d a p off
  | .sth h q d a p off => mWord h 8 q d a p off
  | .stw h q d a p off => mWord h 9 q d a p off
  | .std h q d a p off => mWord h 10 q d a p off
  | .stq h q d a p off => mWord h 11 q d a p off
  | .ldt h q d a p lit => mWord h 12 q d a p (some lit)
  | .stt h q d a p lit => mWord h 13 q d a p (some lit)
  | .atom h q d a p off => mWord h 14 q d a p off
  | .atomn h q d a p off => mWord h 15 q d a p off
  | .atomd h q d a p off => mWord h 16 q d a p off
  | .atomdn h q d a p off => mWord h 17 q d a p off
  | .atomf h q d a p off => mWord h 18 q d a p off
  | .atomfn h q d a p off => mWord h 19 q d a p off
  | .xchg h d a p off => mWord h 20 0 d a p off
  | .cas h d a p off => mWord h 21 0 d a p off
  | .casd h d a p off => mWord h 22 0 d a p off
  | .tagr h d a p off => mWord h 23 0 d a p off
  | .tags h d a p off => mWord h 24 0 d a p off
  | .pref h a p off => mWord h 25 0 0 a p off
  | .bra h o => [xbWord h 0 o]
  | .call h o => [xbWord h 1 o]
  | .brx h a => [tWord h 3 2 0 a 0]
  | .ret h => [tWord h 3 3 0 0 0]
  | .loop h d k => [xkWord h 4 d k]
  | .endF h => [tWord h 3 5 0 0 0]
  | .endJ h a => [tWord h 3 5 0 a 1]
  | .fork h d a b => [tWord h 3 6 d a b]
  | .yield h => [tWord h 3 7 0 0 0]
  | .nop h => [tWord h 3 8 0 0 0]
  | .trap h k => [xkWord h 9 0 k]
  | .rett h => [tWord h 3 10 0 0 0]
  | .rds h d i => [xkWord h 11 d (0#6 ++ i)]
  | .wrs h d i => [xkWord h 12 d (0#6 ++ i)]
  | .movl h d lit => [xkWord h 13 d 0, lit]
  | .shfl h d m k => [xkWord h 14 d (m ++ 0#3 ++ k)]
  | .bcast h d l => [xkWord h 15 d (0#5 ++ l)]
  | .vote h d a v => [tWord h 3 16 d a (v ++ 0#4)]
  | .matchL h d a => [tWord h 3 17 d a 0]
  | .red h d a o => [tWord h 3 18 d a (o ++ 0#2)]
  | .scan h d a o e => [tWord h 3 19 d a (o ++ 0#1 ++ e)]
  | .sign h k => [xkWord h 20 0 (0#7 ++ k)]
  | .marm h d a b => [tWord h 3 21 d a b]
  | .cpyq h a => [tWord h 3 22 0 a 0]
  | .bari h a b => [tWord h 3 23 0 a b]
  | .barv h d a => [tWord h 3 24 d a 0]
  | .barw h d a b => [tWord h 3 25 d a b]
  | .fence h e k scope => [xkWord h 26 0 (0#6 ++ e ++ k ++ scope)]
  | .layq h d a => [tWord h 3 27 d a 0]
  | .layadv h d a b => [tWord h 3 28 d a b]
  | .laypin h d a b => [tWord h 3 29 d a b]
  | .layacq h a => [tWord h 3 30 0 a 0]
  | .layrel h a => [tWord h 3 31 0 a 0]
  | .tgpost h d a => [tWord h 3 32 d a 0]
  | .icinv h scope => [xkWord h 33 0 (0#9 ++ scope)]
  | .idivS h d a b => [tWord h 3 34 d a b]
  | .idivN h d a b => [tWord h 3 35 d a b]
  | .iremS h d a b => [tWord h 3 36 d a b]
  | .iremN h d a b => [tWord h 3 37 d a b]
  | .fdiv h d a b => [tWord h 3 38 d a b]
  | .fsqrt h d a => [tWord h 3 39 d a 0]
  | .frcp h d a => [tWord h 3 40 d a 0]
  | .frsq h d a => [tWord h 3 41 d a 0]
  | .fexp2 h d a => [tWord h 3 42 d a 0]
  | .flog2 h d a => [tWord h 3 43 d a 0]
  | .fsinp h d a => [tWord h 3 44 d a 0]
  | .fcosp h d a => [tWord h 3 45 d a 0]
  | .ddiv h d a b => [tWord h 3 46 d a b]
  | .dsqrt h d a => [tWord h 3 47 d a 0]
  | .cvt h d a x y => [tWord h 3 48 d a (x ++ y)]
  | .narrow h d a b => [tWord h 3 49 d a b]
  | .widen h d a b => [tWord h 3 50 d a b]
  | .fclass h d a => [tWord h 3 51 d a 0]
  | .lnkq h a => [tWord h 3 52 0 a 0]
  | .carve h k => [xkWord h 53 0 (0#9 ++ k)]
  | .tlbinv h a b => [tWord h 3 54 0 a b]
  | .rdfs h d a b => [tWord h 3 55 d a b]
  | .wrfs h d a b => [tWord h 3 56 d a b]
  | .saved h => [tWord h 3 57 0 0 0]
  | .instructionFetch .. | .variableResultReturn .. | .switchMarkerResume .. | .crewMismatch ..
  | .yieldExpiry .. | .carveApply .. | .bankAccess .. | .homeRequest .. | .waitRepresent ..
  | .storeAcknowledgement .. | .l1LeaseExpiry .. | .releaseConditionMet .. | .feTimeout .. | .dequeTake ..
  | .dequeSteal .. | .preemptDecision .. | .preemptTrap .. | .restorePlacement .. | .traceSample ..
  | .trctlWrite .. | .trlostClear .. | .histogramClear .. | .eventSelectWrite .. | .counterStatusClear ..
  | .commandPost .. | .mma .. | .drain .. | .prime .. | .streamFetchReturn .. | .entryRaise ..
  | .copyJobStart .. | .jobComplete .. | .completionAction .. | .faultAnswer .. | .sideLogReplay ..
  | .rangeEntryWrite .. | .migrationStart .. | .migrationRound .. | .migrationFreeze ..
  | .migrationEndForwarding .. | .mapcommit .. | .mapApply .. | .pctlWrite .. | .pfstatClear ..
  | .registerWrite .. | .regionCreate .. | .regionDestroy .. | .monitorNotice .. | .windowEnd ..
  | .driftTile .. | .hostCxlRead .. | .hostCxlWrite .. | .sqtail .. | .cqhead .. | .qsize .. | .nodePost ..
  | .nodeLaunch .. | .nodeCopy .. | .nodeSwapIn .. | .nodeSwapEvict .. | .nodeLink .. | .nodeMarker ..
  | .nodeReservedKind .. | .nodeComplete .. | .priorityAging .. | .gangPlacement .. | .detRound ..
  | .carillonRelease .. | .modelRecordWrite .. | .modelEnable .. | .modelDisable .. | .swapInFrames ..
  | .evictionFramesReturn .. | .swapInComplete .. | .swapInFailure .. | .readSector .. | .readLine ..
  | .writeSector .. | .writeLine .. | .partialWrite .. | .scrubRead .. | .portReservedKind .. | .readData ..
  | .writeDone .. | .spareRowCopy .. | .spareChannelTakeover .. | .laneReplace .. | .clusterSpareTakeover ..
  | .powerGood .. | .mplim .. | .mshare .. | .powerThrottle .. | .thermalTrip .. | .thermalShutdown ..
  | .vfReset .. | .pfReset .. | .getMeasurements .. | .sessionOpen .. | .rekey .. | .sessionClose ..
  | .sessionLoss .. | .linkDownExpiry .. | .flitData .. | .flitAcknowledgement .. | .flitContribution ..
  | .flitControl .. | .flitReservedKind .. | .nak .. | .linkRetrain .. | .linkPut .. | .linkGet ..
  | .linkReduce .. | .putFlagFill .. | .reduceDeadline .. | .linkJobEnd .. | .cxlCacheSnoop ..
  | .linkRetrained .. | .temperatureFall .. | .hostLinkLoss .. | .clusterLost .. => []

end Sys2Proof
end

