-- ==== Sys2Proof/Config.lean ====
section
/-! DEFINITION. Sys2Proof/Config.lean: what this part fixes, and the free values the manual leaves open.
A free value is an opaque constant: no proof can know it, so a claim holds whatever it is (notes/assumptions/2.md). -/

namespace Sys2Proof.Config

/-- Crew width on this part (R7). -/
def width : Nat := 64
/-- Cores, clusters, slices, partitions, links (R6, R11). -/
def cores : Nat := 192
def clusters : Nat := 48
def partitions : Nat := 16
def links : Nat := 16
/-- Fibres a core can hold (R6). -/
def coreFibres : Nat := 1024
/-- The register file of a core (R6). -/
def coreRegs : Nat := 65536
/-- Deque entries and side-log entries of a core (R169, R243). -/
def dequeMax : Nat := 256
def sideLogMax : Nat := 256
/-- Reservation table and copy queue of a cluster (R206, R212). -/
def tableMax : Nat := 32
def copyMax : Nat := 32
def copyRunning : Nat := 4
/-- On-chip wait entries of a slice (R231). -/
def sliceWaits : Nat := 8
/-- Ways and sets of a slice (10_die_memory.md, Slices), and sets of L1 (R133). -/
def l2Ways : Nat := 16
def l2Sets : Nat := 4096
def l1Sets : Nat := 1024
/-- The set that a line lies in: the index functions of L2 and L1 are not given. -/
opaque l2Set : Nat → Nat
opaque l1Set : Nat → Nat
/-- Spare rows of a channel: how many there are is not given; the count left is read at SPAREROW (R351, R354). -/
opaque spareRows : Nat

/-- The stream of free values: the model reads it at `State.fresh` and advances that counter. -/
opaque free : Nat → Nat

/-- Staged accesses a launch can hold with a stage area of the given size (R315): the slices' capacity and the size of a
record are not given. -/
opaque stageCapacity : Nat → Nat

/-- SHA-384 of a byte string (R326, R361); the function of the standard, uninterpreted. -/
opaque sha384 : List Byte → List Byte
/-- AES-256-GCM opening: key identifier, IV, additional data, ciphertext and tag; none when the tag does not verify
(R327, R363); the function of the standard, uninterpreted. -/
opaque gcmOpen : Nat → List Byte → List Byte → List Byte → List Byte → Option (List Byte)
/-- AES-256-GCM sealing: ciphertext and tag (R363). -/
opaque gcmSeal : Nat → List Byte → List Byte → List Byte → List Byte × List Byte
/-- Whether the handshake with a peer succeeds: the partition's roots, link, endpoint, session, and the number of the handshake, each
being an exchange of its own (R365, R366). -/
opaque handshake : List Byte → Nat → Nat → Nat → Nat → Bool
/-- The key identifier and the 4-byte IV salt that a handshake derives for a direction (R365). -/
opaque sessionKey : Nat → Nat → Nat
opaque sessionSalt : Nat → Nat → BitVec 32
/-- The peer's window length exchanged in a handshake: link, endpoint, session, number of the handshake (R365, R368). -/
opaque peerWindow : Nat → Nat → Nat → Nat → Nat
/-- Bytes of a peer's window that a get or a layer source reads: partition, endpoint, session, offset, time of the read (R371, R377). -/
opaque peerByte : Nat → Nat → Nat → Nat → Nat → Byte
/-- Whether the firmware images verify, calibration and the memory fill succeed at bring-up (R353). -/
opaque bringUpOk : Nat → Nat → Bool
/-- Whether the signature policy of a partition admits the kernel of a launch (R43, R307). -/
opaque signaturePolicy : Nat → DWord → Bool
/-- The firmware and table images that GET_MEASUREMENTS digests for indices 1 to 4 (R361). -/
opaque firmware : Nat → List Byte

/-- The row of a channel that holds a sector: the size of a row is not given (R351). -/
opaque rowOf : Nat → Nat
/-- Lines a migration can copy in 1 µs (R246). -/
opaque migrateLines : Nat
/-- CRC-32 of a byte string (R363): the polynomial is not given. -/
opaque crc32 : List Byte → Nat
/-- This module's endpoint address on a link (R363). -/
opaque endpoint : Nat → Nat
/-- The layout of a flit's 216 payload bytes is not given (R363). Of a data flit: bytes carried, length of the put, and
its flag offset or all ones. -/
opaque dataInfo : List Byte → Nat × Nat × Nat
/-- Of a contribution flit: bytes carried, collective id, n, descriptor and mask. -/
opaque contributionInfo : List Byte → Nat × Nat × Nat × Nat × Nat
/-- Of an acknowledgement: the job's error. -/
opaque ackError : List Byte → Nat
/-- Of a control flit: 0 the key switch, 1 a close, 2 a request for bytes of the window, else nothing that changes this end. -/
opaque controlKind : List Byte → Nat
/-- A get request in the payload of a control flit: the byte count and the offset in the window. -/
opaque getInfo : List Byte → Nat × Nat
/-- The payload of a data flit: length of the put or get, flag offset or all ones, bytes. -/
opaque dataPayload : Nat → Nat → List Byte → List Byte
/-- Of an acknowledgement: the job's error. -/
opaque ackPayload : Nat → List Byte
/-- Of a piece of a contribution: collective id, n, descriptor, mask, bytes. -/
opaque contributionPayload : Nat → Nat → Nat → Nat → List Byte → List Byte
/-- Of a control flit: its kind. -/
opaque controlPayload : Nat → List Byte
/-- Lanes of a direction of the die bridge: their number is not given (R352). -/
opaque bridgeLanes : Nat
/-- ECDSA on brainpoolP384r1 under the security processor's key, over a digest (R361); the function of the standard, uninterpreted. -/
opaque sign : List Byte → List Byte

end Sys2Proof.Config
end

