-- ==== Sys2Proof/Machine/Ieee.lean ====
section
/-! DEFINITION. Sys2Proof/Machine/Ieee.lean: exact binary floating-point arithmetic, rounded once (R44 to R50, R115 to
R130). A finite operand is read as an exact value, a result is computed exactly (or as an integer with a sticky bit)
and rounded once to the destination format. -/

namespace Sys2Proof.Machine

/-- The rounding modes of R48. -/
inductive RMode where
  | rne | rtz | rup | rdn | rna
  deriving DecidableEq, Repr

/-- %RMODE bits [2:0]; values above 4 are not writable (R48). -/
def RMode.ofWord (w : Word) : RMode :=
  match w.toNat with
  | 0 => .rne
  | 1 => .rtz
  | 2 => .rup
  | 3 => .rdn
  | _ => .rna

/-- The flags of R50 in the layout of %EXC: inexact, underflow, overflow, divide-by-zero, invalid. -/
abbrev Flags := BitVec 5
def Flags.none : Flags := 0
def Flags.invalid : Flags := 1
def Flags.divZero : Flags := 2
def Flags.overflow : Flags := 4
def Flags.underflow : Flags := 8
def Flags.inexact : Flags := 16

/-- A binary interchange format (R44): exponent bits and fraction bits. -/
structure Fmt where
  eb : Nat
  fb : Nat
  deriving DecidableEq, Repr

def Fmt.f16 : Fmt := ⟨5, 10⟩
def Fmt.bf16 : Fmt := ⟨8, 7⟩
def Fmt.f32 : Fmt := ⟨8, 23⟩
def Fmt.f64 : Fmt := ⟨11, 52⟩

namespace Fmt
def bias (f : Fmt) : Nat := 2 ^ (f.eb - 1) - 1
/-- The exponent of the least significant bit of a subnormal. -/
def qmin (f : Fmt) : Int := 1 - (f.bias : Int) - f.fb
def signBit (f : Fmt) : Nat := 2 ^ (f.eb + f.fb)
def infBits (f : Fmt) : Nat := (2 ^ f.eb - 1) * 2 ^ f.fb
def maxBits (f : Fmt) : Nat := f.infBits - 1
/-- The canonical NaN of R44: sign 0, quiet, no other payload. -/
def nanBits (f : Fmt) : Nat := f.infBits + 2 ^ (f.fb - 1)
/-- A magnitude with a sign. -/
def signed (f : Fmt) (s : Bool) (x : Nat) : Nat := if s then f.signBit + x else x
def inf (f : Fmt) (s : Bool) : Nat := f.signed s f.infBits
def zero (f : Fmt) (s : Bool) : Nat := f.signed s 0
end Fmt

/-- What a floating-point operand is: a NaN, an infinity, or (-1)^s * m * 2^e exactly. -/
inductive FVal where
  | nan (signalling : Bool)
  | inf (s : Bool)
  | fin (s : Bool) (m : Nat) (e : Int)
  deriving DecidableEq, Repr

/-- The value of an encoding (R44, R46: subnormals at their exact values). -/
def unpack (f : Fmt) (x : Nat) : FVal :=
  let s := x / f.signBit % 2 == 1
  let ex := x / 2 ^ f.fb % 2 ^ f.eb
  let fr := x % 2 ^ f.fb
  if ex == 2 ^ f.eb - 1 then
    if fr == 0 then .inf s else .nan (fr < 2 ^ (f.fb - 1))
  else if ex == 0 then .fin s fr f.qmin
  else .fin s (2 ^ f.fb + fr) (f.qmin + (ex - 1))

def FVal.isNan : FVal → Bool
  | .nan _ => true
  | _ => false
def FVal.isSnan : FVal → Bool
  | .nan b => b
  | _ => false
def FVal.sign : FVal → Bool
  | .nan _ => false
  | .inf s => s
  | .fin s _ _ => s

/-- Number of significant bits. -/
def bitLen (n : Nat) : Nat := if n = 0 then 0 else Nat.log2 n + 1

/-- Rounds the magnitude m * 2^-sh, or a value strictly between m and m + 1 units when `st`, to an integer in mode
`rm`; the second part says whether the result differs from the value. -/
def roundShift (rm : RMode) (s : Bool) (m : Nat) (sh : Int) (st : Bool) : Nat × Bool :=
  if sh ≤ 0 then
    let q := m * 2 ^ (-sh).toNat
    let up := st && (match rm with
      | .rup => !s
      | .rdn => s
      | _ => false)
    (if up then q + 1 else q, st)
  else
    let k := sh.toNat
    let q := m / 2 ^ k
    let r := m % 2 ^ k
    let half := 2 ^ (k - 1)
    let inexact := r != 0 || st
    let up := match rm with
      | .rne => decide (half < r) || (r == half && (st || q % 2 == 1))
      | .rna => decide (half ≤ r)
      | .rtz => false
      | .rup => inexact && !s
      | .rdn => inexact && s
    (if up then q + 1 else q, inexact)

/-- Rounds (-1)^s * m * 2^e (with a sticky part below one unit of m) once to format `f` in mode `rm`, with the flags
of R50. -/
def roundTo (f : Fmt) (rm : RMode) (s : Bool) (m : Nat) (e : Int) (st : Bool) : Nat × Flags :=
  if m == 0 && !st then (f.zero s, .none)
  else
    let p := f.fb + 1
    let e1 : Int := e + bitLen m - p
    -- the result as if the exponent range were unbounded, for tininess
    let (u, _) := roundShift rm s m (e1 - e) st
    let tiny := decide (e1 < f.qmin - 1) || (decide (e1 = f.qmin - 1) && decide (u < 2 ^ p))
    let q := max e1 f.qmin
    let (r, inexact) := roundShift rm s m (q - e) st
    let bits := (q - f.qmin).toNat * 2 ^ f.fb + r
    if f.infBits ≤ bits then
      let toInf := match rm with
        | .rne => true
        | .rna => true
        | .rtz => false
        | .rup => !s
        | .rdn => s
      (f.signed s (if toInf then f.infBits else f.maxBits), .overflow ||| .inexact)
    else
      (f.signed s bits, (if inexact then .inexact else .none) ||| (if tiny && inexact then .underflow else .none))

/-- Rounds the exact integer multiple v * 2^e; `zs` is the sign of an exact zero. -/
def roundInt (f : Fmt) (rm : RMode) (v : Int) (e : Int) (zs : Bool) : Nat × Flags :=
  if v = 0 then (f.zero zs, .none) else roundTo f rm (v < 0) v.natAbs e false

/-- (-1)^s * m as an integer. -/
def signedInt (s : Bool) (m : Nat) : Int := if s then -(m : Int) else m

/-- The sign of an exact zero sum (R115): +0 in every mode but RDN, unless both operands are zeros of one sign. -/
def zeroSumSign (rm : RMode) (sa sb : Bool) : Bool :=
  if sa == sb then sa else rm == .rdn

/-- NaN result with invalid raised when `inv`. -/
def nanResult (f : Fmt) (inv : Bool) : Nat × Flags := (f.nanBits, if inv then .invalid else .none)

/-- a + b on values (R115). -/
def addVal (f : Fmt) (rm : RMode) (a b : FVal) : Nat × Flags :=
  match a, b with
  | .nan x, y => nanResult f (x || y.isSnan)
  | x, .nan y => nanResult f (x.isSnan || y)
  | .inf x, .inf y => if x == y then (f.inf x, .none) else nanResult f true
  | .inf x, .fin .. => (f.inf x, .none)
  | .fin .., .inf y => (f.inf y, .none)
  | .fin sa ma ea, .fin sb mb eb =>
    let e := min ea eb
    let v := signedInt sa (ma * 2 ^ (ea - e).toNat) + signedInt sb (mb * 2 ^ (eb - e).toNat)
    let zs := if ma == 0 && mb == 0 then zeroSumSign rm sa sb else rm == .rdn
    roundInt f rm v e zs

def FVal.neg : FVal → FVal
  | .nan b => .nan b
  | .inf s => .inf (!s)
  | .fin s m e => .fin (!s) m e

/-- The exact product, none when it is a NaN; the flag says the multiplication is invalid. -/
def mulVal (a b : FVal) : FVal × Bool :=
  match a, b with
  | .nan x, y => (.nan false, x || y.isSnan)
  | x, .nan y => (.nan false, x.isSnan || y)
  | .inf x, .inf y => (.inf (x != y), false)
  | .inf x, .fin s m _ => if m == 0 then (.nan false, true) else (.inf (x != s), false)
  | .fin s m _, .inf y => if m == 0 then (.nan false, true) else (.inf (s != y), false)
  | .fin sa ma ea, .fin sb mb eb => (.fin (sa != sb) (ma * mb) (ea + eb), false)

/-- Rounds a value that is not a NaN operand. -/
def roundVal (f : Fmt) (rm : RMode) (v : FVal) : Nat × Flags :=
  match v with
  | .nan b => nanResult f b
  | .inf s => (f.inf s, .none)
  | .fin s m e => roundTo f rm s m e false

def fAdd (f : Fmt) (rm : RMode) (a b : Nat) : Nat × Flags := addVal f rm (unpack f a) (unpack f b)
def fSub (f : Fmt) (rm : RMode) (a b : Nat) : Nat × Flags := addVal f rm (unpack f a) (unpack f b).neg
def fMul (f : Fmt) (rm : RMode) (a b : Nat) : Nat × Flags :=
  match mulVal (unpack f a) (unpack f b) with
  | (.nan _, inv) => nanResult f inv
  | (v, _) => roundVal f rm v

/-- a * b + c with one rounding (R115); 0 * infinity is invalid whatever c holds. -/
def fmaVal (f : Fmt) (rm : RMode) (a b c : FVal) : Nat × Flags :=
  match mulVal a b with
  | (.nan _, inv) => nanResult f (inv || c.isSnan)
  | (v, _) => addVal f rm v c
def fFma (f : Fmt) (rm : RMode) (a b c : Nat) : Nat × Flags := fmaVal f rm (unpack f a) (unpack f b) (unpack f c)
/-- c - a * b with one rounding. -/
def fFnma (f : Fmt) (rm : RMode) (a b c : Nat) : Nat × Flags :=
  fmaVal f rm (unpack f a).neg (unpack f b) (unpack f c)

/-- a / b on values (R123). -/
def divVal (f : Fmt) (rm : RMode) (a b : FVal) : Nat × Flags :=
  match a, b with
  | .nan x, y => nanResult f (x || y.isSnan)
  | x, .nan y => nanResult f (x.isSnan || y)
  | .inf _, .inf _ => nanResult f true
  | .inf x, .fin s _ _ => (f.inf (x != s), .none)
  | .fin s _ _, .inf y => (f.zero (s != y), .none)
  | .fin sa ma ea, .fin sb mb eb =>
    if mb == 0 then
      if ma == 0 then nanResult f true else (f.inf (sa != sb), .divZero)
    else if ma == 0 then (f.zero (sa != sb), .none)
    else
      let k := f.fb + 4 + bitLen mb
      let n := ma * 2 ^ k
      roundTo f rm (sa != sb) (n / mb) (ea - eb - k) (n % mb != 0)
def fDiv (f : Fmt) (rm : RMode) (a b : Nat) : Nat × Flags := divVal f rm (unpack f a) (unpack f b)

/-- The integer square root, found bit by bit. -/
def isqrtGo (n : Nat) : Nat → Nat → Nat
  | 0, r => if (r + 1) * (r + 1) ≤ n then r + 1 else r
  | i + 1, r =>
    let t := r + 2 ^ (i + 1)
    isqrtGo n i (if t * t ≤ n then t else r)
def isqrt (n : Nat) : Nat := isqrtGo n (bitLen n / 2 + 1) 0

/-- A square root with at least fb + 4 significant bits: integer part, exponent, sticky. -/
def sqrtParts (fb : Nat) (m : Nat) (e : Int) : Nat × Int × Bool :=
  let k := 2 * (fb + 4)
  let (m, e) := if e % 2 = 0 then (m * 2 ^ k, e - k) else (m * 2 ^ (k + 1), e - k - 1)
  let r := isqrt m
  (r, e / 2, r * r != m)

def fSqrt (f : Fmt) (rm : RMode) (a : Nat) : Nat × Flags :=
  match unpack f a with
  | .nan b => nanResult f b
  | .inf s => if s then nanResult f true else (f.inf false, .none)
  | .fin s m e =>
    if m == 0 then (f.zero s, .none)
    else if s then nanResult f true
    else
      let (r, q, st) := sqrtParts f.fb m e
      roundTo f rm false r q st

/-- 1 / a (R124). -/
def fRcp (f : Fmt) (rm : RMode) (a : Nat) : Nat × Flags := divVal f rm (.fin false 1 0) (unpack f a)

/-- 1 / sqrt a (R51, R124). -/
def fRsqrt (f : Fmt) (rm : RMode) (a : Nat) : Nat × Flags :=
  match unpack f a with
  | .nan b => nanResult f b
  | .inf s => if s then nanResult f true else (f.zero false, .none)
  | .fin s m e =>
    if m == 0 then (f.inf s, .divZero)
    else if s then nanResult f true
    else
      -- 1 / sqrt(m 2^e) = sqrt(2^(2k) / m) 2^(-k - e/2) for even e, with m doubled for odd e
      let (m, e) := if e % 2 = 0 then (m, e) else (2 * m, e - 1)
      let k := bitLen m + f.fb + 4
      let n := 2 ^ (2 * k)
      let r := isqrt (n / m)
      roundTo f rm false r (-(k : Int) - e / 2) (r * r * m != n)

/-- Comparison of two numbers that are not NaN: the sign of a - b. -/
def cmpVal (a b : FVal) : Ordering :=
  match a, b with
  | .inf x, .inf y => if x == y then .eq else if x then .lt else .gt
  | .inf x, _ => if x then .lt else .gt
  | _, .inf y => if y then .gt else .lt
  | .fin sa ma ea, .fin sb mb eb =>
    let e := min ea eb
    compare (signedInt sa (ma * 2 ^ (ea - e).toNat)) (signedInt sb (mb * 2 ^ (eb - e).toNat))
  | _, _ => .eq

/-- FMIN and FMAX (R116): a number wins over a NaN, -0 is below +0, a when they are equal. -/
def fMinMax (f : Fmt) (isMax : Bool) (a b : Nat) : Nat × Flags :=
  let x := unpack f a
  let y := unpack f b
  let fl : Flags := if x.isSnan || y.isSnan then .invalid else .none
  if x.isNan && y.isNan then (f.nanBits, fl)
  else if x.isNan then (b, fl)
  else if y.isNan then (a, fl)
  else
    let less := match cmpVal x y with
      | .lt => true
      | .gt => false
      | .eq => x.sign && !y.sign
    let greater := match cmpVal x y with
      | .gt => true
      | .lt => false
      | .eq => !x.sign && y.sign
    ((if isMax then (if less then b else a) else (if greater then b else a)), fl)

/-- FCMP and DCMP (R67, R117): the value of the first predicate of the pair, and the flags. -/
def fCompare (f : Fmt) (cond : BitVec 3) (a b : Nat) : Bool × Flags :=
  let x := unpack f a
  let y := unpack f b
  let un := x.isNan || y.isNan
  let o := cmpVal x y
  let c := cond.toNat
  let v := if un then c == 1 || c == 6 else
    match c with
    | 0 => o == .eq
    | 1 => o != .eq
    | 2 => o == .lt
    | 3 => o != .gt
    | 4 => o == .gt
    | 5 => o != .lt
    | 6 => false
    | _ => true
  let ordered := 2 ≤ c && c ≤ 5
  let inv := x.isSnan || y.isSnan || (un && ordered)
  (v, if inv then .invalid else .none)

/-- FNEG and FABS (R47, R118). -/
def fNegAbs (f : Fmt) (abs : Bool) (a : Nat) : Nat × Flags :=
  match unpack f a with
  | .nan b => nanResult f b
  | v => (f.signed (!abs && !v.sign) (a % f.signBit), .none)

/-- A floating-point value rounded to another format (R128). -/
def fConvert (src dst : Fmt) (rm : RMode) (a : Nat) : Nat × Flags := roundVal dst rm (unpack src a)

/-- A floating-point value to an integer between lo and hi (R129). -/
def fToInt (f : Fmt) (rm : RMode) (lo hi : Int) (a : Nat) : Int × Flags :=
  match unpack f a with
  | .nan _ => (0, .invalid)
  | .inf s => (if s then lo else hi, .invalid)
  | .fin s m e =>
    let (r, inexact) := roundShift rm s m (-e) false
    let i := signedInt s r
    if i < lo then (lo, .invalid)
    else if hi < i then (hi, .invalid)
    else (i, if inexact then .inexact else .none)

/-- An integer to a floating-point format (R130). -/
def intToF (f : Fmt) (rm : RMode) (v : Int) : Nat × Flags := roundInt f rm v 0 false

/-- An integer to another integer type (R130). -/
def intToInt (lo hi v : Int) : Int × Flags :=
  if v < lo then (lo, .invalid) else if hi < v then (hi, .invalid) else (v, .none)

/-- FCLASS (R119): the bit number of the class. -/
def fClassBit (f : Fmt) (a : Nat) : Nat :=
  match unpack f a with
  | .nan b => if b then 8 else 9
  | .inf s => if s then 0 else 7
  | .fin s m _ =>
    if m == 0 then (if s then 3 else 4)
    else if m < 2 ^ f.fb then (if s then 2 else 5)
    else (if s then 1 else 6)

end Sys2Proof.Machine
end

