-- ==== Sys2Proof/Machine/Narrow.lean ====
section
/-! DEFINITION. Sys2Proof/Machine/Narrow.lean: the narrow formats, their converter and block scales (R52 to R59). -/

namespace Sys2Proof.Machine

/-- A narrow descriptor's fields (R52). -/
structure Narrow where
  bias : Nat
  e : Nat
  m : Nat
  s : Bool
  special : Nat
  overflow : Nat
  deriving DecidableEq, Repr

def Narrow.ofWord (w : Word) : Narrow :=
  { bias := (w.extractLsb' 16 7).toNat, e := (w.extractLsb' 13 3).toNat, m := (w.extractLsb' 10 3).toNat,
    s := w.getLsbD 9, special := (w.extractLsb' 7 2).toNat, overflow := (w.extractLsb' 5 2).toNat }

namespace Narrow
/-- w = S + E + M. -/
def width (d : Narrow) : Nat := (if d.s then 1 else 0) + d.e + d.m

/-- Legality (R53). -/
def legalWord (x : Word) : Bool :=
  let d := ofWord x
  x.extractLsb' 23 9 == 0 && x.extractLsb' 0 5 == 0 && decide (2 ≤ d.width) && decide (d.width ≤ 8)
    && d.special != 3 && d.overflow != 3
    && (d.e != 0 || (d.special == 0 && d.overflow != 2))
    && (d.special != 0 || d.overflow != 2)
    && (d.special != 1 || (decide (2 ≤ d.e) && decide (1 ≤ d.m)))

/-- Bytes of a block of 16 elements (R55). -/
def blockBytes (d : Narrow) : Nat := 2 * d.width

/-- The sign bit's weight in a code. -/
def signBit (d : Narrow) : Nat := if d.s then 2 ^ (d.e + d.m) else 0
/-- The largest finite code without its sign, for E > 0 (R54). -/
def maxMag (d : Narrow) : Nat :=
  match d.special with
  | 1 => (2 ^ d.e - 1) * 2 ^ d.m - 1
  | 2 => 2 ^ (d.e + d.m) - 2
  | _ => 2 ^ (d.e + d.m) - 1
/-- The format's NaN (R56 step 4): none in a format without one. -/
def nanCode (d : Narrow) : Option Nat :=
  match d.special with
  | 1 => some ((2 ^ d.e - 1) * 2 ^ d.m + 2 ^ (d.m - 1))
  | 2 => some (2 ^ d.width - 1)
  | _ => none
/-- The exponent of the least significant bit of a subnormal, or of the fixed-point unit. -/
def qmin (d : Narrow) : Int := if d.e = 0 then -(d.bias : Int) else 1 - (d.bias : Int) - d.m

/-- The value of a code (R54). -/
def value (d : Narrow) (code : Nat) : FVal :=
  let c := code % 2 ^ d.width
  if d.e = 0 then
    if d.s && decide (2 ^ d.m ≤ c) then .fin true (2 ^ d.width - c) d.qmin else .fin false c d.qmin
  else
    let s := d.s && decide (d.signBit ≤ c)
    let mag := c % 2 ^ (d.e + d.m)
    let ex := mag / 2 ^ d.m
    let fr := mag % 2 ^ d.m
    if d.special == 1 && ex == 2 ^ d.e - 1 then (if fr == 0 then .inf s else .nan false)
    else if d.special == 2 && mag == 2 ^ (d.e + d.m) - 1 then .nan false
    else if ex == 0 then .fin s fr d.qmin
    else .fin s (2 ^ d.m + fr) (d.qmin + (ex - 1))

/-- A code of the format with a sign, for E > 0. -/
def signed (d : Narrow) (s : Bool) (mag : Nat) : Nat := if s then d.signBit + mag else mag

/-- A NaN operand (R56 step 4): code, saturated, flags. -/
def ofNan (d : Narrow) (signalling : Bool) : Nat × Bool × Flags :=
  match d.nanCode with
  | some c => (c, false, if signalling then .invalid else .none)
  | none => (0, true, .invalid)

/-- An overflow (R56 step 2). -/
def ofOverflow (d : Narrow) (s : Bool) : Nat × Bool × Flags :=
  let sat :=
    if d.e = 0 then (if d.s then (if s then 2 ^ d.m else 2 ^ d.m - 1) else 2 ^ d.m - 1)
    else d.signed s d.maxMag
  let code :=
    if d.overflow == 1 && d.special == 1 then d.signed s ((2 ^ d.e - 1) * 2 ^ d.m)
    else if d.overflow == 2 then d.nanCode.getD sat
    else sat
  (code, true, .overflow ||| .inexact)

/-- Narrowing of an exact value (R56): the code, whether the element counts as saturated, and the flags. In a format with E > 0 and
M = 0 a tie goes to the larger magnitude, and a tiny result raises underflow. DESIGN CHOICE: log entry 79. -/
def ofVal (d : Narrow) (v : FVal) : Nat × Bool × Flags :=
  match v with
  | .nan b => d.ofNan b
  | .inf s =>
    if s && !d.s then (0, true, .invalid)
    else if d.special == 1 then (d.signed s ((2 ^ d.e - 1) * 2 ^ d.m), false, .none)
    else d.ofOverflow s
  | .fin s m e =>
    let p := d.m + 1
    let e1 : Int := e + bitLen m - p
    let q := if d.e = 0 || m == 0 then d.qmin else max e1 d.qmin
    let (r, inexact) := roundShift .rne s m (q - e) false
    let mag := if d.e = 0 then r else (q - d.qmin).toNat * 2 ^ d.m + r
    if s && !d.s then
      if mag == 0 then
        (0, false, if inexact then (if d.e = 0 then .inexact else .underflow ||| .inexact) else .none)
      else (0, true, .invalid)
    else
      let limit := if d.e = 0 then (if s then 2 ^ d.m else 2 ^ d.m - 1) else d.maxMag
      if limit < mag then d.ofOverflow s
      else
        let (u, _) := roundShift .rne s m (e1 - e) false
        let tiny := d.e != 0 && m != 0
          && (decide (e1 < d.qmin - 1) || (decide (e1 = d.qmin - 1) && decide (u < 2 ^ p)))
        let code := if d.e = 0 then (if s && mag != 0 then 2 ^ d.width - mag else mag) else d.signed s mag
        (code, false, (if inexact then .inexact else .none) ||| (if tiny && inexact then .underflow else .none))

end Narrow

/-- x * 2^k exactly. -/
def FVal.scale (v : FVal) (k : Int) : FVal :=
  match v with
  | .fin s m e => .fin s m (e + k)
  | v => v

/-- NARROW (R131): a binary32 value to a code. -/
def narrow32 (d : Narrow) (x : Nat) : Nat × Bool × Flags := d.ofVal (unpack .f32 x)
/-- WIDEN (R57): a code to binary32, exactly. -/
def widen32 (d : Narrow) (code : Nat) : Nat := (roundVal .f32 .rne (d.value code)).1

/-- Quantising with an E8M0 block scale (R58). -/
def narrowScaled (d : Narrow) (x : Nat) (scale : Nat) : Nat × Bool :=
  let r := if scale == 255 then d.ofNan false else d.ofVal ((unpack .f32 x).scale (127 - (scale : Int)))
  (r.1, r.2.1)
/-- Widening with an E8M0 block scale, rounded once to binary32 (R58). -/
def widenScaled (d : Narrow) (code : Nat) (scale : Nat) : Nat :=
  if scale == 255 then Fmt.f32.nanBits
  else (roundVal .f32 .rne ((d.value code).scale ((scale : Int) - 127))).1

end Sys2Proof.Machine
end

