-- ==== Sys2Proof/Machine/State.lean ====
section
/-! DEFINITION. Sys2Proof/Machine/State.lean: everything the manual gives the part to hold, as plain data, and the
state right after power-good. Faults and refusals of the model stand at the end. -/

namespace Sys2Proof.Machine

/-! ### Memory (R3, R141, R227) -/

/-- Bytes and full/empty bits of every memory of the part. A key below 2^52 is a host physical address (R227); scratch
byte b of device core c has key 2^52 + 2^19 c + b. A byte not listed reads as 0 and a word (key / 8) not listed in
`empty` is full (R353 step 4, R136). -/
structure Memory where
  cells : List Host.Cell
  empty : List Nat
  deriving DecidableEq, Repr

/-! ### The fibre (R64 to R73) -/

/-- A trap as it is raised: class, cause, the PC of the raising word, the address concerned and, for class 0x04, the
enabled flags (R94, R148). -/
structure Trap where
  cls : Nat
  cause : Nat
  pc : DWord
  addr : DWord
  flags : Flags
  /-- The lane of %TINFO where it is not the lowest of the trapping band (R182). -/
  lane : Option Nat := none
  /-- Bits [31:16] of %TCAUSE of a pending trap (R176). -/
  orig : Nat := 0
  deriving DecidableEq, Repr

/-- What a system handler finds saved (R171): g0 to g7, %PRED, indices 21 to 28 and H. -/
structure Shadow where
  regs : List Word
  preds : BitVec 12
  tcause : Word
  tinfo : Word
  trappc : DWord
  tresume : DWord
  taddr : DWord
  h : Bool
  deriving DecidableEq, Repr

/-- What a fibre does once its outstanding results have returned at a switch marker (R26). -/
inductive After where
  /-- It goes on at its PC. -/
  | next
  /-- END (R81). -/
  | endF
  /-- RETT, with its PC and %TRESUME as its group read it (R22, R172). -/
  | rett (pc target : DWord)
  /-- Entry to a trap handler for a trap raised at issue, with the PC at which RETT resumes (R97, R171). -/
  | vector (t : Trap) (resume : DWord)
  deriving DecidableEq, Repr

/-- The control part of a fibre: everything but its registers and predicates. -/
structure Ctl where
  /-- PC (R14): packet address and slot. -/
  pkt : DWord
  slot : Nat
  rmode : Word
  exc : Flags
  trapen : Flags
  budget : Word
  horizon : DWord
  retired : DWord
  satcnt : Word
  tcause : Word
  tinfo : Word
  trappc : DWord
  tresume : DWord
  taddr : DWord
  /-- High halves latched by an RDS of %TIME, %RETIRED, %HORIZON (R71). -/
  latchT : Option Word
  latchR : Option Word
  latchH : Option Word
  /-- In a handler, in the system handler (R171). -/
  h : Bool
  v : Bool
  shadow : Shadow
  /-- Elect latch: address, and the word of index 70 (R165, R175). -/
  electAddr : DWord
  electWord : Word
  /-- %WBASE (R65). -/
  wbase : Nat
  /-- Traps due at the next switch marker (R99, R150). -/
  due : List Trap
  /-- Pending trap: P and index 71 (R176). -/
  pendTrap : Bool
  pendCause : Word
  /-- The model's own: the PC and the address of the trap that step 4 of R173 recorded as pending, for its %TRAPPC and %TADDR. -/
  pendAt : Option (DWord × DWord) := none
  /-- The latest completion time of the fibre's jobs that have left their engines (R160). -/
  jobsTill : Nat := 0
  /-- Pending access, withdrawn or to be presented again: A and indices 72 to 79 (R175, R176). -/
  pendAcc : Bool
  accWord : Word
  accAddr : DWord
  accExtra : Word
  accData : List Word
  after : After
  /-- The core cycle from which it may issue again, four after its last group (R76, R78). -/
  readyAt : Nat
  /-- It has issued a YIELD: the cycle at which that ends and the bands still to issue (R83). -/
  yielding : Option (Nat × List Nat)
  /-- In the save routine, SAVED issued, in the restore routine, RETT of the restore routine executed (R177, R178). -/
  saving : Bool
  saved : Bool
  restoring : Bool
  restored : Bool
  /-- Order of creation, for the oldest band (R184). -/
  born : Nat
  deriving DecidableEq, Repr

/-- A fibre slot of a resident gang. -/
structure Fibre where
  /-- The gang's identifier in `State.gangs`. -/
  gang : Nat
  /-- %FIBRE, its workgroup and its slot (R74). -/
  idx : Nat
  wg : Nat
  live : Bool
  /-- Held a fibre before (R169). -/
  used : Bool
  regs : List Word
  preds : BitVec 12
  ctl : Ctl
  deriving DecidableEq, Repr

/-- Why a band does not issue (R184). -/
inductive Park where
  | none
  /-- At a switch marker, or at a point that acts as one (R26). -/
  | marker
  /-- At a meeting instruction (R85). -/
  | meeting
  /-- At the entry to the FP-exception handler of an ALU group: the band waits for every result of every member (R98). -/
  | gather
  /-- After YIELD: the cycle at which it ends and the bands still to issue (R83). -/
  | yielded (till : Nat) (others : List Nat)
  /-- Fetch fault (R17). -/
  | fetch
  /-- SAVED issued (R177). -/
  | saved
  deriving DecidableEq, Repr

/-- A band (R75): fibres of one crew at one PC. -/
structure Band where
  bid : Nat
  gang : Nat
  crew : Nat
  /-- Indices into `State.fibres`, ascending by lane. -/
  members : List Nat
  park : Park
  deriving DecidableEq, Repr

/-! ### Issue and results (R21 to R26) -/

/-- What a word of the group asks for at the end of the group. -/
inductive Req where
  /-- Flags raised by an ALU word (R98, R103). -/
  | flags (pc : DWord) (f : Flags)
  /-- A control transfer to a byte address (R15, R16). -/
  | jump (pc : DWord) (target : DWord)
  /-- TRAP (R172) or another trap taken after the group's words. -/
  | trap (t : Trap)
  | endF (pc : DWord)
  | rett (pc target : DWord)
  | yielded
  | savedF
  deriving DecidableEq, Repr

/-- The issue group in progress; `lanes` is empty when none is. -/
structure Issue where
  gang : Nat
  core : Nat
  crew : Nat
  lanes : List Nat
  pkt : DWord
  words : List Word
  slot : Nat
  first : Nat
  /-- The fibres as they stood before the group (R22). -/
  src : List (Nat × Fibre)
  reqs : List (Nat × Req)
  marker : Bool
  meeting : Bool
  deriving DecidableEq, Repr

/-- A variable-latency result that has not arrived (R25). -/
structure Result where
  id : Nat
  fibre : Nat
  pc : DWord
  /-- XU pipe: delivered in issue order (R126). -/
  xu : Bool
  /-- A value from memory ("load outstanding", R184). -/
  mem : Bool
  writes : List (Nat × Word)
  /-- Predicate pair number and its first predicate's value (R67). -/
  preds : List (Nat × Bool × Bool)
  flags : Flags
  /-- A trap due at the switch marker, recorded when the result arrives. -/
  trap : Option Trap
  /-- The XU word it comes from, in order of issue, and the fibres of the band that issued it (R126). -/
  batch : Nat := 0
  lanes : List Nat := []
  deriving DecidableEq, Repr

/-- The F/E forms of R141. -/
inductive Form where
  | plain | waiting | consuming | filling | forceFill | forceEmpty
  deriving DecidableEq, Repr

/-- Operations of the atomic class (R153, R156). -/
inductive Rmw where
  | add | minS | minN | maxS | maxN | and | or | xor | fadd | fmin | fmax | swap
  /-- CAS and CASD with the expected value. -/
  | cas (expected : Nat)
  deriving DecidableEq, Repr

/-- What an access, posting or fence does at its place. -/
inductive AOp where
  | load (size : Nat) (sx : Bool) (form : Form)
  | store (size : Nat) (form : Form) (data : Nat)
  | rmw (size : Nat) (f : Rmw) (operand : Nat) (ret : Bool)
  | tagr
  | tags (full : Bool)
  | pref
  /-- LDT and STT: the coordinates as read at issue, and whether a coordinate register lies beyond the window. -/
  | ldt (form : Form) (coords : List Word) (window : Nat) (oddD : Bool)
  | stt (form : Form) (coords : List Word) (window : Nat) (oddD : Bool) (data : Nat)
  /-- END.J's decrement (R82). -/
  | dec
  | bari (v : Word)
  | barv
  | barw (wanted : Nat)
  | layq
  | layadv (advice : DWord)
  | laypin (request : DWord)
  | layacq
  | layrel
  | fence (eng : Bool) (kind : Nat) (scope : Nat)
  | marm (k : Nat) (count : Word)
  | sign (k : Nat)
  | cpyq
  | tgpost
  | lnkq
  | icinv (scope : Nat)
  | tlbinv (sel : Word)
  | fork (entry : DWord) (arg : DWord)
  deriving DecidableEq, Repr

/-- The place of an access once its address is resolved (R276): the keys of its bytes, where in them the value lies, the
memory words whose full/empty bits it covers, the element it is with its own bit, and the page attribute. -/
structure Loc where
  keys : List Nat
  off : Nat
  width : Nat
  words : List Nat
  /-- Region, linear index, and the byte key and bit number of the element's full/empty bit. -/
  elem : Option (Nat × Nat × Option (Nat × Nat))
  /-- 0 cacheable, 1 write-combining, 2 uncached (R234). -/
  attr : Nat
  deriving DecidableEq, Repr

/-- Where an access stands. -/
inductive Phase where
  /-- Issued, and not yet presented or not yet performed at its place. -/
  | issued
  /-- In a wait list: arrival stamp; `parked` when its record lies in the park area (R231). -/
  | waiting (stamp : Nat) (parked : Bool)
  /-- Refused by a full slice, to be presented again (R231). -/
  | refused
  /-- Held by a translation fault (R242). -/
  | held
  /-- Performed, the acknowledgement with its completion time under way (R139). -/
  | performed (ctime : Nat)
  /-- Withdrawn by a pre-emption (R145, R173): it stands in its fibre's record, or, where that holds another access, is kept to
  be presented after that one once the gang runs again. -/
  | kept (recorded : Bool)
  deriving DecidableEq, Repr

/-- An access, posting or fence of a fibre that is not yet finished. -/
structure Access where
  /-- Identifiers ascend in program order (R151, R339). -/
  id : Nat
  /-- Accesses of the lanes of one word share a batch (R151, R155). -/
  batch : Nat
  fibre : Nat
  gang : Nat
  core : Nat
  pc : DWord
  word : Word
  /-- The first destination register. -/
  dst : Nat
  addr : DWord
  op : AOp
  policy : Nat
  /-- Budget read at issue (R144), and the time of the first presentation. -/
  budget : Nat
  arrived : Option Nat
  /-- Its place, once the place has accepted it. -/
  loc : Option Loc := none
  phase : Phase
  /-- The release condition has been met (R149). -/
  released : Bool
  /-- It has sent its notice to its region's monitor (R262). -/
  noticed : Bool := false
  /-- TLBINV: the waiting accesses already translated with a removed entry (R240). -/
  users : List Nat := []
  /-- Issued while the fibre's V was 1 (R322). -/
  sys : Bool := false
  /-- CPYQ: the snapshot of its card, while it waits for room in the copy queue (R212). -/
  card : Option (List Byte) := none
  deriving DecidableEq, Repr

/-- A side-log entry (R243): an access waiting for its page. -/
structure LogEntry where
  acc : Access
  ctx : Nat
  asid : Nat
  /-- The fault has been answered as mapped. -/
  answered : Bool
  deriving DecidableEq, Repr

/-! ### The core (R133 to R187) -/

/-- A fetched packet (R17). -/
structure FetchCopy where
  ctx : Nat
  sys : Bool
  pkt : DWord
  words : List Word
  deriving DecidableEq, Repr

/-- A deque entry (R168). -/
structure DequeEntry where
  entry : DWord
  arg : DWord
  join : DWord
  deriving DecidableEq, Repr

/-- An L1 line (R138): 64 bytes, the eight F/E bits and the lease expiry. -/
structure L1Line where
  core : Nat
  line : Nat
  /-- Its way of its set (R133). -/
  way : Nat
  data : List Byte
  full : List Bool
  expiry : Nat
  deriving DecidableEq, Repr

/-- A trace record (R183): its access identifier, entry index, bytes, and completion time once performed. -/
structure TraceRec where
  id : Nat
  index : Nat
  data : List Byte
  ctime : Option Nat
  deriving DecidableEq, Repr

structure CoreSt where
  /-- Scratch size in units of 64 KiB, and a pending CARVE value (R133, R134). -/
  carve : Nat
  pendCarve : Option Nat
  fetch : List FetchCopy
  /-- Deque slots counted from the tail, and the entry count (R169, R175). -/
  dq : List DequeEntry
  dqCount : Nat
  /-- The core last stolen from (R169). -/
  stole : Nat
  /-- Rotation pointer: crew and lane (R175, R314). -/
  rotCrew : Nat
  rotLane : Nat
  /-- Breakpoint comparators: words 0 and 1 (R180). -/
  comps : List (DWord × DWord)
  /-- The seven buckets and ten reasons (R184, R185). -/
  hist : List Nat
  /-- Event counters, selectors as written, muted selectors, and the status word (R186, R187). -/
  counters : List Nat
  selectors : List DWord
  muted : List Bool
  ctrStatus : DWord
  trctl : DWord
  trbase : DWord
  trsize : DWord
  trhead : Nat
  trtail : Nat
  trlost : Nat
  /-- Trace records on their way to the ring, oldest first (R183). -/
  trq : List TraceRec
  /-- Core cycles run, and cycles since the last sample (R183, R356). -/
  cycle : Nat
  sinceSample : Nat
  /-- Whether a group issued in the current cycle: its lowest lane's fibre and its PC (R78, R183). -/
  issued : Option (Nat × DWord)
  deriving DecidableEq, Repr

/-! ### The cluster (R188 to R224) -/

/-- A sign register of a gang (R190). -/
structure SignReg where
  armed : Bool
  remaining : Nat
  card : List Byte
  arming : Nat
  /-- The MARM's access, for the order against FENCE with eng (R224). -/
  armId : Nat := 0
  deriving DecidableEq, Repr

/-- What an engine job is. -/
inductive JobKind where
  | matrix | copy
  deriving DecidableEq, Repr

inductive JobPhase where
  /-- A matrix command whose count reached zero, waiting for a table entry (R192). -/
  | counted
  /-- In the reservation table or the copy queue, not started. -/
  | queued
  /-- Granted, or moving data. -/
  | running
  /-- Its last write is performed; waiting for time to pass the completion time (R209). -/
  | complete
  deriving DecidableEq, Repr

/-- A matrix command or copy job (R192, R212). -/
structure Job where
  id : Nat
  kind : JobKind
  cluster : Nat
  part : Nat
  ctx : Nat
  /-- The posting gang; none for a kind-1 node (R301). -/
  gang : Option Nat
  node : Option Nat
  fibre : Option Nat
  wg : Nat
  prio : Nat
  card : List Byte
  phase : JobPhase
  /-- Passes done, or elements moved. -/
  pos : Nat
  /-- Streamed passes whose operand has arrived (R203). -/
  fetched : Nat
  /-- The streamed operand that has arrived and is not used yet: for each pass, the code and scale of every element, by k and
  within each k by n (R203). -/
  stream : List (List (Nat × Nat)) := []
  /-- Stalled by a translation fault (R203, R242). -/
  stalled : Bool
  sat : Nat
  flags : Flags
  error : Nat
  ctime : Nat
  /-- Cluster cycle of the posting or of the last grant, and the order in which it was raised (R206). -/
  since : Nat
  raised : Option Nat
  /-- The fibre whose SIGN posted it (R339). -/
  signer : Option Nat := none
  /-- The CPYQ or MARM it comes from, for the order against FENCE with eng (R224). -/
  post : Nat := 0
  deriving DecidableEq, Repr

structure ClusterSt where
  /-- Clock in MHz (R356). -/
  mhz : Nat
  /-- The cluster works; spares in use are counted per die. -/
  present : Bool
  cycle : Nat
  /-- Fraction of a cycle, in units of 1/1000. -/
  frac : Nat
  /-- Cluster cycle from which the matrix engine may grant again, and per-bank busy times are in the gang. -/
  grantAt : Nat
  /-- Times of uncorrectable SRAM events within the last second (R350). -/
  sramEvents : List Nat
  deriving DecidableEq, Repr

/-! ### Gangs, launches and nodes (R188, R300 to R322) -/

inductive GangPhase where
  | waiting
  | resident
  /-- Step 1 of R173: no new group but those of the system handler, and of the round under way (R322). -/
  | preempting
  /-- Steps 2 and 3 of R173: waits withdrawn, the rest returning. -/
  | draining
  | saving
  | saved
  | restoring
  | ended
  deriving DecidableEq, Repr

/-- A staged access of a deterministic gang (R315): home address, and what it does. -/
structure Staged where
  addr : Nat
  op : AOp
  /-- For a store-class write: bytes written, and the bit of each 8-byte word it leaves. -/
  bytes : List (Nat × Byte)
  bits : List (Nat × Bool)
  /-- The attribute of its page, and its P field (R140). -/
  attr : Nat := 0
  policy : Nat := 0
  deriving DecidableEq, Repr

structure Gang where
  id : Nat
  part : Nat
  ctx : Nat
  /-- Identifier of the launch in `State.launches`. -/
  launch : Nat
  index : Nat
  gangs : Nat
  prio : Nat
  det : Bool
  forkable : Bool
  size : Nat
  regs : Nat
  scratch : Nat
  accum : Nat
  signCount : Nat
  slots : Nat
  liveCount : Nat
  codeBase : DWord
  packets : Nat
  handler : DWord
  safePoints : List (Nat × Nat)
  /-- Group table: id, first, count, stride (R167). -/
  groups : List (Nat × Nat × Nat × Nat)
  args : List Word
  phase : GangPhase
  /-- Device cluster, base core within it, and scratch base per workgroup. -/
  cluster : Nat
  base : Nat
  scratchBase : List Nat
  placedAt : Nat
  waitSince : Nat
  saveBlock : Option Nat
  banks : List (List Word)
  /-- Cluster cycle until which each bank is busy (R207). -/
  bankBusy : List Nat
  signs : List SignReg
  /-- Saved slots: live slots at SAVED (R178). -/
  savedLive : List Nat
  staged : List Staged
  stagedPosts : List (List Byte)
  released : Bool
  /-- A deterministic round is open, with the cores that have taken their turn (R314). -/
  round : Nat
  turns : List Nat
  /-- What this gang frees is reserved for this launch's gang of this index (R311). -/
  reservedFor : Option (Nat × Nat) := none
  deriving DecidableEq, Repr

/-- What a victim that is placed again elsewhere leaves reserved for the gang it was pre-empted for (R311): its needs and place, and
the register-file base of each of its workgroups. -/
structure Reserve where
  gang : Gang
  bases : List Nat
  deriving DecidableEq, Repr

/-- What a launch keeps while it runs (R319, R320, R332). -/
structure Launch where
  id : Nat
  part : Nat
  node : Nat
  ctx : Nat
  gangCount : Nat
  det : Bool
  /-- Hold table: model, layer, count. -/
  holds : List (Nat × Nat × Nat)
  detx : Bool
  deta : Bool
  deto : Bool
  error : Nat
  /-- Tracking: line, gang, read, written, atomic words staged. -/
  track : List (Nat × Nat × Bool × Bool)
  atoms : List (Nat × Nat)
  /-- Index of the next gang to place, what a gang of the launch is before placement, packet of the entry, fibres live at
  launch per workgroup (R306, R307). -/
  next : Nat
  proto : Gang
  entry : Nat
  /-- Latest completion time of its writes (R303). -/
  ctime : Nat
  deriving DecidableEq, Repr

inductive NodePhase where
  /-- Posted: its counter is above zero. -/
  | posted
  | ready
  | dispatched
  /-- Its work ended with this error and result (R303 step 1). -/
  | ended (error : Nat) (result : Nat)
  deriving DecidableEq, Repr

/-- A posted node (R300). -/
structure Node where
  kind : Nat
  prio : Nat
  tag : DWord
  payload : DWord
  caddr : DWord
  succ : List Nat
  cq : Bool
  queue : Option Nat
  ctx : Nat
  phase : NodePhase
  readyAt : Nat
  waitSince : Nat
  /-- Milliseconds of waiting already credited (R308). -/
  aged : Nat
  ctime : Nat
  /-- DETX, DETA, DETO of a launch. -/
  det : Nat
  deriving DecidableEq, Repr

/-- A slot of a node table (R302). -/
structure NodeSlot where
  n : Nat
  counter : Int
  poison : Bool
  node : Option Node
  deriving DecidableEq, Repr

/-! ### Contexts and translation (R233 to R247, R296) -/

/-- A tensor region's layout (R260, R261): orders from the innermost, and log2 tile extents. -/
structure Layout where
  inner : List Nat
  outer : List Nat
  tile : List Nat
  deriving DecidableEq, Repr

inductive RegionState where
  | settled | moving | pinned | held
  deriving DecidableEq, Repr

/-- A tensor region with its layout record and monitor (R253 to R273). -/
structure Region where
  id : Nat
  part : Nat
  ctx : Nat
  index : Nat
  check : Nat
  side : DWord
  base : DWord
  size : DWord
  extents : List Nat
  format : Word
  block : Nat
  policy : Nat
  dims : Nat
  /-- Which copy is current. -/
  copy : Nat
  cur : Layout
  target : Option Layout
  pending : Option Layout
  /-- Tiles of the target already moved. -/
  tileK : Nat
  state : RegionState
  count : Nat
  h : Nat
  left : Nat
  /-- State and left to take when the moves end. -/
  endState : RegionState
  endLeft : Nat
  pinned : Bool
  /-- Gang entries, most recently used first: gang and coordinates. -/
  entries : List (Nat × List Word)
  scores : List Nat
  wcount : Nat
  window : Nat
  nextWindow : Nat
  refusedAdvice : DWord
  /-- Notices presented and not yet taken: gang and coordinates (R262). -/
  notices : List (Nat × List Word)
  /-- Named by a layer of an enabled model, and its frames while resident (R329). -/
  pooled : Bool
  frames : List Nat
  /-- The reference of the layer that names it (R330). -/
  layerRef : DWord := 0
  /-- A pooled region whose layer is absent (R329). -/
  absent : Bool := false
  deriving DecidableEq, Repr

/-- An outstanding page request (R244). -/
structure PageRequest where
  number : Nat
  range : Nat
  cause : Nat
  deriving DecidableEq, Repr

/-- A context (R233, R296). -/
structure Context where
  id : Nat
  part : Nat
  ctxid : Nat
  gen : Nat
  asid : Nat
  asidGen : Nat
  root : Nat
  fqBase : DWord
  fqSize : Nat
  fqTail : Nat
  /-- Records of the fault queue that have no layout in the manual: kind and value. 1 trap in the system handler, 2 failed
  answer, 3 state lost, 4 job error, 5 write lost, 6 frame retired, 7 event selection, 8 swap failure, 9 cluster lost,
  10 session lost or link-job error. -/
  fatal : List (Nat × Nat)
  live : Bool
  nextRequest : Nat
  requests : List PageRequest
  /-- Check last used at each region index that was used (R258). -/
  checks : List (Nat × Nat)
  deriving DecidableEq, Repr

/-- A cached translation (R236). -/
structure TlbEntry where
  part : Nat
  asid : Nat
  gen : Nat
  va : Nat
  size : Nat
  gpa : Nat
  perm : Nat
  attr : Nat
  tensor : Bool
  deriving DecidableEq, Repr

/-- A walk-cache entry: a table pointer that a walk has read, with the virtual range it covers and the table it leads to
(R236). -/
structure WalkEntry where
  part : Nat
  asid : Nat
  gen : Nat
  va : Nat
  size : Nat
  level : Nat
  table : Nat
  deriving DecidableEq, Repr

/-- A device write to host memory that the host does not see yet: its fibre, partition and node, and the time from which the
host sees it (R160, R293, R303). -/
structure HostWrite where
  fibre : Option Nat
  part : Nat
  node : Option Nat
  till : Nat
  deriving DecidableEq, Repr

/-- A stage-2 range entry (R237): four 64-bit words as written, and the bytes held before the last is written. -/
structure RangeEntry where
  base : DWord
  limit : DWord
  offset : DWord
  control : DWord
  deriving DecidableEq, Repr

/-! ### Models (R325 to R336) -/

structure ModelRec where
  table : DWord
  layers : Nat
  prio : Nat
  enabled : Bool
  gen : Nat
  context : DWord
  /-- Control bits [7:1] and bytes [31:24] as written; an enable needs both 0. -/
  ctl : Nat
  rest : DWord
  /-- The context found for the model when it was enabled, and a disable accepted while a swap-in is in flight. -/
  cid : Nat := 0
  disabling : Bool := false
  deriving DecidableEq, Repr

/-- Front bookkeeping of a layer of an enabled model: frames held, and when its hold count last became 0 (R334). -/
structure LayerSt where
  model : Nat
  layer : Nat
  frames : List Nat
  /-- When its hold count last became 0, or, for a layer never held, its last swap-in (R334). -/
  zeroAt : Nat
  /-- It has been held since the model was enabled. -/
  wasHeld : Bool
  /-- Frames of its evictions that have not returned yet (R335). -/
  leaving : List Nat
  deriving DecidableEq, Repr

structure Swap where
  id : Nat
  model : Nat
  layer : Nat
  nodes : List Nat
  /-- 0 waiting for frames, 1 reading, 2 written, 3 failed. -/
  stage : Nat
  frames : List Nat
  ctime : Nat
  cause : Nat
  /-- The 64 KiB range of its context on which its source read has faulted (R333). -/
  stallRange : Option (Nat × Nat) := none
  deriving DecidableEq, Repr

/-! ### Partitions (R295, R359) -/

/-- A queue pair (R295). -/
structure Queue where
  base : DWord
  ctx : DWord
  cqbase : DWord
  size : DWord
  sqtail : Nat
  sqhead : Nat
  cqhead : Nat
  cqtail : Nat
  phase : Bool
  deriving DecidableEq, Repr

/-- A session of a partition (R365 to R368). -/
structure Session where
  n : Nat
  link : Nat
  peer : Nat
  base : Nat
  len : Nat
  peerLen : Nat
  isOpen : Bool
  txKey : Nat
  rxKey : Nat
  txCount : Nat
  rxCount : Nat
  txSalt : BitVec 32
  rxSalt : BitVec 32
  /-- Keys derived by a rekey and not yet switched to (R366). -/
  newTx : Option Nat
  newRx : Option Nat
  attempts : Nat
  /-- Pieces of contributions that no reduce of this member has taken yet: offset, payload and time of arrival (R373). -/
  early : List (Nat × List Byte × Nat) := []
  /-- Collective ids of ended reduces that the peer's contribution missed: what is left of it is dropped (R373). -/
  late : List Nat := []
  deriving DecidableEq, Repr

structure Part where
  /-- The certificate roots that the hypervisor has installed (R365): no register and no event of this part's table installs them.
  DESIGN CHOICE: log entry 85. -/
  roots : List Byte := []
  enabled : Bool
  lease : Nat
  /-- Base and size registers: park, stage, track, save (R359). -/
  parkBase : DWord
  parkSize : DWord
  stageBase : DWord
  stageSize : DWord
  trackBase : DWord
  trackSize : DWord
  saveBase : DWord
  saveSize : DWord
  saveBlk : DWord
  syscode : DWord
  sysEntry : DWord
  saveEntry : DWord
  restoreEntry : DWord
  poolBase : DWord
  poolLen : DWord
  hwBase : DWord
  hwLimit : DWord
  evAllow : BitVec 256
  evTrap : BitVec 256
  ranges : List RangeEntry
  held : List RangeEntry
  mshare : Nat
  queues : List Queue
  nodes : List NodeSlot
  intake : List (List Byte × Nat)
  models : List ModelRec
  layers : List LayerSt
  swaps : List Swap
  poolFree : List Nat
  sessions : List Session
  retired : List Nat
  retiredOvf : Bool
  /-- The virtual function's status: a model-record write was refused (R325). -/
  vfRefused : Bool
  clockMhz : Nat
  deriving DecidableEq, Repr

/-! ### Slices, stacks and migrations (R227 to R232, R246, R342 to R352) -/

/-- A line held in its home slice: which bytes are valid and which differ from memory (R228, R344). -/
structure L2Line where
  line : Nat
  /-- Its slice. -/
  slice : Nat
  valid : List Bool
  dirty : List Bool
  retain : Bool
  /-- The full/empty bits of its words that differ from memory (R344). -/
  feDirty : List Bool := List.replicate 8 false
  /-- The context whose write it last took (R344). -/
  ctx : Option Nat := none
  /-- The access under evict-first that brought it in is still to be performed: that access does not count as a use (R228). -/
  entering : Bool := false
  /-- Held for one uncached access: it takes no way of its set (R140). -/
  buffer : Bool := false
  deriving DecidableEq, Repr

inductive PortKind where
  | readSector | readLine | writeSector | writeLine | partialWrite | scrub
  deriving DecidableEq, Repr

/-- A request of a slice to a channel port, with its tag in use (R342, R343). -/
structure PortReq where
  kind : PortKind
  ch : Nat := 0
  tag : Nat := 0
  sector : Nat := 0
  /-- A partial write: which of the 32 bytes and of the four full/empty bits it writes. -/
  mask : List Bool := []
  feMask : List Bool := []
  /-- A write: its data bytes, and the full/empty bits that travel with them. -/
  data : List Byte := []
  feVals : List Bool := []
  /-- The context whose write it is (R344). -/
  ctx : Option Nat := none
  /-- A read: how the line enters its set: 0 normal, 1 evict-first, 2 retain, 3 not at all (R140). -/
  policy : Nat := 0
  /-- Performed by the base die; the status of the lower and the upper sector. -/
  done : Bool := false
  status : Nat × Nat := (0, 0)
  deriving DecidableEq, Repr

/-- What a soft error has struck (R346): a word with a double-bit error, or a single bit. -/
inductive SramWord where
  | reg (fibre : Nat) (r : Nat)
  | scratch (word : Nat)
  | l2 (word : Nat)
  | l1 (core line : Nat)
  | tlb (part asid va : Nat)
  /-- An entry of a wait list, a side log, or a reservation table: the access or job it holds. -/
  | entry (id : Nat)
  /-- A single-bit error of a core's cluster, a slice or the front: corrected and counted. -/
  | single
  deriving DecidableEq, Repr

inductive MigPhase where
  | round (k : Nat)
  | forwarding
  deriving DecidableEq, Repr

/-- A migration (R246). -/
structure Migration where
  id : Nat
  part : Nat
  old : Nat
  new : Nat
  size : Nat
  bitmap : Nat
  checkpoint : Bool
  phase : MigPhase
  deriving DecidableEq, Repr

/-! ### Links (R362 to R375) -/

structure Link where
  up : Bool
  retraining : Bool
  downSince : Nat
  /-- Physical lanes: failed ones, and whether the spare is in use (R352). -/
  failedLane : Option Nat
  txSeq : Nat
  rxSeq : Nat
  /-- Replay buffer: sequence and flit (R364). -/
  replay : List (Nat × List Byte)
  resends : Nat
  /-- Flits were sent again since the last acknowledgement, so that the next NAK is of a failed resend. -/
  resent : Bool := false
  errors : Nat
  /-- The sequence named by the last NAK returned (R364). -/
  nakOut : Option Nat := none
  deriving DecidableEq, Repr

inductive LinkKind where
  | put | get | reduce
  deriving DecidableEq, Repr

structure LinkJob where
  id : Nat
  part : Nat
  ctx : Nat
  gang : Option Nat
  fibre : Option Nat
  node : Option Nat
  kind : LinkKind
  session : Nat
  card : List Byte
  members : List Byte
  deadline : Nat
  /-- 0 queued, 1 sent or reading, 2 ended, 3 ended and its mask written. -/
  stage : Nat
  arrived : List Nat
  /-- Ranks whose whole contribution of this collective id came and was excluded (R373). -/
  excluded : List Nat
  error : Nat
  sat : Nat
  mask : Nat
  ctime : Nat
  /-- Bytes of a put already sent. -/
  pos : Nat := 0
  /-- Of a reduce: flits sent to each rank, and bytes of each rank's contribution taken (R372, R373). -/
  sent : List (Nat × Nat) := []
  got : List (Nat × Nat) := []
  /-- The workgroup of the poster, for scratch addresses. -/
  wg : Nat := 0
  /-- The LNKQ it comes from, for the order against FENCE with eng (R160). -/
  post : Nat := 0
  /-- The puts of a checkpoint to a peer (R376): no card was posted, and the lines still to send are held here. -/
  checkpoint : Bool := false
  lines : List (Nat × List Byte) := []
  deriving DecidableEq, Repr

/-- A put of the peer into a local window: bytes written, the flag to fill (R371). -/
structure RemotePut where
  id : Nat
  part : Nat
  session : Nat
  job : Nat
  flag : Option Nat
  n : Nat
  ctime : Nat
  /-- Bytes arrived. -/
  got : Nat := 0
  /-- Some of its bytes lay outside the window (R374). -/
  breach : Bool := false
  /-- Its flag is filled, and the acknowledgement has still to leave. -/
  filled : Bool := false
  deriving DecidableEq, Repr

/-- A record written to the hypervisor's queue: kind and value. -/
structure HvRecord where
  kind : Nat
  part : Nat
  value : Nat
  deriving DecidableEq, Repr

/-! ### The physical function (R353 to R359) -/

structure Pf where
  netmap : List (BitVec 8)
  bridgemap : List (BitVec 8)
  netLive : List (BitVec 8)
  bridgeLive : List (BitVec 8)
  commit : Bool
  commitAt : Nat
  hostmap : List (BitVec 8)
  sgown : List (BitVec 8)
  linkown : List (BitVec 8)
  clown : List (BitVec 8)
  pfstat : DWord
  hqBase : DWord
  hqSize : DWord
  hqHead : Nat
  hqTail : Nat
  records : List HvRecord
  /-- Module status: step, READY, FAIL, fail code, THERM, spares in use per die (R355). -/
  step : Nat
  ready : Bool
  fail : Bool
  failCode : Nat
  therm : Bool
  tripAt : Option Nat
  spares : Nat × Nat
  mplim : Nat
  mpwr : Nat
  eccHbm : Nat
  eccSram : Nat
  eccLost : Nat
  /-- Spare rows in use, per channel (R351). -/
  rowsUsed : List Nat
  /-- Spare channel in use per stack (R351). -/
  spareChannel : List Bool
  /-- Lanes of the die bridge that a spare has taken over: direction and lane (R352). -/
  bridgeSpares : List (Nat × Nat) := []
  portErrors : Nat
  hostLink : Bool
  powered : Bool
  /-- Attestation digests taken at READY, and the last reply (R361). -/
  measures : List (List Byte)
  reply : List Byte
  /-- The signature that went with it (R361). -/
  signature : List Byte := []
  deriving DecidableEq, Repr

/-! ### The whole module -/

structure State where
  /-- Device time in ticks of 1 ns (R9). -/
  time : Nat
  /-- The model's own counters: identifiers given, and free values used. -/
  nextId : Nat
  fresh : Nat
  mem : Memory
  issue : Issue
  fibres : List Fibre
  bands : List Band
  results : List Result
  accesses : List Access
  sideLog : List LogEntry
  cores : List CoreSt
  clusters : List ClusterSt
  l1 : List L1Line
  gangs : List Gang
  reserves : List Reserve := []
  launches : List Launch
  jobs : List Job
  parts : List Part
  contexts : List Context
  regions : List Region
  tlb : List TlbEntry
  /-- Table pointers in walk caches, and the model's own free value that says which of the cached entries, or a walk of its own, the
  next translations use (R236). -/
  walks : List WalkEntry
  tlbPick : Nat
  /-- Lease expiries granted by the homes, by line (R138, R139). -/
  leases : List (Nat × Nat)
  /-- Stamp counter of each slice (R230). -/
  stamps : List Nat
  /-- Last request performed by each slice: peal round and order key (R229); by each bank: tick and key (R137). -/
  sliceLast : List (Nat × Nat)
  bankLast : List (Nat × Nat)
  /-- Lines in the slices, the least recently used first (R228). -/
  l2 : List L2Line
  ports : List PortReq
  /-- Sectors with symbols in error, by device sector (address / 32) and count (R345). -/
  badSectors : List (Nat × Nat)
  /-- Corrections needed per row within this scrub pass (R351). -/
  rowFixes : List (Nat × Nat)
  sram : List SramWord
  poison : List Nat
  /-- The context that last performed a translated access in a 64 KiB frame of device memory (R349). -/
  frameCtx : List (Nat × Nat)
  migrations : List Migration
  links : List Link
  linkJobs : List LinkJob
  remotePuts : List RemotePut
  /-- Device writes to host memory that the host may not see yet (R160). -/
  hostVisible : List HostWrite
  /-- Host CXL.mem writes waiting for leases to pass before they are acknowledged (R293). -/
  hostAcks : List Nat
  /-- The bytes that the last host read of device memory returned (R293). -/
  hostReply : List Byte
  /-- The model's own: a request of the event under way wants a tag of a port that has none free, so that the event does not take place
  (R343); false between steps. DESIGN CHOICE: log entry 84. -/
  portWait : Bool := false
  pf : Pf
  /-- Events that reach the part from outside, in order of arrival. -/
  inputs : List Instr
  deriving DecidableEq, Repr

/-! ### Initial values -/

def Shadow.zero : Shadow :=
  { regs := List.replicate 8 0, preds := 0, tcause := 0, tinfo := 0, trappc := 0, tresume := 0, taddr := 0, h := false }

/-- A fibre's control state at creation (R68). -/
def Ctl.created (pkt : DWord) (slot wbase born : Nat) : Ctl :=
  { pkt := pkt, slot := slot, rmode := 0, exc := 0, trapen := 0, budget := 0x01000000, horizon := 0, retired := 0
    satcnt := 0, tcause := 0, tinfo := 0, trappc := 0, tresume := 0, taddr := 0
    latchT := none, latchR := none, latchH := none, h := false, v := false, shadow := .zero
    electAddr := 0, electWord := 0, wbase := wbase, due := [], pendTrap := false, pendCause := 0, pendAcc := false
    accWord := 0, accAddr := 0, accExtra := 0, accData := [0, 0, 0, 0], after := .next
    readyAt := 0, yielding := none, saving := false, saved := false, restoring := false, restored := false, born := born }

def Issue.idle : Issue :=
  { gang := 0, core := 0, crew := 0, lanes := [], pkt := 0, words := [], slot := 0, first := 0, src := [], reqs := []
    marker := false, meeting := false }

/-- A core after power-good: scratch size 4 (R133). DESIGN CHOICE: log entry 6. -/
def CoreSt.initial : CoreSt :=
  { carve := 4, pendCarve := none, fetch := [], dq := [], dqCount := 0, stole := 0, rotCrew := 0, rotLane := 0
    comps := List.replicate 8 (0, 0), hist := List.replicate 17 0, counters := List.replicate 8 0
    selectors := List.replicate 8 0, muted := List.replicate 8 false, ctrStatus := 0, trctl := 0, trbase := 0
    trsize := 0, trhead := 0, trtail := 0, trlost := 0, trq := [], cycle := 0, sinceSample := 0, issued := none }

/-- DESIGN CHOICE: log entry 6. -/
def ClusterSt.initial : ClusterSt :=
  { mhz := 1700, present := true, cycle := 0, frac := 0, grantAt := 0, sramEvents := [] }

def SignReg.zero : SignReg := { armed := false, remaining := 0, card := [], arming := 0 }
def RangeEntry.zero : RangeEntry := ⟨0, 0, 0, 0⟩
def Queue.zero : Queue :=
  { base := 0, ctx := 0, cqbase := 0, size := 0, sqtail := 0, sqhead := 0, cqhead := 0, cqtail := 0, phase := true }
def ModelRec.zero : ModelRec := { table := 0, layers := 0, prio := 0, enabled := false, gen := 0, context := 0, ctl := 0, rest := 0 }

/-- A partition's block after reset: a lease of 4,096 ticks (R359), every other register 0. DESIGN CHOICE: log entry 6. -/
def Part.initial : Part :=
  { enabled := false, lease := 4096, parkBase := 0, parkSize := 0, stageBase := 0, stageSize := 0, trackBase := 0
    trackSize := 0, saveBase := 0, saveSize := 0, saveBlk := 0, syscode := 0, sysEntry := 0, saveEntry := 0
    restoreEntry := 0, poolBase := 0, poolLen := 0, hwBase := 0, hwLimit := 0, evAllow := 0, evTrap := 0
    ranges := List.replicate 48 .zero, held := List.replicate 48 .zero, mshare := 0
    queues := List.replicate 8 .zero, nodes := [], intake := [], models := List.replicate 64 .zero, layers := []
    swaps := [], poolFree := [], sessions := [], retired := [], retiredOvf := false, vfRefused := false
    clockMhz := 1700 }

/-- DESIGN CHOICE: log entry 6. -/
def Link.initial : Link :=
  { up := true, retraining := false, downSince := 0, failedLane := none, txSeq := 0, rxSeq := 0, replay := []
    resends := 0, errors := 0 }

/-- The physical function at power-good (R353 step 1): MPLIM 1,800 (R356), bring-up at step 1, READY 0.
DESIGN CHOICE: log entry 6. -/
def Pf.initial : Pf :=
  { netmap := List.replicate 64 0, bridgemap := List.replicate 64 0, netLive := List.replicate 64 0
    bridgeLive := List.replicate 64 0, commit := false, commitAt := 0, hostmap := List.replicate 16 0
    sgown := List.replicate 16 0, linkown := List.replicate 16 0, clown := List.replicate 48 0, pfstat := 0
    hqBase := 0, hqSize := 0, hqHead := 0, hqTail := 0, records := [], step := 1, ready := false, fail := false
    failCode := 0, therm := false, tripAt := none, spares := (0, 0), mplim := 1800, mpwr := 0, eccHbm := 0
    eccSram := 0, eccLost := 0, rowsUsed := List.replicate 256 0, spareChannel := List.replicate 8 false
    portErrors := 0, hostLink := true, powered := true, measures := [], reply := [] }

/-- The module right after power-good: device time 0 and bring-up at its first step (R9, R353). DESIGN CHOICE: log entry 6. -/
def State.reset : State :=
  { time := 0, nextId := 0, fresh := 0, mem := ⟨[], []⟩, issue := .idle, fibres := [], bands := []
    results := [], accesses := [], sideLog := [], cores := List.replicate Config.cores .initial
    clusters := List.replicate Config.clusters .initial, l1 := [], gangs := [], launches := [], jobs := []
    parts := List.replicate Config.partitions .initial, contexts := [], regions := [], tlb := [], walks := [], tlbPick := 0
    leases := []
    stamps := List.replicate 64 0, sliceLast := List.replicate 64 (0, 0), bankLast := List.replicate 192 (0, 0)
    l2 := [], ports := [], badSectors := [], rowFixes := [], sram := [], poison := [], frameCtx := [], migrations := []
    links := List.replicate Config.links .initial, linkJobs := [], remotePuts := [], hostVisible := [], hostAcks := []
    hostReply := [], pf := .initial, inputs := [] }

/-! ### The stops of the model -/

/-- The model raises no fault: every stop of the manual is a trap, a fatal record or a wait, and stands in the state. -/
inductive Fault where
  /-- Raised by no step and no meaning; safe. -/
  | never
  deriving DecidableEq, Repr

/-- Why a step has no next state. -/
inductive Refusal where
  /-- Raised by an arm of `exec` that has no meaning yet; safe. -/
  | notModelled (mnemonic : String)
  /-- Raised by an event row whose occurrence the state does not hold (no such access, band, job, node ...), or whose
  condition is not met: that event does not take place in that state. Safe. -/
  | notEnabled (event : String)
  /-- Raised by an event that would send a request to a channel port all of whose tags are in use: the event takes place later, when a
  tag is free (R343). Safe. -/
  | portBusy (event : String)
  deriving DecidableEq, Repr

end Sys2Proof.Machine
end

