-- ==== Sys2Proof/Machine/Operands.lean ====
section
/-! DEFINITION. Sys2Proof/Machine/Operands.lean: which registers and predicates each word names, reads and writes, its
pipe, and how an operand is read from and written to a fibre (R22, R24, R45, R64, R65, R102). -/

namespace Sys2Proof

/-- The pipes of a core (R24): one or both ALU pipes, XU, MEM, CTL, ENG; none for an event. -/
inductive Pipe where
  | alu | aluBoth | xu | mem | ctl | eng | none
  deriving DecidableEq, Repr

/-- The destination of VOTE: a register, or a pair for ballot (R90). -/
def voteRegs (d : BitVec 6) (v : BitVec 2) : List Nat :=
  if v == 2 then [2 * d.toNat, 2 * d.toNat + 1] else [d.toNat]

/-- A CVT operand: a pair for the 64-bit types (R127). -/
def regOrPair (t : BitVec 3) (f : BitVec 6) : List Nat :=
  if is64 t then [2 * f.toNat, 2 * f.toNat + 1] else [f.toNat]

/-- The registers a word names, pairs as their two halves (R65, R66, R152). -/
def Instr.regsNamed : Instr → List Nat
  | .iadd _ d a b | .isub _ d a b | .imul _ d a b | .imulhS _ d a b | .imulhN _ d a b | .imac _ d a b | .iminS _ d a
    b | .iminN _ d a b | .imaxS _ d a b | .imaxN _ d a b | .and _ d a b | .or _ d a b | .xor _ d a b | .andn _ d a b
    | .shl _ d a b | .shr _ d a b | .sar _ d a b | .rol _ d a b | .bfx _ d a b | .bfi _ d a b | .fadd _ d a b |
    .fsub _ d a b | .fmul _ d a b | .fmac _ d a b | .fnmac _ d a b | .fmin _ d a b | .fmax _ d a b | .hadd2 _ d a b
    | .hmul2 _ d a b | .hfmac2 _ d a b | .badd2 _ d a b | .bmul2 _ d a b | .bfmac2 _ d a b | .idivS _ d a b | .idivN
    _ d a b | .iremS _ d a b | .iremN _ d a b | .fdiv _ d a b | .narrow _ d a b | .widen _ d a b | .rdfs _ d a b |
    .wrfs _ d a b => [d.toNat, a.toNat, b.toNat]
  | .icmpS _ _ _ a b | .icmpN _ _ _ a b | .fcmp _ _ _ a b => [a.toNat, b.toNat]
  | .popc _ d a | .clz _ d a | .brev _ d a | .mov _ d a | .fneg _ d a | .fabs _ d a | .iaddi _ d a _ | .andi _ d a _
    | .ori _ d a _ | .xori _ d a _ | .shli _ d a _ | .shri _ d a _ | .sari _ d a _ | .imuli _ d a _ | .red _ d a _ |
    .scan _ d a _ _ | .fsqrt _ d a | .frcp _ d a | .frsq _ d a | .fexp2 _ d a | .flog2 _ d a | .fsinp _ d a | .fcosp
    _ d a | .fclass _ d a => [d.toNat, a.toNat]
  | .ladd _ d a b | .lsub _ d a b | .lmul _ d a b | .lmulhS _ d a b | .lmulhN _ d a b | .land _ d a b | .lor _ d a b
    | .lxor _ d a b | .dadd _ d a b | .dmul _ d a b | .dfmac _ d a b | .fork _ d a b | .ddiv _ d a b => [2 *
    d.toNat, 2 * d.toNat + 1, 2 * a.toNat, 2 * a.toNat + 1, 2 * b.toNat, 2 * b.toNat + 1]
  | .lshl _ d a b | .lshr _ d a b | .lsar _ d a b | .lea1 _ d a b | .lea2 _ d a b | .lea4 _ d a b | .lea8 _ d a b =>
    [2 * d.toNat, 2 * d.toNat + 1, 2 * a.toNat, 2 * a.toNat + 1, b.toNat]
  | .lcmpS _ _ _ a b | .lcmpN _ _ _ a b | .dcmp _ _ _ a b => [2 * a.toNat, 2 * a.toNat + 1, 2 * b.toNat, 2 * b.toNat
    + 1]
  | .icmpiS _ _ _ a _ | .icmpiN _ _ _ a _ => [a.toNat]
  | .movi _ d _ | .loop _ d _ | .rds _ d _ | .wrs _ d _ | .movl _ d _ | .shfl _ d _ _ | .bcast _ d _ => [d.toNat]
  | .laddi _ d a _ | .ldd _ _ d a _ _ | .std _ _ d a _ _ | .atomd _ _ d a _ _ | .atomdn _ _ d a _ _ | .cas _ d a _ _
    | .layq _ d a | .dsqrt _ d a => [2 * d.toNat, 2 * d.toNat + 1, 2 * a.toNat, 2 * a.toNat + 1]
  | .ldb _ _ d a _ _ | .ldbs _ _ d a _ _ | .ldh _ _ d a _ _ | .ldhs _ _ d a _ _ | .ldw _ _ d a _ _ | .stb _ _ d a _
    _ | .sth _ _ d a _ _ | .stw _ _ d a _ _ | .atom _ _ d a _ _ | .atomn _ _ d a _ _ | .atomf _ _ d a _ _ | .atomfn
    _ _ d a _ _ | .xchg _ d a _ _ | .tagr _ d a _ _ | .tags _ d a _ _ | .barv _ d a | .tgpost _ d a => [d.toNat, 2 *
    a.toNat, 2 * a.toNat + 1]
  | .ldq _ _ d a _ _ | .stq _ _ d a _ _ | .casd _ d a _ _ => [2 * d.toNat, 2 * d.toNat + 1, 2 * d.toNat + 2, 2 *
    d.toNat + 3, 2 * a.toNat, 2 * a.toNat + 1]
  | .ldt _ _ d a _ lit | .stt _ _ d a _ lit => [2 * a.toNat, 2 * a.toNat + 1, d.toNat, lit.toNat % 64]
  | .pref _ a _ _ | .brx _ a | .endJ _ a | .cpyq _ a | .layacq _ a | .layrel _ a | .lnkq _ a => [2 * a.toNat, 2 *
    a.toNat + 1]
  | .bra _ _ | .endF _ | .yield _ | .nop _ | .trap _ _ | .rett _ | .sign _ _ | .fence _ _ _ _ | .icinv _ _ | .carve
    _ _ | .saved _ => []
  | .call _ _ | .ret _ => [62, 63]
  | .vote _ d a v => a.toNat :: voteRegs d v
  | .matchL _ d a => [2 * d.toNat, 2 * d.toNat + 1, a.toNat]
  | .marm _ _ a b | .bari _ a b | .tlbinv _ a b => [2 * a.toNat, 2 * a.toNat + 1, b.toNat]
  | .barw _ d a b => [d.toNat, 2 * a.toNat, 2 * a.toNat + 1, b.toNat]
  | .layadv _ d a b | .laypin _ d a b => [d.toNat, 2 * a.toNat, 2 * a.toNat + 1, 2 * b.toNat, 2 * b.toNat + 1]
  | .cvt _ d a x y => regOrPair x a ++ regOrPair y d
  | .instructionFetch .. | .variableResultReturn .. | .switchMarkerResume .. | .crewMismatch .. | .yieldExpiry .. |
    .carveApply .. | .bankAccess .. | .homeRequest .. | .waitRepresent .. | .storeAcknowledgement .. |
    .l1LeaseExpiry .. | .releaseConditionMet .. | .feTimeout .. | .dequeTake .. | .dequeSteal .. | .preemptDecision
    .. | .preemptTrap .. | .restorePlacement .. | .traceSample .. | .trctlWrite .. | .trlostClear .. |
    .histogramClear .. | .eventSelectWrite .. | .counterStatusClear .. | .commandPost .. | .mma .. | .drain .. |
    .prime .. | .streamFetchReturn .. | .entryRaise .. | .copyJobStart .. | .jobComplete .. | .completionAction .. |
    .faultAnswer .. | .sideLogReplay .. | .rangeEntryWrite .. | .migrationStart .. | .migrationRound .. |
    .migrationFreeze .. | .migrationEndForwarding .. | .mapcommit .. | .mapApply .. | .pctlWrite .. | .pfstatClear
    .. | .registerWrite .. | .regionCreate .. | .regionDestroy .. | .monitorNotice .. | .windowEnd .. | .driftTile
    .. | .hostCxlRead .. | .hostCxlWrite .. | .sqtail .. | .cqhead .. | .qsize .. | .nodePost .. | .nodeLaunch .. |
    .nodeCopy .. | .nodeSwapIn .. | .nodeSwapEvict .. | .nodeLink .. | .nodeMarker .. | .nodeReservedKind .. |
    .nodeComplete .. | .priorityAging .. | .gangPlacement .. | .detRound .. | .carillonRelease .. |
    .modelRecordWrite .. | .modelEnable .. | .modelDisable .. | .swapInFrames .. | .evictionFramesReturn .. |
    .swapInComplete .. | .swapInFailure .. | .readSector .. | .readLine .. | .writeSector .. | .writeLine .. |
    .partialWrite .. | .scrubRead .. | .portReservedKind .. | .readData .. | .writeDone .. | .spareRowCopy .. |
    .spareChannelTakeover .. | .laneReplace .. | .clusterSpareTakeover .. | .powerGood .. | .mplim .. | .mshare .. |
    .powerThrottle .. | .thermalTrip .. | .thermalShutdown .. | .vfReset .. | .pfReset .. | .getMeasurements .. |
    .sessionOpen .. | .rekey .. | .sessionClose .. | .sessionLoss .. | .linkDownExpiry .. | .flitData .. |
    .flitAcknowledgement .. | .flitContribution .. | .flitControl .. | .flitReservedKind .. | .nak .. | .linkRetrain
    .. | .linkPut .. | .linkGet .. | .linkReduce .. | .putFlagFill .. | .reduceDeadline .. | .linkJobEnd .. |
    .cxlCacheSnoop .. | .linkRetrained .. | .temperatureFall .. | .hostLinkLoss .. | .clusterLost .. => []

/-- The registers a word writes, decided from the word alone (R22). -/
def Instr.dests : Instr → List Nat
  | .iadd _ d _ _ | .isub _ d _ _ | .imul _ d _ _ | .imulhS _ d _ _ | .imulhN _ d _ _ | .imac _ d _ _ | .iminS _ d _
    _ | .iminN _ d _ _ | .imaxS _ d _ _ | .imaxN _ d _ _ | .and _ d _ _ | .or _ d _ _ | .xor _ d _ _ | .andn _ d _ _
    | .shl _ d _ _ | .shr _ d _ _ | .sar _ d _ _ | .rol _ d _ _ | .bfx _ d _ _ | .bfi _ d _ _ | .popc _ d _ | .clz _
    d _ | .brev _ d _ | .mov _ d _ | .fadd _ d _ _ | .fsub _ d _ _ | .fmul _ d _ _ | .fmac _ d _ _ | .fnmac _ d _ _
    | .fmin _ d _ _ | .fmax _ d _ _ | .fneg _ d _ | .fabs _ d _ | .hadd2 _ d _ _ | .hmul2 _ d _ _ | .hfmac2 _ d _ _
    | .badd2 _ d _ _ | .bmul2 _ d _ _ | .bfmac2 _ d _ _ | .iaddi _ d _ _ | .andi _ d _ _ | .ori _ d _ _ | .xori _ d
    _ _ | .shli _ d _ _ | .shri _ d _ _ | .sari _ d _ _ | .movi _ d _ | .imuli _ d _ _ | .ldb _ _ d _ _ _ | .ldbs _
    _ d _ _ _ | .ldh _ _ d _ _ _ | .ldhs _ _ d _ _ _ | .ldw _ _ d _ _ _ | .atom _ _ d _ _ _ | .atomf _ _ d _ _ _ |
    .xchg _ d _ _ _ | .tagr _ d _ _ _ | .loop _ d _ | .rds _ d _ | .movl _ d _ | .shfl _ d _ _ | .bcast _ d _ | .red
    _ d _ _ | .scan _ d _ _ _ | .barv _ d _ | .barw _ d _ _ | .layadv _ d _ _ | .laypin _ d _ _ | .tgpost _ d _ |
    .idivS _ d _ _ | .idivN _ d _ _ | .iremS _ d _ _ | .iremN _ d _ _ | .fdiv _ d _ _ | .fsqrt _ d _ | .frcp _ d _ |
    .frsq _ d _ | .fexp2 _ d _ | .flog2 _ d _ | .fsinp _ d _ | .fcosp _ d _ | .narrow _ d _ _ | .widen _ d _ _ |
    .fclass _ d _ | .rdfs _ d _ _ => [d.toNat]
  | .icmpS _ _ _ _ _ | .icmpN _ _ _ _ _ | .lcmpS _ _ _ _ _ | .lcmpN _ _ _ _ _ | .fcmp _ _ _ _ _ | .dcmp _ _ _ _ _ |
    .icmpiS _ _ _ _ _ | .icmpiN _ _ _ _ _ | .stb _ _ _ _ _ _ | .sth _ _ _ _ _ _ | .stw _ _ _ _ _ _ | .std _ _ _ _ _
    _ | .stq _ _ _ _ _ _ | .stt _ _ _ _ _ _ | .atomn _ _ _ _ _ _ | .atomdn _ _ _ _ _ _ | .atomfn _ _ _ _ _ _ | .tags
    _ _ _ _ _ | .pref _ _ _ _ | .bra _ _ | .brx _ _ | .ret _ | .endF _ | .endJ _ _ | .fork _ _ _ _ | .yield _ | .nop
    _ | .trap _ _ | .rett _ | .wrs _ _ _ | .sign _ _ | .marm _ _ _ _ | .cpyq _ _ | .bari _ _ _ | .fence _ _ _ _ |
    .layacq _ _ | .layrel _ _ | .icinv _ _ | .lnkq _ _ | .carve _ _ | .tlbinv _ _ _ | .wrfs _ _ _ _ | .saved _ => []
  | .ladd _ d _ _ | .lsub _ d _ _ | .lmul _ d _ _ | .lmulhS _ d _ _ | .lmulhN _ d _ _ | .lshl _ d _ _ | .lshr _ d _
    _ | .lsar _ d _ _ | .land _ d _ _ | .lor _ d _ _ | .lxor _ d _ _ | .lea1 _ d _ _ | .lea2 _ d _ _ | .lea4 _ d _ _
    | .lea8 _ d _ _ | .dadd _ d _ _ | .dmul _ d _ _ | .dfmac _ d _ _ | .laddi _ d _ _ | .ldd _ _ d _ _ _ | .atomd _
    _ d _ _ _ | .casd _ d _ _ _ | .matchL _ d _ | .layq _ d _ | .ddiv _ d _ _ | .dsqrt _ d _ => [2 * d.toNat, 2 *
    d.toNat + 1]
  | .ldq _ _ d _ _ _ => [2 * d.toNat, 2 * d.toNat + 1, 2 * d.toNat + 2, 2 * d.toNat + 3]
  | .ldt _ _ d _ _ _ => if d.toNat % 2 == 0 then [d.toNat, d.toNat + 1] else [d.toNat]
  | .cas _ d _ _ _ => [2 * d.toNat]
  | .call _ _ => [62, 63]
  | .vote _ d _ v => voteRegs d v
  | .cvt _ d _ _ y => regOrPair y d
  | .instructionFetch .. | .variableResultReturn .. | .switchMarkerResume .. | .crewMismatch .. | .yieldExpiry .. |
    .carveApply .. | .bankAccess .. | .homeRequest .. | .waitRepresent .. | .storeAcknowledgement .. |
    .l1LeaseExpiry .. | .releaseConditionMet .. | .feTimeout .. | .dequeTake .. | .dequeSteal .. | .preemptDecision
    .. | .preemptTrap .. | .restorePlacement .. | .traceSample .. | .trctlWrite .. | .trlostClear .. |
    .histogramClear .. | .eventSelectWrite .. | .counterStatusClear .. | .commandPost .. | .mma .. | .drain .. |
    .prime .. | .streamFetchReturn .. | .entryRaise .. | .copyJobStart .. | .jobComplete .. | .completionAction .. |
    .faultAnswer .. | .sideLogReplay .. | .rangeEntryWrite .. | .migrationStart .. | .migrationRound .. |
    .migrationFreeze .. | .migrationEndForwarding .. | .mapcommit .. | .mapApply .. | .pctlWrite .. | .pfstatClear
    .. | .registerWrite .. | .regionCreate .. | .regionDestroy .. | .monitorNotice .. | .windowEnd .. | .driftTile
    .. | .hostCxlRead .. | .hostCxlWrite .. | .sqtail .. | .cqhead .. | .qsize .. | .nodePost .. | .nodeLaunch .. |
    .nodeCopy .. | .nodeSwapIn .. | .nodeSwapEvict .. | .nodeLink .. | .nodeMarker .. | .nodeReservedKind .. |
    .nodeComplete .. | .priorityAging .. | .gangPlacement .. | .detRound .. | .carillonRelease .. |
    .modelRecordWrite .. | .modelEnable .. | .modelDisable .. | .swapInFrames .. | .evictionFramesReturn .. |
    .swapInComplete .. | .swapInFailure .. | .readSector .. | .readLine .. | .writeSector .. | .writeLine .. |
    .partialWrite .. | .scrubRead .. | .portReservedKind .. | .readData .. | .writeDone .. | .spareRowCopy .. |
    .spareChannelTakeover .. | .laneReplace .. | .clusterSpareTakeover .. | .powerGood .. | .mplim .. | .mshare .. |
    .powerThrottle .. | .thermalTrip .. | .thermalShutdown .. | .vfReset .. | .pfReset .. | .getMeasurements .. |
    .sessionOpen .. | .rekey .. | .sessionClose .. | .sessionLoss .. | .linkDownExpiry .. | .flitData .. |
    .flitAcknowledgement .. | .flitContribution .. | .flitControl .. | .flitReservedKind .. | .nak .. | .linkRetrain
    .. | .linkPut .. | .linkGet .. | .linkReduce .. | .putFlagFill .. | .reduceDeadline .. | .linkJobEnd .. |
    .cxlCacheSnoop .. | .linkRetrained .. | .temperatureFall .. | .hostLinkLoss .. | .clusterLost .. => []

/-- The registers a word reads. -/
def Instr.sources : Instr → List Nat
  | .iadd _ _ a b | .isub _ _ a b | .imul _ _ a b | .imulhS _ _ a b | .imulhN _ _ a b | .iminS _ _ a b | .iminN _ _
    a b | .imaxS _ _ a b | .imaxN _ _ a b | .and _ _ a b | .or _ _ a b | .xor _ _ a b | .andn _ _ a b | .shl _ _ a b
    | .shr _ _ a b | .sar _ _ a b | .rol _ _ a b | .bfx _ _ a b | .icmpS _ _ _ a b | .icmpN _ _ _ a b | .fadd _ _ a
    b | .fsub _ _ a b | .fmul _ _ a b | .fmin _ _ a b | .fmax _ _ a b | .fcmp _ _ _ a b | .hadd2 _ _ a b | .hmul2 _
    _ a b | .badd2 _ _ a b | .bmul2 _ _ a b | .idivS _ _ a b | .idivN _ _ a b | .iremS _ _ a b | .iremN _ _ a b |
    .fdiv _ _ a b | .narrow _ _ a b | .widen _ _ a b | .rdfs _ _ a b => [a.toNat, b.toNat]
  | .imac _ d a b | .bfi _ d a b | .fmac _ d a b | .fnmac _ d a b | .hfmac2 _ d a b | .bfmac2 _ d a b | .wrfs _ d a
    b => [d.toNat, a.toNat, b.toNat]
  | .popc _ _ a | .clz _ _ a | .brev _ _ a | .mov _ _ a | .fneg _ _ a | .fabs _ _ a | .iaddi _ _ a _ | .andi _ _ a _
    | .ori _ _ a _ | .xori _ _ a _ | .shli _ _ a _ | .shri _ _ a _ | .sari _ _ a _ | .icmpiS _ _ _ a _ | .icmpiN _ _
    _ a _ | .imuli _ _ a _ | .vote _ _ a _ | .matchL _ _ a | .red _ _ a _ | .scan _ _ a _ _ | .fsqrt _ _ a | .frcp _
    _ a | .frsq _ _ a | .fexp2 _ _ a | .flog2 _ _ a | .fsinp _ _ a | .fcosp _ _ a | .fclass _ _ a => [a.toNat]
  | .ladd _ _ a b | .lsub _ _ a b | .lmul _ _ a b | .lmulhS _ _ a b | .lmulhN _ _ a b | .lcmpS _ _ _ a b | .lcmpN _
    _ _ a b | .land _ _ a b | .lor _ _ a b | .lxor _ _ a b | .dadd _ _ a b | .dmul _ _ a b | .dcmp _ _ _ a b |
    .layadv _ _ a b | .laypin _ _ a b | .ddiv _ _ a b => [2 * a.toNat, 2 * a.toNat + 1, 2 * b.toNat, 2 * b.toNat +
    1]
  | .lshl _ _ a b | .lshr _ _ a b | .lsar _ _ a b | .lea1 _ _ a b | .lea2 _ _ a b | .lea4 _ _ a b | .lea8 _ _ a b |
    .marm _ _ a b | .bari _ a b | .barw _ _ a b | .tlbinv _ a b => [2 * a.toNat, 2 * a.toNat + 1, b.toNat]
  | .dfmac _ d a b | .fork _ d a b => [2 * d.toNat, 2 * d.toNat + 1, 2 * a.toNat, 2 * a.toNat + 1, 2 * b.toNat, 2 *
    b.toNat + 1]
  | .movi _ _ _ | .bra _ _ | .call _ _ | .endF _ | .yield _ | .nop _ | .trap _ _ | .rett _ | .rds _ _ _ | .movl _ _
    _ | .sign _ _ | .fence _ _ _ _ | .icinv _ _ | .carve _ _ | .saved _ => []
  | .laddi _ _ a _ | .ldb _ _ _ a _ _ | .ldbs _ _ _ a _ _ | .ldh _ _ _ a _ _ | .ldhs _ _ _ a _ _ | .ldw _ _ _ a _ _
    | .ldd _ _ _ a _ _ | .ldq _ _ _ a _ _ | .tagr _ _ a _ _ | .pref _ a _ _ | .brx _ a | .endJ _ a | .cpyq _ a |
    .barv _ _ a | .layq _ _ a | .layacq _ a | .layrel _ a | .tgpost _ _ a | .dsqrt _ _ a | .lnkq _ a => [2 *
    a.toNat, 2 * a.toNat + 1]
  | .stb _ _ d a _ _ | .sth _ _ d a _ _ | .stw _ _ d a _ _ | .atom _ _ d a _ _ | .atomn _ _ d a _ _ | .atomf _ _ d a
    _ _ | .atomfn _ _ d a _ _ | .xchg _ d a _ _ | .tags _ d a _ _ => [d.toNat, 2 * a.toNat, 2 * a.toNat + 1]
  | .std _ _ d a _ _ | .atomd _ _ d a _ _ | .atomdn _ _ d a _ _ | .cas _ d a _ _ => [2 * d.toNat, 2 * d.toNat + 1, 2
    * a.toNat, 2 * a.toNat + 1]
  | .stq _ _ d a _ _ | .casd _ d a _ _ => [2 * d.toNat, 2 * d.toNat + 1, 2 * d.toNat + 2, 2 * d.toNat + 3, 2 *
    a.toNat, 2 * a.toNat + 1]
  | .ldt _ _ _ a _ lit => [2 * a.toNat, 2 * a.toNat + 1, lit.toNat % 64]
  | .stt _ _ d a _ lit => [2 * a.toNat, 2 * a.toNat + 1, d.toNat, lit.toNat % 64]
  | .ret _ => [62, 63]
  | .loop _ d _ | .wrs _ d _ | .shfl _ d _ _ | .bcast _ d _ => [d.toNat]
  | .cvt _ _ a x _ => regOrPair x a
  | .instructionFetch .. | .variableResultReturn .. | .switchMarkerResume .. | .crewMismatch .. | .yieldExpiry .. |
    .carveApply .. | .bankAccess .. | .homeRequest .. | .waitRepresent .. | .storeAcknowledgement .. |
    .l1LeaseExpiry .. | .releaseConditionMet .. | .feTimeout .. | .dequeTake .. | .dequeSteal .. | .preemptDecision
    .. | .preemptTrap .. | .restorePlacement .. | .traceSample .. | .trctlWrite .. | .trlostClear .. |
    .histogramClear .. | .eventSelectWrite .. | .counterStatusClear .. | .commandPost .. | .mma .. | .drain .. |
    .prime .. | .streamFetchReturn .. | .entryRaise .. | .copyJobStart .. | .jobComplete .. | .completionAction .. |
    .faultAnswer .. | .sideLogReplay .. | .rangeEntryWrite .. | .migrationStart .. | .migrationRound .. |
    .migrationFreeze .. | .migrationEndForwarding .. | .mapcommit .. | .mapApply .. | .pctlWrite .. | .pfstatClear
    .. | .registerWrite .. | .regionCreate .. | .regionDestroy .. | .monitorNotice .. | .windowEnd .. | .driftTile
    .. | .hostCxlRead .. | .hostCxlWrite .. | .sqtail .. | .cqhead .. | .qsize .. | .nodePost .. | .nodeLaunch .. |
    .nodeCopy .. | .nodeSwapIn .. | .nodeSwapEvict .. | .nodeLink .. | .nodeMarker .. | .nodeReservedKind .. |
    .nodeComplete .. | .priorityAging .. | .gangPlacement .. | .detRound .. | .carillonRelease .. |
    .modelRecordWrite .. | .modelEnable .. | .modelDisable .. | .swapInFrames .. | .evictionFramesReturn .. |
    .swapInComplete .. | .swapInFailure .. | .readSector .. | .readLine .. | .writeSector .. | .writeLine .. |
    .partialWrite .. | .scrubRead .. | .portReservedKind .. | .readData .. | .writeDone .. | .spareRowCopy .. |
    .spareChannelTakeover .. | .laneReplace .. | .clusterSpareTakeover .. | .powerGood .. | .mplim .. | .mshare .. |
    .powerThrottle .. | .thermalTrip .. | .thermalShutdown .. | .vfReset .. | .pfReset .. | .getMeasurements .. |
    .sessionOpen .. | .rekey .. | .sessionClose .. | .sessionLoss .. | .linkDownExpiry .. | .flitData .. |
    .flitAcknowledgement .. | .flitContribution .. | .flitControl .. | .flitReservedKind .. | .nak .. | .linkRetrain
    .. | .linkPut .. | .linkGet .. | .linkReduce .. | .putFlagFill .. | .reduceDeadline .. | .linkJobEnd .. |
    .cxlCacheSnoop .. | .linkRetrained .. | .temperatureFall .. | .hostLinkLoss .. | .clusterLost .. => []

/-- The predicate pairs a word writes (R22, R67, R86). -/
def Instr.predDests : Instr → List Nat
  | .iadd _ _ _ _ | .isub _ _ _ _ | .imul _ _ _ _ | .imulhS _ _ _ _ | .imulhN _ _ _ _ | .imac _ _ _ _ | .iminS _ _ _
    _ | .iminN _ _ _ _ | .imaxS _ _ _ _ | .imaxN _ _ _ _ | .and _ _ _ _ | .or _ _ _ _ | .xor _ _ _ _ | .andn _ _ _ _
    | .shl _ _ _ _ | .shr _ _ _ _ | .sar _ _ _ _ | .rol _ _ _ _ | .bfx _ _ _ _ | .bfi _ _ _ _ | .popc _ _ _ | .clz _
    _ _ | .brev _ _ _ | .mov _ _ _ | .ladd _ _ _ _ | .lsub _ _ _ _ | .lmul _ _ _ _ | .lmulhS _ _ _ _ | .lmulhN _ _ _
    _ | .lshl _ _ _ _ | .lshr _ _ _ _ | .lsar _ _ _ _ | .land _ _ _ _ | .lor _ _ _ _ | .lxor _ _ _ _ | .lea1 _ _ _ _
    | .lea2 _ _ _ _ | .lea4 _ _ _ _ | .lea8 _ _ _ _ | .fadd _ _ _ _ | .fsub _ _ _ _ | .fmul _ _ _ _ | .fmac _ _ _ _
    | .fnmac _ _ _ _ | .fmin _ _ _ _ | .fmax _ _ _ _ | .fneg _ _ _ | .fabs _ _ _ | .hadd2 _ _ _ _ | .hmul2 _ _ _ _ |
    .hfmac2 _ _ _ _ | .badd2 _ _ _ _ | .bmul2 _ _ _ _ | .bfmac2 _ _ _ _ | .dadd _ _ _ _ | .dmul _ _ _ _ | .dfmac _ _
    _ _ | .iaddi _ _ _ _ | .andi _ _ _ _ | .ori _ _ _ _ | .xori _ _ _ _ | .shli _ _ _ _ | .shri _ _ _ _ | .sari _ _
    _ _ | .movi _ _ _ | .laddi _ _ _ _ | .imuli _ _ _ _ | .ldb _ _ _ _ _ _ | .ldbs _ _ _ _ _ _ | .ldh _ _ _ _ _ _ |
    .ldhs _ _ _ _ _ _ | .ldw _ _ _ _ _ _ | .ldd _ _ _ _ _ _ | .ldq _ _ _ _ _ _ | .stb _ _ _ _ _ _ | .sth _ _ _ _ _ _
    | .stw _ _ _ _ _ _ | .std _ _ _ _ _ _ | .stq _ _ _ _ _ _ | .ldt _ _ _ _ _ _ | .stt _ _ _ _ _ _ | .atom _ _ _ _ _
    _ | .atomn _ _ _ _ _ _ | .atomd _ _ _ _ _ _ | .atomdn _ _ _ _ _ _ | .atomf _ _ _ _ _ _ | .atomfn _ _ _ _ _ _ |
    .xchg _ _ _ _ _ | .cas _ _ _ _ _ | .casd _ _ _ _ _ | .tagr _ _ _ _ _ | .tags _ _ _ _ _ | .pref _ _ _ _ | .bra _
    _ | .call _ _ | .brx _ _ | .ret _ | .loop _ _ _ | .endF _ | .endJ _ _ | .fork _ _ _ _ | .yield _ | .nop _ |
    .trap _ _ | .rett _ | .rds _ _ _ | .movl _ _ _ | .sign _ _ | .marm _ _ _ _ | .cpyq _ _ | .bari _ _
    _ | .barv _ _ _ | .barw _ _ _ _ | .fence _ _ _ _ | .layq _ _ _ | .layadv _ _ _ _ | .laypin _ _ _ _ | .layacq _ _
    | .layrel _ _ | .tgpost _ _ _ | .icinv _ _ | .idivS _ _ _ _ | .idivN _ _ _ _ | .iremS _ _ _ _ | .iremN _ _ _ _ |
    .fdiv _ _ _ _ | .fsqrt _ _ _ | .frcp _ _ _ | .frsq _ _ _ | .fexp2 _ _ _ | .flog2 _ _ _ | .fsinp _ _ _ | .fcosp _
    _ _ | .ddiv _ _ _ _ | .dsqrt _ _ _ | .cvt _ _ _ _ _ | .narrow _ _ _ _ | .widen _ _ _ _ | .fclass _ _ _ | .lnkq _
    _ | .carve _ _ | .tlbinv _ _ _ | .rdfs _ _ _ _ | .wrfs _ _ _ _ | .saved _ => []
  | .wrs _ _ n => if n.toNat == 29 then [0, 1, 2, 3, 4, 5] else []
  | .icmpS _ _ p _ _ | .icmpN _ _ p _ _ | .lcmpS _ _ p _ _ | .lcmpN _ _ p _ _ | .fcmp _ _ p _ _ | .dcmp _ _ p _ _ |
    .icmpiS _ _ p _ _ | .icmpiN _ _ p _ _ => [p.toNat]
  | .shfl _ _ _ _ | .bcast _ _ _ | .vote _ _ _ _ | .matchL _ _ _ | .red _ _ _ _ | .scan _ _ _ _ _ => [5]
  | .instructionFetch .. | .variableResultReturn .. | .switchMarkerResume .. | .crewMismatch .. | .yieldExpiry .. |
    .carveApply .. | .bankAccess .. | .homeRequest .. | .waitRepresent .. | .storeAcknowledgement .. |
    .l1LeaseExpiry .. | .releaseConditionMet .. | .feTimeout .. | .dequeTake .. | .dequeSteal .. | .preemptDecision
    .. | .preemptTrap .. | .restorePlacement .. | .traceSample .. | .trctlWrite .. | .trlostClear .. |
    .histogramClear .. | .eventSelectWrite .. | .counterStatusClear .. | .commandPost .. | .mma .. | .drain .. |
    .prime .. | .streamFetchReturn .. | .entryRaise .. | .copyJobStart .. | .jobComplete .. | .completionAction .. |
    .faultAnswer .. | .sideLogReplay .. | .rangeEntryWrite .. | .migrationStart .. | .migrationRound .. |
    .migrationFreeze .. | .migrationEndForwarding .. | .mapcommit .. | .mapApply .. | .pctlWrite .. | .pfstatClear
    .. | .registerWrite .. | .regionCreate .. | .regionDestroy .. | .monitorNotice .. | .windowEnd .. | .driftTile
    .. | .hostCxlRead .. | .hostCxlWrite .. | .sqtail .. | .cqhead .. | .qsize .. | .nodePost .. | .nodeLaunch .. |
    .nodeCopy .. | .nodeSwapIn .. | .nodeSwapEvict .. | .nodeLink .. | .nodeMarker .. | .nodeReservedKind .. |
    .nodeComplete .. | .priorityAging .. | .gangPlacement .. | .detRound .. | .carillonRelease .. |
    .modelRecordWrite .. | .modelEnable .. | .modelDisable .. | .swapInFrames .. | .evictionFramesReturn .. |
    .swapInComplete .. | .swapInFailure .. | .readSector .. | .readLine .. | .writeSector .. | .writeLine .. |
    .partialWrite .. | .scrubRead .. | .portReservedKind .. | .readData .. | .writeDone .. | .spareRowCopy .. |
    .spareChannelTakeover .. | .laneReplace .. | .clusterSpareTakeover .. | .powerGood .. | .mplim .. | .mshare .. |
    .powerThrottle .. | .thermalTrip .. | .thermalShutdown .. | .vfReset .. | .pfReset .. | .getMeasurements .. |
    .sessionOpen .. | .rekey .. | .sessionClose .. | .sessionLoss .. | .linkDownExpiry .. | .flitData .. |
    .flitAcknowledgement .. | .flitContribution .. | .flitControl .. | .flitReservedKind .. | .nak .. | .linkRetrain
    .. | .linkPut .. | .linkGet .. | .linkReduce .. | .putFlagFill .. | .reduceDeadline .. | .linkJobEnd .. |
    .cxlCacheSnoop .. | .linkRetrained .. | .temperatureFall .. | .hostLinkLoss .. | .clusterLost .. => []

/-- The pipe of a word (R24). -/
def Instr.pipe : Instr → Pipe
  | .iadd _ _ _ _ | .isub _ _ _ _ | .imul _ _ _ _ | .imulhS _ _ _ _ | .imulhN _ _ _ _ | .imac _ _ _ _ | .iminS _ _ _
    _ | .iminN _ _ _ _ | .imaxS _ _ _ _ | .imaxN _ _ _ _ | .and _ _ _ _ | .or _ _ _ _ | .xor _ _ _ _ | .andn _ _ _ _
    | .shl _ _ _ _ | .shr _ _ _ _ | .sar _ _ _ _ | .rol _ _ _ _ | .bfx _ _ _ _ | .bfi _ _ _ _ | .icmpS _ _ _ _ _ |
    .icmpN _ _ _ _ _ | .popc _ _ _ | .clz _ _ _ | .brev _ _ _ | .mov _ _ _ | .fadd _ _ _ _ | .fsub _ _ _ _ | .fmul _
    _ _ _ | .fmac _ _ _ _ | .fnmac _ _ _ _ | .fmin _ _ _ _ | .fmax _ _ _ _ | .fcmp _ _ _ _ _ | .fneg _ _ _ | .fabs _
    _ _ | .hadd2 _ _ _ _ | .hmul2 _ _ _ _ | .hfmac2 _ _ _ _ | .badd2 _ _ _ _ | .bmul2 _ _ _ _ | .bfmac2 _ _ _ _ |
    .iaddi _ _ _ _ | .andi _ _ _ _ | .ori _ _ _ _ | .xori _ _ _ _ | .shli _ _ _ _ | .shri _ _ _ _ | .sari _ _ _ _ |
    .icmpiS _ _ _ _ _ | .icmpiN _ _ _ _ _ | .movi _ _ _ | .imuli _ _ _ _ | .rds _ _ _ | .wrs _ _ _ | .movl _ _ _ |
    .narrow _ _ _ _ | .widen _ _ _ _ | .fclass _ _ _ => .alu
  | .cvt _ _ _ x y => if is64 x || is64 y then .aluBoth else .alu
  | .ladd _ _ _ _ | .lsub _ _ _ _ | .lmul _ _ _ _ | .lmulhS _ _ _ _ | .lmulhN _ _ _ _ | .lshl _ _ _ _ | .lshr _ _ _
    _ | .lsar _ _ _ _ | .lcmpS _ _ _ _ _ | .lcmpN _ _ _ _ _ | .land _ _ _ _ | .lor _ _ _ _ | .lxor _ _ _ _ | .lea1 _
    _ _ _ | .lea2 _ _ _ _ | .lea4 _ _ _ _ | .lea8 _ _ _ _ | .laddi _ _ _ _ => .aluBoth
  | .dadd _ _ _ _ | .dmul _ _ _ _ | .dfmac _ _ _ _ | .dcmp _ _ _ _ _ | .idivS _ _ _ _ | .idivN _ _ _ _ | .iremS _ _
    _ _ | .iremN _ _ _ _ | .fdiv _ _ _ _ | .fsqrt _ _ _ | .frcp _ _ _ | .frsq _ _ _ | .fexp2 _ _ _ | .flog2 _ _ _ |
    .fsinp _ _ _ | .fcosp _ _ _ | .ddiv _ _ _ _ | .dsqrt _ _ _ => .xu
  | .ldb _ _ _ _ _ _ | .ldbs _ _ _ _ _ _ | .ldh _ _ _ _ _ _ | .ldhs _ _ _ _ _ _ | .ldw _ _ _ _ _ _ | .ldd _ _ _ _ _
    _ | .ldq _ _ _ _ _ _ | .stb _ _ _ _ _ _ | .sth _ _ _ _ _ _ | .stw _ _ _ _ _ _ | .std _ _ _ _ _ _ | .stq _ _ _ _
    _ _ | .ldt _ _ _ _ _ _ | .stt _ _ _ _ _ _ | .atom _ _ _ _ _ _ | .atomn _ _ _ _ _ _ | .atomd _ _ _ _ _ _ |
    .atomdn _ _ _ _ _ _ | .atomf _ _ _ _ _ _ | .atomfn _ _ _ _ _ _ | .xchg _ _ _ _ _ | .cas _ _ _ _ _ | .casd _ _ _
    _ _ | .tagr _ _ _ _ _ | .tags _ _ _ _ _ | .pref _ _ _ _ | .bari _ _ _ | .barv _ _ _ | .barw _ _ _ _ | .fence _ _
    _ _ | .layq _ _ _ | .layadv _ _ _ _ | .laypin _ _ _ _ | .layacq _ _ | .layrel _ _ => .mem
  | .bra _ _ | .call _ _ | .brx _ _ | .ret _ | .loop _ _ _ | .endF _ | .endJ _ _ | .fork _ _ _ _ | .yield _ | .nop _
    | .trap _ _ | .rett _ | .shfl _ _ _ _ | .bcast _ _ _ | .vote _ _ _ _ | .matchL _ _ _ | .red _ _ _ _ | .scan _ _
    _ _ _ | .icinv _ _ | .carve _ _ | .tlbinv _ _ _ | .rdfs _ _ _ _ | .wrfs _ _ _ _ | .saved _ => .ctl
  | .sign _ _ | .marm _ _ _ _ | .cpyq _ _ | .tgpost _ _ _ | .lnkq _ _ => .eng
  | .instructionFetch .. | .variableResultReturn .. | .switchMarkerResume .. | .crewMismatch .. | .yieldExpiry .. |
    .carveApply .. | .bankAccess .. | .homeRequest .. | .waitRepresent .. | .storeAcknowledgement .. |
    .l1LeaseExpiry .. | .releaseConditionMet .. | .feTimeout .. | .dequeTake .. | .dequeSteal .. | .preemptDecision
    .. | .preemptTrap .. | .restorePlacement .. | .traceSample .. | .trctlWrite .. | .trlostClear .. |
    .histogramClear .. | .eventSelectWrite .. | .counterStatusClear .. | .commandPost .. | .mma .. | .drain .. |
    .prime .. | .streamFetchReturn .. | .entryRaise .. | .copyJobStart .. | .jobComplete .. | .completionAction .. |
    .faultAnswer .. | .sideLogReplay .. | .rangeEntryWrite .. | .migrationStart .. | .migrationRound .. |
    .migrationFreeze .. | .migrationEndForwarding .. | .mapcommit .. | .mapApply .. | .pctlWrite .. | .pfstatClear
    .. | .registerWrite .. | .regionCreate .. | .regionDestroy .. | .monitorNotice .. | .windowEnd .. | .driftTile
    .. | .hostCxlRead .. | .hostCxlWrite .. | .sqtail .. | .cqhead .. | .qsize .. | .nodePost .. | .nodeLaunch .. |
    .nodeCopy .. | .nodeSwapIn .. | .nodeSwapEvict .. | .nodeLink .. | .nodeMarker .. | .nodeReservedKind .. |
    .nodeComplete .. | .priorityAging .. | .gangPlacement .. | .detRound .. | .carillonRelease .. |
    .modelRecordWrite .. | .modelEnable .. | .modelDisable .. | .swapInFrames .. | .evictionFramesReturn .. |
    .swapInComplete .. | .swapInFailure .. | .readSector .. | .readLine .. | .writeSector .. | .writeLine .. |
    .partialWrite .. | .scrubRead .. | .portReservedKind .. | .readData .. | .writeDone .. | .spareRowCopy .. |
    .spareChannelTakeover .. | .laneReplace .. | .clusterSpareTakeover .. | .powerGood .. | .mplim .. | .mshare .. |
    .powerThrottle .. | .thermalTrip .. | .thermalShutdown .. | .vfReset .. | .pfReset .. | .getMeasurements .. |
    .sessionOpen .. | .rekey .. | .sessionClose .. | .sessionLoss .. | .linkDownExpiry .. | .flitData .. |
    .flitAcknowledgement .. | .flitContribution .. | .flitControl .. | .flitReservedKind .. | .nak .. | .linkRetrain
    .. | .linkPut .. | .linkGet .. | .linkReduce .. | .putFlagFill .. | .reduceDeadline .. | .linkJobEnd .. |
    .cxlCacheSnoop .. | .linkRetrained .. | .temperatureFall .. | .hostLinkLoss .. | .clusterLost .. => .none

/-- Meeting instructions (R85). -/
def Instr.isMeeting : Instr → Bool
  | .iadd _ _ _ _ | .isub _ _ _ _ | .imul _ _ _ _ | .imulhS _ _ _ _ | .imulhN _ _ _ _ | .imac _ _ _ _ | .iminS _ _ _
    _ | .iminN _ _ _ _ | .imaxS _ _ _ _ | .imaxN _ _ _ _ | .and _ _ _ _ | .or _ _ _ _ | .xor _ _ _ _ | .andn _ _ _ _
    | .shl _ _ _ _ | .shr _ _ _ _ | .sar _ _ _ _ | .rol _ _ _ _ | .bfx _ _ _ _ | .bfi _ _ _ _ | .icmpS _ _ _ _ _ |
    .icmpN _ _ _ _ _ | .popc _ _ _ | .clz _ _ _ | .brev _ _ _ | .mov _ _ _ | .ladd _ _ _ _ | .lsub _ _ _ _ | .lmul _
    _ _ _ | .lmulhS _ _ _ _ | .lmulhN _ _ _ _ | .lshl _ _ _ _ | .lshr _ _ _ _ | .lsar _ _ _ _ | .lcmpS _ _ _ _ _ |
    .lcmpN _ _ _ _ _ | .land _ _ _ _ | .lor _ _ _ _ | .lxor _ _ _ _ | .lea1 _ _ _ _ | .lea2 _ _ _ _ | .lea4 _ _ _ _
    | .lea8 _ _ _ _ | .fadd _ _ _ _ | .fsub _ _ _ _ | .fmul _ _ _ _ | .fmac _ _ _ _ | .fnmac _ _ _ _ | .fmin _ _ _ _
    | .fmax _ _ _ _ | .fcmp _ _ _ _ _ | .fneg _ _ _ | .fabs _ _ _ | .hadd2 _ _ _ _ | .hmul2 _ _ _ _ | .hfmac2 _ _ _
    _ | .badd2 _ _ _ _ | .bmul2 _ _ _ _ | .bfmac2 _ _ _ _ | .dadd _ _ _ _ | .dmul _ _ _ _ | .dfmac _ _ _ _ | .dcmp _
    _ _ _ _ | .iaddi _ _ _ _ | .andi _ _ _ _ | .ori _ _ _ _ | .xori _ _ _ _ | .shli _ _ _ _ | .shri _ _ _ _ | .sari
    _ _ _ _ | .icmpiS _ _ _ _ _ | .icmpiN _ _ _ _ _ | .movi _ _ _ | .laddi _ _ _ _ | .imuli _ _ _ _ | .ldb _ _ _ _ _
    _ | .ldbs _ _ _ _ _ _ | .ldh _ _ _ _ _ _ | .ldhs _ _ _ _ _ _ | .ldw _ _ _ _ _ _ | .ldd _ _ _ _ _ _ | .ldq _ _ _
    _ _ _ | .stb _ _ _ _ _ _ | .sth _ _ _ _ _ _ | .stw _ _ _ _ _ _ | .std _ _ _ _ _ _ | .stq _ _ _ _ _ _ | .ldt _ _
    _ _ _ _ | .stt _ _ _ _ _ _ | .atom _ _ _ _ _ _ | .atomn _ _ _ _ _ _ | .atomd _ _ _ _ _ _ | .atomdn _ _ _ _ _ _ |
    .atomf _ _ _ _ _ _ | .atomfn _ _ _ _ _ _ | .xchg _ _ _ _ _ | .cas _ _ _ _ _ | .casd _ _ _ _ _ | .tagr _ _ _ _ _
    | .tags _ _ _ _ _ | .pref _ _ _ _ | .bra _ _ | .call _ _ | .brx _ _ | .ret _ | .loop _ _ _ | .endF _ | .endJ _ _
    | .fork _ _ _ _ | .yield _ | .nop _ | .trap _ _ | .rett _ | .rds _ _ _ | .wrs _ _ _ | .movl _ _ _ | .sign _ _ |
    .marm _ _ _ _ | .cpyq _ _ | .bari _ _ _ | .barv _ _ _ | .barw _ _ _ _ | .fence _ _ _ _ | .layq _ _ _ | .layadv _
    _ _ _ | .laypin _ _ _ _ | .layacq _ _ | .layrel _ _ | .tgpost _ _ _ | .icinv _ _ | .idivS _ _ _ _ | .idivN _ _ _
    _ | .iremS _ _ _ _ | .iremN _ _ _ _ | .fdiv _ _ _ _ | .fsqrt _ _ _ | .frcp _ _ _ | .frsq _ _ _ | .fexp2 _ _ _ |
    .flog2 _ _ _ | .fsinp _ _ _ | .fcosp _ _ _ | .ddiv _ _ _ _ | .dsqrt _ _ _ | .cvt _ _ _ _ _ | .narrow _ _ _ _ |
    .widen _ _ _ _ | .fclass _ _ _ | .lnkq _ _ | .carve _ _ | .tlbinv _ _ _ | .rdfs _ _ _ _ | .wrfs _ _ _ _ | .saved
    _ => false
  | .shfl _ _ _ _ | .bcast _ _ _ | .vote _ _ _ _ | .matchL _ _ _ | .red _ _ _ _ | .scan _ _ _ _ _ => true
  | .instructionFetch .. | .variableResultReturn .. | .switchMarkerResume .. | .crewMismatch .. | .yieldExpiry .. |
    .carveApply .. | .bankAccess .. | .homeRequest .. | .waitRepresent .. | .storeAcknowledgement .. |
    .l1LeaseExpiry .. | .releaseConditionMet .. | .feTimeout .. | .dequeTake .. | .dequeSteal .. | .preemptDecision
    .. | .preemptTrap .. | .restorePlacement .. | .traceSample .. | .trctlWrite .. | .trlostClear .. |
    .histogramClear .. | .eventSelectWrite .. | .counterStatusClear .. | .commandPost .. | .mma .. | .drain .. |
    .prime .. | .streamFetchReturn .. | .entryRaise .. | .copyJobStart .. | .jobComplete .. | .completionAction .. |
    .faultAnswer .. | .sideLogReplay .. | .rangeEntryWrite .. | .migrationStart .. | .migrationRound .. |
    .migrationFreeze .. | .migrationEndForwarding .. | .mapcommit .. | .mapApply .. | .pctlWrite .. | .pfstatClear
    .. | .registerWrite .. | .regionCreate .. | .regionDestroy .. | .monitorNotice .. | .windowEnd .. | .driftTile
    .. | .hostCxlRead .. | .hostCxlWrite .. | .sqtail .. | .cqhead .. | .qsize .. | .nodePost .. | .nodeLaunch .. |
    .nodeCopy .. | .nodeSwapIn .. | .nodeSwapEvict .. | .nodeLink .. | .nodeMarker .. | .nodeReservedKind .. |
    .nodeComplete .. | .priorityAging .. | .gangPlacement .. | .detRound .. | .carillonRelease .. |
    .modelRecordWrite .. | .modelEnable .. | .modelDisable .. | .swapInFrames .. | .evictionFramesReturn .. |
    .swapInComplete .. | .swapInFailure .. | .readSector .. | .readLine .. | .writeSector .. | .writeLine .. |
    .partialWrite .. | .scrubRead .. | .portReservedKind .. | .readData .. | .writeDone .. | .spareRowCopy .. |
    .spareChannelTakeover .. | .laneReplace .. | .clusterSpareTakeover .. | .powerGood .. | .mplim .. | .mshare .. |
    .powerThrottle .. | .thermalTrip .. | .thermalShutdown .. | .vfReset .. | .pfReset .. | .getMeasurements .. |
    .sessionOpen .. | .rekey .. | .sessionClose .. | .sessionLoss .. | .linkDownExpiry .. | .flitData .. |
    .flitAcknowledgement .. | .flitContribution .. | .flitControl .. | .flitReservedKind .. | .nak .. | .linkRetrain
    .. | .linkPut .. | .linkGet .. | .linkReduce .. | .putFlagFill .. | .reduceDeadline .. | .linkJobEnd .. |
    .cxlCacheSnoop .. | .linkRetrained .. | .temperatureFall .. | .hostLinkLoss .. | .clusterLost .. => false

/-- Privileged instructions (R32). -/
def Instr.isPrivileged : Instr → Bool
  | .iadd _ _ _ _ | .isub _ _ _ _ | .imul _ _ _ _ | .imulhS _ _ _ _ | .imulhN _ _ _ _ | .imac _ _ _ _ | .iminS _ _ _
    _ | .iminN _ _ _ _ | .imaxS _ _ _ _ | .imaxN _ _ _ _ | .and _ _ _ _ | .or _ _ _ _ | .xor _ _ _ _ | .andn _ _ _ _
    | .shl _ _ _ _ | .shr _ _ _ _ | .sar _ _ _ _ | .rol _ _ _ _ | .bfx _ _ _ _ | .bfi _ _ _ _ | .icmpS _ _ _ _ _ |
    .icmpN _ _ _ _ _ | .popc _ _ _ | .clz _ _ _ | .brev _ _ _ | .mov _ _ _ | .ladd _ _ _ _ | .lsub _ _ _ _ | .lmul _
    _ _ _ | .lmulhS _ _ _ _ | .lmulhN _ _ _ _ | .lshl _ _ _ _ | .lshr _ _ _ _ | .lsar _ _ _ _ | .lcmpS _ _ _ _ _ |
    .lcmpN _ _ _ _ _ | .land _ _ _ _ | .lor _ _ _ _ | .lxor _ _ _ _ | .lea1 _ _ _ _ | .lea2 _ _ _ _ | .lea4 _ _ _ _
    | .lea8 _ _ _ _ | .fadd _ _ _ _ | .fsub _ _ _ _ | .fmul _ _ _ _ | .fmac _ _ _ _ | .fnmac _ _ _ _ | .fmin _ _ _ _
    | .fmax _ _ _ _ | .fcmp _ _ _ _ _ | .fneg _ _ _ | .fabs _ _ _ | .hadd2 _ _ _ _ | .hmul2 _ _ _ _ | .hfmac2 _ _ _
    _ | .badd2 _ _ _ _ | .bmul2 _ _ _ _ | .bfmac2 _ _ _ _ | .dadd _ _ _ _ | .dmul _ _ _ _ | .dfmac _ _ _ _ | .dcmp _
    _ _ _ _ | .iaddi _ _ _ _ | .andi _ _ _ _ | .ori _ _ _ _ | .xori _ _ _ _ | .shli _ _ _ _ | .shri _ _ _ _ | .sari
    _ _ _ _ | .icmpiS _ _ _ _ _ | .icmpiN _ _ _ _ _ | .movi _ _ _ | .laddi _ _ _ _ | .imuli _ _ _ _ | .ldb _ _ _ _ _
    _ | .ldbs _ _ _ _ _ _ | .ldh _ _ _ _ _ _ | .ldhs _ _ _ _ _ _ | .ldw _ _ _ _ _ _ | .ldd _ _ _ _ _ _ | .ldq _ _ _
    _ _ _ | .stb _ _ _ _ _ _ | .sth _ _ _ _ _ _ | .stw _ _ _ _ _ _ | .std _ _ _ _ _ _ | .stq _ _ _ _ _ _ | .ldt _ _
    _ _ _ _ | .stt _ _ _ _ _ _ | .atom _ _ _ _ _ _ | .atomn _ _ _ _ _ _ | .atomd _ _ _ _ _ _ | .atomdn _ _ _ _ _ _ |
    .atomf _ _ _ _ _ _ | .atomfn _ _ _ _ _ _ | .xchg _ _ _ _ _ | .cas _ _ _ _ _ | .casd _ _ _ _ _ | .tagr _ _ _ _ _
    | .tags _ _ _ _ _ | .pref _ _ _ _ | .bra _ _ | .call _ _ | .brx _ _ | .ret _ | .loop _ _ _ | .endF _ | .endJ _ _
    | .fork _ _ _ _ | .yield _ | .nop _ | .trap _ _ | .rett _ | .rds _ _ _ | .wrs _ _ _ | .movl _ _ _ | .shfl _ _ _
    _ | .bcast _ _ _ | .vote _ _ _ _ | .matchL _ _ _ | .red _ _ _ _ | .scan _ _ _ _ _ | .sign _ _ | .marm _ _ _ _ |
    .cpyq _ _ | .bari _ _ _ | .barv _ _ _ | .barw _ _ _ _ | .fence _ _ _ _ | .layq _ _ _ | .layadv _ _ _ _ | .laypin
    _ _ _ _ | .layacq _ _ | .layrel _ _ | .tgpost _ _ _ | .icinv _ _ | .idivS _ _ _ _ | .idivN _ _ _ _ | .iremS _ _
    _ _ | .iremN _ _ _ _ | .fdiv _ _ _ _ | .fsqrt _ _ _ | .frcp _ _ _ | .frsq _ _ _ | .fexp2 _ _ _ | .flog2 _ _ _ |
    .fsinp _ _ _ | .fcosp _ _ _ | .ddiv _ _ _ _ | .dsqrt _ _ _ | .cvt _ _ _ _ _ | .narrow _ _ _ _ | .widen _ _ _ _ |
    .fclass _ _ _ | .lnkq _ _ => false
  | .carve _ _ | .tlbinv _ _ _ | .rdfs _ _ _ _ | .wrfs _ _ _ _ | .saved _ => true
  | .instructionFetch .. | .variableResultReturn .. | .switchMarkerResume .. | .crewMismatch .. | .yieldExpiry .. |
    .carveApply .. | .bankAccess .. | .homeRequest .. | .waitRepresent .. | .storeAcknowledgement .. |
    .l1LeaseExpiry .. | .releaseConditionMet .. | .feTimeout .. | .dequeTake .. | .dequeSteal .. | .preemptDecision
    .. | .preemptTrap .. | .restorePlacement .. | .traceSample .. | .trctlWrite .. | .trlostClear .. |
    .histogramClear .. | .eventSelectWrite .. | .counterStatusClear .. | .commandPost .. | .mma .. | .drain .. |
    .prime .. | .streamFetchReturn .. | .entryRaise .. | .copyJobStart .. | .jobComplete .. | .completionAction .. |
    .faultAnswer .. | .sideLogReplay .. | .rangeEntryWrite .. | .migrationStart .. | .migrationRound .. |
    .migrationFreeze .. | .migrationEndForwarding .. | .mapcommit .. | .mapApply .. | .pctlWrite .. | .pfstatClear
    .. | .registerWrite .. | .regionCreate .. | .regionDestroy .. | .monitorNotice .. | .windowEnd .. | .driftTile
    .. | .hostCxlRead .. | .hostCxlWrite .. | .sqtail .. | .cqhead .. | .qsize .. | .nodePost .. | .nodeLaunch .. |
    .nodeCopy .. | .nodeSwapIn .. | .nodeSwapEvict .. | .nodeLink .. | .nodeMarker .. | .nodeReservedKind .. |
    .nodeComplete .. | .priorityAging .. | .gangPlacement .. | .detRound .. | .carillonRelease .. |
    .modelRecordWrite .. | .modelEnable .. | .modelDisable .. | .swapInFrames .. | .evictionFramesReturn .. |
    .swapInComplete .. | .swapInFailure .. | .readSector .. | .readLine .. | .writeSector .. | .writeLine .. |
    .partialWrite .. | .scrubRead .. | .portReservedKind .. | .readData .. | .writeDone .. | .spareRowCopy .. |
    .spareChannelTakeover .. | .laneReplace .. | .clusterSpareTakeover .. | .powerGood .. | .mplim .. | .mshare .. |
    .powerThrottle .. | .thermalTrip .. | .thermalShutdown .. | .vfReset .. | .pfReset .. | .getMeasurements .. |
    .sessionOpen .. | .rekey .. | .sessionClose .. | .sessionLoss .. | .linkDownExpiry .. | .flitData .. |
    .flitAcknowledgement .. | .flitContribution .. | .flitControl .. | .flitReservedKind .. | .nak .. | .linkRetrain
    .. | .linkPut .. | .linkGet .. | .linkReduce .. | .putFlagFill .. | .reduceDeadline .. | .linkJobEnd .. |
    .cxlCacheSnoop .. | .linkRetrained .. | .temperatureFall .. | .hostLinkLoss .. | .clusterLost .. => false

namespace Machine

/-- g[i]; a register beyond the window reads 0 (R175). -/
def Fibre.reg (f : Fibre) (i : BitVec 6) : Word := f.regs.getD i.toNat 0
/-- Register number i. -/
def Fibre.regN (f : Fibre) (i : Nat) : Word := f.regs.getD i 0
/-- Pair w[k]: g(2k) is the low half (R65, R102). -/
def Fibre.pairN (f : Fibre) (k : Nat) : DWord := f.regN (2 * k + 1) ++ f.regN (2 * k)
def Fibre.pair (f : Fibre) (k : BitVec 6) : DWord := f.pairN k.toNat
/-- g[i] := v; ignored beyond the window. -/
def Fibre.setRegN (f : Fibre) (i : Nat) (v : Word) : Fibre := { f with regs := f.regs.set i v }
def Fibre.setReg (f : Fibre) (i : BitVec 6) (v : Word) : Fibre := f.setRegN i.toNat v
/-- The register writes that store a pair. -/
def pairWrites (k : Nat) (v : DWord) : List (Nat × Word) :=
  [(2 * k, v.extractLsb' 0 32), (2 * k + 1, v.extractLsb' 32 32)]
/-- w[k] := v. -/
def Fibre.setPair (f : Fibre) (k : BitVec 6) (v : DWord) : Fibre :=
  (f.setRegN (2 * k.toNat) (v.extractLsb' 0 32)).setRegN (2 * k.toNat + 1) (v.extractLsb' 32 32)
/-- Several register writes in order. -/
def Fibre.setRegs (f : Fibre) (ws : List (Nat × Word)) : Fibre := ws.foldl (fun f w => f.setRegN w.1 w.2) f
/-- Predicate p_i. -/
def Fibre.pred (f : Fibre) (i : Nat) : Bool := f.preds.getLsbD i
/-- Writes predicate pair k (R67). -/
def setPredPair (p : BitVec 12) (k : Nat) (a b : Bool) : BitVec 12 :=
  (p &&& ~~~(3#12 <<< (2 * k))) ||| ((BitVec.ofBool a).setWidth 12 <<< (2 * k))
    ||| ((BitVec.ofBool b).setWidth 12 <<< (2 * k + 1))
def Fibre.setPred (f : Fibre) (k : Nat) (a b : Bool) : Fibre := { f with preds := setPredPair f.preds k a b }
/-- The guard of a word in a fibre (R12, R13). -/
def Fibre.guard (f : Fibre) (g : BitVec 4) : Bool := g == 12 || (decide (g.toNat < 12) && f.pred g.toNat)

end Machine

end Sys2Proof
end

