-- ==== Sys2Proof/Machine/Transcend.lean ====
section
/-! DEFINITION. Sys2Proof/Machine/Transcend.lean: FEXP2, FLOG2, FSINP and FCOSP (R51, R125). Each function is evaluated
in fixed point with `fixP` fraction bits and rounded once, to nearest, ties to even; a value that is not one of the
exact cases is irrational, so its sticky bit is 1 (notes/assumptions/3.md). -/

namespace Sys2Proof.Machine

/-- Fraction bits of the fixed-point evaluation. DEDUCED: log entry 3. -/
def fixP : Nat := 512
/-- The fixed-point 1. -/
def fixOne : Nat := 2 ^ fixP

/-- z + z^3/3 + z^5/5 + ..., with z2 = z^2. -/
def atanhGo (z2 : Nat) : Nat → Nat → Nat → Nat → Nat
  | 0, _, _, acc => acc
  | n + 1, p, k, acc => atanhGo z2 n (p * z2 / fixOne) (k + 2) (acc + p / k)
def fixAtanh (z : Nat) : Nat := atanhGo (z * z / fixOne) 170 z 1 0

/-- 1/q - 1/(3 q^3) + 1/(5 q^5) - ... -/
def atanGo (q2 : Nat) : Nat → Nat → Nat → Bool → Int → Int
  | 0, _, _, _, acc => acc
  | n + 1, p, k, neg, acc => atanGo q2 n (p / q2) (k + 2) (!neg) (if neg then acc - (p / k : Nat) else acc + (p / k : Nat))
def fixAtanInv (q : Nat) : Int := atanGo (q * q) 230 (fixOne / q) 1 false 0

/-- ln 2 = 2 atanh(1/3). -/
def fixLn2 : Nat := 2 * fixAtanh (fixOne / 3)
/-- pi by Machin's formula. -/
def fixPi : Nat := (16 * fixAtanInv 5 - 4 * fixAtanInv 239).toNat

/-- e^t for a fixed-point t in [0, 1). -/
def expGo (t : Nat) : Nat → Nat → Nat → Nat → Nat
  | 0, _, _, acc => acc
  | n + 1, p, k, acc => expGo t n (p * t / fixOne / k) (k + 1) (acc + p)
def fixExp (t : Nat) : Nat := expGo t 110 fixOne 1 0

/-- sin t for a fixed-point t in [0, pi/2]. -/
def sinGo (t2 : Nat) : Nat → Nat → Nat → Bool → Int → Int
  | 0, _, _, _, acc => acc
  | n + 1, p, k, neg, acc =>
    sinGo t2 n (p * t2 / fixOne / ((k + 1) * (k + 2))) (k + 2) (!neg) (if neg then acc - (p : Int) else acc + (p : Int))
def fixSin (t : Nat) : Nat := (sinGo (t * t / fixOne) 70 t 1 false 0).toNat

/-- The binary32 1.0. -/
def f32One : Nat := 0x3F800000

/-- FEXP2 (R51). -/
def fExp2 (a : Nat) : Nat × Flags :=
  match unpack .f32 a with
  | .nan b => nanResult .f32 b
  | .inf s => (if s then 0 else Fmt.f32.infBits, .none)
  | .fin s m e =>
    if m == 0 then (f32One, .none)
    else if 9 ≤ (bitLen m : Int) + e then roundTo .f32 .rne false 1 (if s then -1000 else 1000) true
    else
      -- |x| < 256 = v / 2^k exactly
      let k := (-e).toNat
      let v := signedInt s (m * 2 ^ e.toNat)
      let n := v / (2 ^ k : Nat)
      let f := (v % (2 ^ k : Nat)).toNat
      if f == 0 then roundTo .f32 .rne false 1 n false
      else roundTo .f32 .rne false (fixExp (f * fixLn2 / 2 ^ k)) (n - fixP) true

/-- FLOG2 (R51). -/
def fLog2 (a : Nat) : Nat × Flags :=
  match unpack .f32 a with
  | .nan b => nanResult .f32 b
  | .inf s => if s then nanResult .f32 true else (Fmt.f32.infBits, .none)
  | .fin s m e =>
    if m == 0 then (Fmt.f32.inf true, .divZero)
    else if s then nanResult .f32 true
    else
      let l := bitLen m - 1
      let n := e + l
      if m == 2 ^ l then roundInt .f32 .rne n 0 false
      else
        let ln := 2 * fixAtanh ((m - 2 ^ l) * fixOne / (m + 2 ^ l))
        let v : Int := n * fixOne + (ln * fixOne / fixLn2 : Nat)
        if v < 0 then roundTo .f32 .rne true (v.natAbs - 1) (-(fixP : Int)) true
        else roundTo .f32 .rne false v.toNat (-(fixP : Int)) true

/-- The magnitude of sin(pi * num / 2^k) for 0 < num ≤ 2^(k-1), rounded. -/
def sinPiPart (s : Bool) (num k : Nat) : Nat × Flags :=
  if 2 * num == 2 ^ k then (Fmt.f32.signed s f32One, .none)
  else roundTo .f32 .rne s (fixSin (num * fixPi / 2 ^ k)) (-(fixP : Int)) true

/-- FSINP (R51): an integer gives a zero of its own sign. -/
def fSinPi (a : Nat) : Nat × Flags :=
  match unpack .f32 a with
  | .nan b => nanResult .f32 b
  | .inf _ => nanResult .f32 true
  | .fin s m e =>
    let k := (-e).toNat
    if m == 0 || 0 ≤ e || m % 2 ^ k == 0 then (Fmt.f32.zero s, .none)
    else
      let r := m % 2 ^ (k + 1)
      let t := r % 2 ^ k
      sinPiPart (s != decide (2 ^ k ≤ r)) (min t (2 ^ k - t)) k

/-- FCOSP (R51): cos(pi x) = sin(pi (1/2 - x)) on the reduced argument. -/
def fCosPi (a : Nat) : Nat × Flags :=
  match unpack .f32 a with
  | .nan b => nanResult .f32 b
  | .inf _ => nanResult .f32 true
  | .fin _ m e =>
    -- x = n / 2^k with k at least 1
    let k := (-e).toNat + 1
    let n := m * 2 ^ (e.toNat + 1)
    let r := n % 2 ^ (k + 1)
    let t := min r (2 ^ (k + 1) - r)
    let half := 2 ^ (k - 1)
    if t == half then (0, .none)
    else if t < half then sinPiPart false (half - t) k
    else sinPiPart true (t - half) k

end Sys2Proof.Machine
end

