-- ==== Sys2Proof/Machine/Flags.lean ====
section
/-! DEFINITION. Sys2Proof/Machine/Flags.lean: conditions and predicate pairs (R28, R67), the arithmetic of the integer
words (R105 to R114), and how values and flags of a floating-point word are formed (R48 to R50, R120, R127). -/

namespace Sys2Proof.Machine

/-! ### Conditions (R28, R67) -/

/-- Condition codes 0 eq, 1 ne, 2 lt, 3 le, 4 gt, 5 ge on an order. -/
def condOf (n : BitVec 3) (lt eq : Bool) : Bool :=
  match n.toNat with
  | 0 => eq
  | 1 => !eq
  | 2 => lt
  | 3 => lt || eq
  | 4 => !(lt || eq)
  | _ => !lt
def condS {w : Nat} (n : BitVec 3) (a b : BitVec w) : Bool := condOf n (a.slt b) (a == b)
def condN {w : Nat} (n : BitVec 3) (a b : BitVec w) : Bool := condOf n (a.ult b) (a == b)
/-- p2k := the condition, p2k+1 := its negation (R67). -/
def Fibre.setPredCond (f : Fibre) (p : BitVec 3) (v : Bool) : Fibre := f.setPred p.toNat v (!v)
/-- FCMP's pair; an unordered pair is 1 for ne and unordered (R67). -/
def Fibre.setPredFp (f : Fibre) (_n p : BitVec 3) (r : Bool × Flags) : Fibre := f.setPred p.toNat r.1 (!r.1)

/-! ### Integer arithmetic (R105 to R114) -/

def count5 (b : Word) : Nat := (b.extractLsb' 0 5).toNat
def count6 (b : Word) : Nat := (b.extractLsb' 0 6).toNat
def mulhS (a b : Word) : Word := (a.signExtend 64 * b.signExtend 64).extractLsb' 32 32
def mulhN (a b : Word) : Word := (a.setWidth 64 * b.setWidth 64).extractLsb' 32 32
def lmulhS (a b : DWord) : DWord := (a.signExtend 128 * b.signExtend 128).extractLsb' 64 64
def lmulhN (a b : DWord) : DWord := (a.setWidth 128 * b.setWidth 128).extractLsb' 64 64
/-- The field length of BFX and BFI (R107). -/
def fieldLen (b : Word) : Nat := min (b.extractLsb' 8 6).toNat (32 - count5 b)
/-- 2^n - 1. -/
def lowMask (n : Nat) : Word := BitVec.ofNat 32 (2 ^ n - 1)
def bfx (a b : Word) : Word := (a >>> count5 b) &&& lowMask (fieldLen b)
def bfi (d a b : Word) : Word :=
  let mask := lowMask (fieldLen b) <<< count5 b
  (d &&& ~~~mask) ||| ((a <<< count5 b) &&& mask)
/-- The number of 1 bits (R108). -/
def popc32 (a : Word) : Word := BitVec.ofNat 32 ((List.range 32).filter (fun i => a.getLsbD i)).length
/-- Number of 0 bits above the highest 1 bit; 32 for 0 (R108). -/
def clz32 (a : Word) : Word := BitVec.ofNat 32 (if a.toNat = 0 then 32 else 31 - Nat.log2 a.toNat)
/-- Signed division (R114). -/
def idivS (a b : Word) : Word :=
  if b == 0 then (if a.slt 0 then 1 else -1)
  else BitVec.ofInt 32 (a.toInt.tdiv b.toInt)
def idivN (a b : Word) : Word := if b == 0 then 0xFFFFFFFF else a / b
def iremS (a b : Word) : Word := if b == 0 then a else BitVec.ofInt 32 (a.toInt.tmod b.toInt)
def iremN (a b : Word) : Word := if b == 0 then a else a % b

/-! ### Floating-point results -/

/-- The rounding mode a word reads at issue (R49). -/
def rmodeOf (r : Fibre) : RMode := .ofWord r.ctl.rmode

/-- Two 16-bit elements computed independently, their flags ORed (R45, R120). -/
def packed2 (g : Nat → Nat → Nat → Nat × Flags) (a b d : Nat) : Nat × Flags :=
  let lo := g (a % 65536) (b % 65536) (d % 65536)
  let hi := g (a / 65536) (b / 65536) (d / 65536)
  (hi.1 * 65536 + lo.1, hi.2 ||| lo.2)

/-- What a variable-latency word writes: one register, one pair or one predicate pair, and its flags. -/
def oneReg (d : BitVec 6) (r : Nat × Flags) : List (Nat × Word) × List (Nat × Bool × Bool) × Flags :=
  ([(d.toNat, BitVec.ofNat 32 r.1)], [], r.2)
def onePair (d : BitVec 6) (r : Nat × Flags) : List (Nat × Word) × List (Nat × Bool × Bool) × Flags :=
  (pairWrites d.toNat (BitVec.ofNat 64 r.1), [], r.2)
def onePred (_n p : BitVec 3) (r : Bool × Flags) : List (Nat × Word) × List (Nat × Bool × Bool) × Flags :=
  ([], [(p.toNat, r.1, !r.1)], r.2)

/-- The CVT types (R31): 0 s32, 1 n32, 2 f16, 3 bf16, 4 f32, 5 f64, 6 s64, 7 n64. -/
def cvtFmt (t : BitVec 3) : Option Fmt :=
  match t.toNat with
  | 2 => some .f16
  | 3 => some .bf16
  | 4 => some .f32
  | 5 => some .f64
  | _ => none
/-- The range of an integer type. -/
def cvtRange (t : BitVec 3) : Int × Int :=
  match t.toNat with
  | 0 => (-2 ^ 31, 2 ^ 31 - 1)
  | 1 => (0, 2 ^ 32 - 1)
  | 6 => (-2 ^ 63, 2 ^ 63 - 1)
  | _ => (0, 2 ^ 64 - 1)
/-- The width of a type in bits. -/
def cvtBits (t : BitVec 3) : Nat :=
  match t.toNat with
  | 2 => 16
  | 3 => 16
  | 5 => 64
  | 6 => 64
  | 7 => 64
  | _ => 32
/-- The source bits of a CVT (R127). -/
def cvtSource (t : BitVec 3) (r : Fibre) (a : BitVec 6) : Nat :=
  if is64 t then (r.pair a).toNat else (r.reg a).toNat % 2 ^ cvtBits t
/-- An integer as bits of a type. -/
def cvtWrap (t : BitVec 3) (v : Int) : Nat := (v % (2 ^ cvtBits t : Nat)).toNat
/-- CVT from type x to type y (R127 to R130). -/
def cvt (rm : RMode) (x y : BitVec 3) (v : Nat) : Nat × Flags :=
  match cvtFmt x, cvtFmt y with
  | some fx, some fy => fConvert fx fy rm v
  | some fx, none =>
    let r := fToInt fx rm (cvtRange y).1 (cvtRange y).2 v
    (cvtWrap y r.1, r.2)
  | none, fy =>
    let i : Int := if (cvtRange x).1 < 0 && decide (2 ^ (cvtBits x - 1) ≤ v) then (v : Int) - (2 ^ cvtBits x : Nat) else v
    match fy with
    | some f => intToF f rm i
    | none =>
      let r := intToInt (cvtRange y).1 (cvtRange y).2 i
      (cvtWrap y r.1, r.2)

end Sys2Proof.Machine
end

