-- ==== Sys2Proof/Machine/Memory.lean ====
section
/-! DEFINITION. Sys2Proof/Machine/Memory.lean: reading and writing bytes and full/empty bits, in the canonical form of
`Memory`; little-endian values (R3); how a key is formed. -/

namespace Sys2Proof.Machine

/-- The byte a sorted cell list gives an address; an unlisted byte is 0. -/
def cellGet : List Host.Cell → Nat → Byte
  | [], _ => 0
  | (k, v) :: t, a => if k = a then v else cellGet t a

/-- Writes one byte, keeping the addresses rising and no entry 0. -/
def cellSet : List Host.Cell → Nat → Byte → List Host.Cell
  | [], a, b => if b = 0 then [] else [(a, b)]
  | (k, v) :: t, a, b =>
    if a < k then (if b = 0 then (k, v) :: t else (a, b) :: (k, v) :: t)
    else if a = k then (if b = 0 then t else (k, b) :: t)
    else (k, v) :: cellSet t a b

/-- Inserts a number in a rising list. -/
def natInsert : List Nat → Nat → List Nat
  | [], a => [a]
  | k :: t, a => if a < k then a :: k :: t else if a = k then k :: t else k :: natInsert t a

/-- Removes a number from a rising list. -/
def natErase : List Nat → Nat → List Nat
  | [], _ => []
  | k :: t, a => if a = k then t else k :: natErase t a

/-- The cells rise strictly from above `lo` and none is 0. -/
def cellsFrom : Option Nat → List Host.Cell → Bool
  | _, [] => true
  | lo, (k, v) :: t => (match lo with
      | none => true
      | some l => decide (l < k)) && v != 0 && cellsFrom (some k) t

/-- The numbers rise strictly from above `lo`. -/
def natsFrom : Option Nat → List Nat → Bool
  | _, [] => true
  | lo, k :: t => (match lo with
      | none => true
      | some l => decide (l < k)) && natsFrom (some k) t

namespace Memory

/-- The canonical form. -/
def wf (m : Memory) : Bool := cellsFrom none m.cells && natsFrom none m.empty

/-- DESIGN CHOICE: log entry 5. -/
def byte (m : Memory) (a : Nat) : Byte := cellGet m.cells a
def setByte (m : Memory) (a : Nat) (b : Byte) : Memory := { m with cells := cellSet m.cells a b }
/-- The full/empty bit of the word at key / 8: true when full. DESIGN CHOICE: log entry 5. -/
def full (m : Memory) (w : Nat) : Bool := !m.empty.contains w
def setFull (m : Memory) (w : Nat) (full : Bool) : Memory :=
  { m with empty := if full then natErase m.empty w else natInsert m.empty w }

/-- n bytes from a. -/
def readBytes (m : Memory) (a : Nat) : Nat → List Byte
  | 0 => []
  | n + 1 => m.byte a :: m.readBytes (a + 1) n
def writeBytes (m : Memory) (a : Nat) : List Byte → Memory
  | [] => m
  | b :: t => (m.setByte a b).writeBytes (a + 1) t

/-- Sets the bits of n words from w. -/
def setFulls (m : Memory) (w : Nat) (full : Bool) : Nat → Memory
  | 0 => m
  | n + 1 => (m.setFull w full).setFulls (w + 1) full n

/-- The bytes that `p` picks become 0. -/
def zeroed (m : Memory) (p : Nat → Bool) : Memory := { m with cells := m.cells.filter (fun c => !p c.1) }
/-- The words that `p` picks, by the key of their first byte, become full. -/
def filled (m : Memory) (p : Nat → Bool) : Memory := { m with empty := m.empty.filter (fun w => !p (8 * w)) }
/-- Bytes from key `lo` up to `hi` become 0 and their words full; both are multiples of 8. -/
def clearRange (m : Memory) (lo hi : Nat) : Memory :=
  (m.zeroed (fun a => decide (lo ≤ a) && decide (a < hi))).filled (fun a => decide (lo ≤ a) && decide (a < hi))
/-- The listed bytes, and the empty words, that `p` picks. -/
def listed (m : Memory) (p : Nat → Bool) : List Host.Cell := m.cells.filter (fun c => p c.1)
def emptied (m : Memory) (p : Nat → Bool) : List Nat := m.empty.filter (fun w => p (8 * w))

end Memory

/-- The value of bytes, lowest first (R3). -/
def natOfBytes : List Byte → Nat
  | [] => 0
  | b :: t => b.toNat + 256 * natOfBytes t

/-- n bytes of a value, lowest first. -/
def bytesOfNat : Nat → Nat → List Byte
  | 0, _ => []
  | n + 1, v => BitVec.ofNat 8 v :: bytesOfNat n (v / 256)

namespace Memory
/-- n bytes read as one value. -/
def read (m : Memory) (a n : Nat) : Nat := natOfBytes (m.readBytes a n)
/-- n bytes written from one value. -/
def write (m : Memory) (a n v : Nat) : Memory := m.writeBytes a (bytesOfNat n v)
end Memory

/-- The key of scratch byte b of a device core. -/
def scratchKey (core b : Nat) : Nat := 2 ^ 52 + core * 2 ^ 19 + b
/-- A key that names scratch. -/
def isScratch (key : Nat) : Bool := decide (2 ^ 52 ≤ key)
/-- A host-memory address (R227). -/
def isHostMem (a : Nat) : Bool := decide (2 ^ 51 ≤ a) && decide (a < 2 ^ 52)
/-- A device-memory address (R227): 16 slice groups of 24 GiB. -/
def isDevMem (a : Nat) : Bool := decide (a < 16 * 0x600000000)
/-- The slice group of a device-memory address (R227). -/
def sliceGroup (a : Nat) : Nat := a / 0x600000000

end Sys2Proof.Machine
end

