-- ==== Sys2Proof/Machine/Lookup.lean ====
section
/-! DEFINITION. Sys2Proof/Machine/Lookup.lean: an event's answer; lookups of gangs, fibres, partitions and the like, and their
updates. -/

namespace Sys2Proof.Machine

/-- Answers the state an event leads to, or refuses an event that the state does not hold. DESIGN CHOICE: log entry 75. -/
def ev (name : String) : Option State → Host.Outcome State Fault Refusal
  | some s => .next s
  | none => .refused (.notEnabled name)

/-- The same for an event that sends requests to channel ports: with no tag free it waits (R343). -/
def evPort (name : String) : Option State → Host.Outcome State Fault Refusal
  | some s => if s.portWait then .refused (.portBusy name) else .next s
  | none => .refused (.notEnabled name)

/-- A write to a register of a virtual function: until READY is set it completes with Unsupported Request (R353). -/
def State.vfWrite (s : State) (r : Option State) : Option State := if s.pf.ready then r else some s

/-! ### Lookups -/

def Gang.core (g : Gang) (wg : Nat) : Nat := 4 * g.cluster + g.base + wg
def Fibre.lane (f : Fibre) : Nat := f.idx % Config.width
def Fibre.crew (f : Fibre) : Nat := f.idx / Config.width
/-- A PC as the part reports it (R14). -/
def Ctl.pc (c : Ctl) : DWord := c.pkt + BitVec.ofNat 64 (4 * c.slot)

/-- A fibre that stands for a missing one. -/
def Fibre.blank : Fibre :=
  { gang := 0, idx := 0, wg := 0, live := false, used := false, regs := [], preds := 0, ctl := .created 0 0 0 0 }
def CoreSt.blank : CoreSt := .initial

namespace State

def fibre (s : State) (k : Nat) : Fibre := s.fibres.getD k .blank
def gang (s : State) (id : Nat) : Option Gang := s.gangs.find? (fun g => g.id == id)
def launch (s : State) (id : Nat) : Option Launch := s.launches.find? (fun l => l.id == id)
def context (s : State) (id : Nat) : Option Context := s.contexts.find? (fun c => c.id == id)
def access (s : State) (id : Nat) : Option Access := s.accesses.find? (fun a => a.id == id)
def job (s : State) (id : Nat) : Option Job := s.jobs.find? (fun j => j.id == id)
def region (s : State) (id : Nat) : Option Region := s.regions.find? (fun r => r.id == id)
def band (s : State) (id : Nat) : Option Band := s.bands.find? (fun b => b.bid == id)
def part (s : State) (p : Nat) : Part := s.parts.getD p .initial
def core (s : State) (c : Nat) : CoreSt := s.cores.getD c .initial
def cluster (s : State) (k : Nat) : ClusterSt := s.clusters.getD k .initial

def setGang (s : State) (g : Gang) : State := { s with gangs := s.gangs.map (fun x => if x.id == g.id then g else x) }
def setLaunch (s : State) (l : Launch) : State :=
  { s with launches := s.launches.map (fun x => if x.id == l.id then l else x) }
def setContext (s : State) (c : Context) : State :=
  { s with contexts := s.contexts.map (fun x => if x.id == c.id then c else x) }
def setAccess (s : State) (a : Access) : State :=
  { s with accesses := s.accesses.map (fun x => if x.id == a.id then a else x) }
def dropAccess (s : State) (id : Nat) : State := { s with accesses := s.accesses.filter (fun x => x.id != id) }
def setJob (s : State) (j : Job) : State := { s with jobs := s.jobs.map (fun x => if x.id == j.id then j else x) }
def dropJob (s : State) (id : Nat) : State := { s with jobs := s.jobs.filter (fun x => x.id != id) }
def setRegion (s : State) (r : Region) : State :=
  { s with regions := s.regions.map (fun x => if x.id == r.id then r else x) }
def updPart (s : State) (p : Nat) (f : Part → Part) : State := { s with parts := s.parts.modify p f }
def updCore (s : State) (c : Nat) (f : CoreSt → CoreSt) : State := { s with cores := s.cores.modify c f }
def updCluster (s : State) (k : Nat) (f : ClusterSt → ClusterSt) : State := { s with clusters := s.clusters.modify k f }
def updLink (s : State) (l : Nat) (f : Link → Link) : State := { s with links := s.links.modify l f }
def updPf (s : State) (f : Pf → Pf) : State := { s with pf := f s.pf }

/-- Applies `f` to fibre k. -/
def updFibre (s : State) (k : Nat) (f : Fibre → Fibre) : State := { s with fibres := s.fibres.modify k f }
/-- Applies `f` to each fibre of `ks`. -/
def updFibres (s : State) (ks : List Nat) (f : Nat → Fibre → Fibre) : State :=
  { s with fibres := s.fibres.mapIdx (fun k x => if ks.contains k then f k x else x) }
/-- Applies `f` to the control part of each fibre of `ks`. -/
def updCtls (s : State) (ks : List Nat) (f : Nat → Ctl → Ctl) : State :=
  s.updFibres ks (fun k x => { x with ctl := f k x.ctl })

/-- Takes an identifier. -/
def bump (s : State) : State := { s with nextId := s.nextId + 1 }
/-- The next free value of the stream, below n (0 for n = 0), and the state with the stream advanced.
DESIGN CHOICE: log entry 2. -/
def pick (s : State) (n : Nat) : Nat × State :=
  (Config.free s.fresh % n, { s with fresh := s.fresh + 1 })

def link (s : State) (l : Nat) : Link := s.links.getD l .initial

/-- The device core of a fibre. -/
def coreOf (s : State) (k : Nat) : Nat :=
  let f := s.fibre k
  match s.gang f.gang with
  | some g => g.core f.wg
  | none => 0
/-- Device core cycle now. -/
def cycle (s : State) (core : Nat) : Nat := (s.core core).cycle

/-- Owner byte of PF ownership maps: bit 7 assigned, bits [3:0] partition (R359). -/
def ownerOf (b : BitVec 8) : Option Nat := if b.getLsbD 7 then some (b.extractLsb' 0 4).toNat else none
def clusterOwner (s : State) (k : Nat) : Option Nat := ownerOf (s.pf.clown.getD k 0)
def sliceOwner (s : State) (g : Nat) : Option Nat := ownerOf (s.pf.sgown.getD g 0)
def linkOwner (s : State) (l : Nat) : Option Nat := ownerOf (s.pf.linkown.getD l 0)
/-- The partition's clusters in ascending device number. -/
def clustersOf (s : State) (p : Nat) : List Nat :=
  (List.range Config.clusters).filter (fun k => s.clusterOwner k == some p && (s.cluster k).present)
/-- %CLUSTER (R69). -/
def clusterNumber (s : State) (k : Nat) : Nat :=
  match s.clusterOwner k with
  | some p => ((List.range k).filter (fun j => s.clusterOwner j == some p)).length
  | none => k
/-- %CORE (R69). -/
def coreNumber (s : State) (c : Nat) : Nat := 4 * s.clusterNumber (c / 4) + c % 4

/-- The code base a fibre runs under: the launch's, or SYSCODE in the system handler (R14, R359). DEDUCED: log entry 66. -/
def codeBase (s : State) (f : Fibre) : DWord :=
  match s.gang f.gang with
  | some g => if f.ctl.v then (s.part g.part).syscode else g.codeBase
  | none => 0

/-- Live fibres of a gang. -/
def liveOf (s : State) (gid : Nat) : List Nat :=
  (List.range s.fibres.length).filter (fun k => (s.fibre k).live && (s.fibre k).gang == gid)
/-- Live fibres of a crew. -/
def liveCrew (s : State) (gid crew : Nat) : List Nat :=
  (s.liveOf gid).filter (fun k => (s.fibre k).crew == crew)

/-- A cluster reports an uncorrectable SRAM event: those of the last 1 s are kept (R350). -/
def sramEvent (s : State) (k : Nat) : State :=
  s.updCluster k (fun c => { c with sramEvents := c.sramEvents.filter (fun x => decide (s.time < x + 1000000000)) ++ [s.time] })
/-- One more uncorrectable event (R354). -/
def countLost (s : State) : State := s.updPf (fun f => { f with eccLost := min (f.eccLost + 1) (2 ^ 64 - 1) })
/-- Lost data are met, with the cause they have in a data-loss trap (R347): each time counts (R354), and scratch and register words as
an event of cluster k (R350). DESIGN CHOICE: log entry 72. -/
def noteLoss (s : State) (k cause : Nat) : State :=
  if cause == 2 || cause == 3 then (s.countLost).sramEvent k else s.countLost

end State

end Sys2Proof.Machine
end

