-- ==== Sys2Proof/Machine/Slices.lean ====
section
/-! DEFINITION. Sys2Proof/Machine/Slices.lean: the homes of addresses (R227), channel ports (R342 to R344), the sets of a slice
(R228), what every write does (R246, R349), and stage 2 (R237). -/

namespace Sys2Proof.Machine

/-! ### Homes (R227) -/

/-- The home slice of a host physical address, `group` being the lowest slice group of its partition. -/
def homeSlice (group a : Nat) : Nat :=
  if isHostMem a then 4 * group + a / 256 % 4 else 4 * sliceGroup a + a / 256 % 4
/-- The channel of a device-memory address, and its sector in that channel. -/
def channelOf (a : Nat) : Nat :=
  let o := a % 0x600000000
  4 * (4 * sliceGroup a + o / 256 % 4) + o / 1024 % 4
def sectorOf (a : Nat) : Nat :=
  let o := a % 0x600000000
  o / 4096 * 8 + o % 256 / 32
/-- The address of a channel's sector. -/
def sectorAddr (ch sec : Nat) : Nat :=
  ch / 16 * 0x600000000 + sec / 8 * 4096 + ch % 4 * 1024 + ch / 4 % 4 * 256 + sec % 8 * 32

/-- The 64-byte line of an address. -/
def lineOf (a : Nat) : Nat := a / 64

/-- A 64-bit counter that saturates (R354). -/
def satAdd (v n : Nat) : Nat := min (v + n) (2 ^ 64 - 1)

/-! ### Requests and replies of a channel port (R342) -/

namespace PortKind
def isRead : PortKind → Bool
  | .readSector => true
  | .readLine => true
  | .scrub => true
  | _ => false
def isLine : PortKind → Bool
  | .readLine => true
  | .writeLine => true
  | _ => false
/-- The kind code of a request. -/
def code : PortKind → Nat
  | .readSector => 0
  | .readLine => 1
  | .writeSector => 2
  | .writeLine => 3
  | .partialWrite => 4
  | .scrub => 5
end PortKind

namespace PortReq
/-- The sectors a request covers. -/
def sectors (r : PortReq) : List Nat := if r.kind.isLine then [r.sector, r.sector + 1] else [r.sector]
/-- The header word of a request. -/
def header (r : PortReq) : DWord := BitVec.ofNat 64 (r.kind.code * 2 ^ 60 + r.tag * 2 ^ 51 + r.sector * 2 ^ 25)
/-- The header word of its reply: read data or write done, the tag echoed, two bits of status for each sector. -/
def replyHeader (r : PortReq) : DWord :=
  BitVec.ofNat 64 ((if r.kind.isRead then 8 else 9) * 2 ^ 60 + r.tag * 2 ^ 51 + r.sector * 2 ^ 25 + r.status.2 * 2 ^ 23 + r.status.1 * 2 ^ 21)
/-- The number whose bit i is the i-th of a list. -/
def ofBits (l : List Bool) : Nat := l.foldr (fun b n => b.toNat + 2 * n) 0
/-- The mask word of a partial write. -/
def maskWord (r : PortReq) : DWord :=
  BitVec.ofNat 64 (ofBits r.mask * 2 ^ 32 + ofBits r.feMask * 2 ^ 28 + ofBits (r.feMask.zipWith (· && ·) r.feVals) * 2 ^ 24)
/-- The byte of full/empty bits that travels with a sector of a write-sector or write-line. -/
def feByte (r : PortReq) (upper : Bool) : Byte := BitVec.ofNat 8 (ofBits ((if upper then r.feVals.drop 4 else r.feVals).take 4))
end PortReq

/-- Who uses a home: its partition, the context of a translated access, the page attribute, and how a line enters L2 (R140): 0 normal,
1 evict-first, 2 retain, 3 not at all. -/
structure HomeUse where
  part : Nat
  ctx : Option Nat := none
  attr : Nat := 0
  policy : Nat := 0
  deriving DecidableEq, Repr

/-- How a line enters L2, from the page attribute and the P field (R140). -/
def enterPolicy (attr p : Nat) : Nat :=
  match attr with
  | 0 => if p == 3 then 0 else p
  | 1 => 1
  | _ => 3

namespace State

/-- The lowest slice group a partition owns. -/
def firstGroup (s : State) (p : Nat) : Nat :=
  ((List.range 16).find? (fun g => s.sliceOwner g == some p)).getD 0
/-- A range of host physical addresses inside a partition's slice groups. -/
def inGroups (s : State) (p a len : Nat) : Bool :=
  decide (0 < len) && (List.range ((a + len - 1) / 0x600000000 - a / 0x600000000 + 1)).all (fun i =>
    decide (a / 0x600000000 + i < 16) && s.sliceOwner (a / 0x600000000 + i) == some p)

/-- Where an address of a moved frame now is: the old homes pass requests on (R246). -/
def forward (s : State) (a : Nat) : Nat :=
  match s.migrations.find? (fun m => m.phase == .forwarding && decide (m.old ≤ a) && decide (a < m.old + m.size)) with
  | some m => a - m.old + m.new
  | none => a

/-! ### Lost data (R345 to R348, R360) -/

/-- The sector of an address holds an uncorrectable error: two or more symbols (R345, R348). -/
def badSector (s : State) (a : Nat) : Bool :=
  isDevMem a && s.badSectors.any (fun b => b.1 == a / 32 && decide (2 ≤ b.2))
/-- The line of an address in its slice. -/
def l2Line (s : State) (a : Nat) : Option L2Line := s.l2.find? (fun x => x.line == lineOf a)
/-- The slice holds a byte. -/
def l2Has (s : State) (a : Nat) : Bool :=
  match s.l2Line a with
  | some x => x.valid.getD (a % 64) false
  | none => false
/-- A double-bit error in a word of a dirty line (R346); in a clean line the slice reads the line again. -/
def dirtyLost (s : State) (a : Nat) : Bool :=
  s.sram.contains (.l2 (a / 8)) && (match s.l2Line a with
    | some x => (List.range 8).any (fun i => x.dirty.getD (a % 64 / 8 * 8 + i) false) || x.feDirty.getD (a % 64 / 8) false
    | none => false)
/-- The cause of a data-loss trap that the byte at a key gives (R347): a scratch word, a dirty word of L2, poison of the host, or an
uncorrectable sector of which the slice does not hold the byte. -/
def lostAt (s : State) (k : Nat) : Option Nat :=
  if isScratch k then (if s.sram.contains (.scratch (k / 8)) then some 2 else none)
  else if s.dirtyLost k then some 1
  else if isHostMem k && s.poison.contains (lineOf k) then some 4
  else if s.badSector k && !s.l2Has k then some 0
  else none
def lostKey (s : State) (k : Nat) : Bool := (s.lostAt k).isSome

/-! ### One sector (R345) -/

/-- Symbols in error in a sector of a channel. -/
def symbols (s : State) (ch sec : Nat) : Nat := (s.badSectors.lookup (sectorAddr ch sec / 32)).getD 0
/-- A sector is rewritten whole: its error ends (R348). -/
def healSector (s : State) (ch sec : Nat) : State :=
  { s with badSectors := s.badSectors.filter (fun b => b.1 != sectorAddr ch sec / 32) }
/-- The row of a sector, as rowFixes keys it. -/
def rowKey (ch sec : Nat) : Nat := ch * 2 ^ 32 + Config.rowOf sec % 2 ^ 32

/-- A sector is read: its status, with a correctable error corrected, counted and written back.
DESIGN CHOICE: log entry 47. -/
def readSector (s : State) (ch sec : Nat) : Nat × State :=
  match s.symbols ch sec with
  | 0 => (0, s)
  | 1 =>
    let k := rowKey ch sec
    let n := (s.rowFixes.lookup k).getD 0
    let s1 := (s.healSector ch sec).updPf (fun f => { f with eccHbm := satAdd f.eccHbm 1 })
    (1, { s1 with rowFixes := (k, n + 1) :: s1.rowFixes.filter (fun x => x.1 != k) })
  | _ => (2, s.countLost)

/-! ### Channel ports (R342 to R344) -/

/-- The lowest free tag of a channel; none when all 512 are in use (R343). -/
def freeTag (s : State) (ch : Nat) : Option Nat := (List.range 512).find? (fun t => !s.ports.any (fun p => p.ch == ch && p.tag == t))
/-- The event under way wants a tag that is not free. -/
def noTag (s : State) : State := { s with portWait := true }
/-- Sends a request for the sector or line of an address, with the lowest free tag. -/
def sendPort (s : State) (a : Nat) (r : PortReq) : State :=
  match s.freeTag (channelOf a) with
  | none => s.noTag
  | some t => { s with ports := s.ports ++ [{ r with ch := channelOf a, tag := t, sector := sectorOf (a / 32 * 32) }] }

/-- A request to a sector is still to be performed (R343). -/
def portAhead (s : State) (ch sec : Nat) : Bool := s.ports.any (fun p => p.ch == ch && !p.done && p.sectors.contains sec)
/-- A read of a line is under way. -/
def lineComing (s : State) (ln : Nat) : Bool :=
  s.ports.any (fun p => (p.kind == .readLine || p.kind == .readSector) && p.ch == channelOf (64 * ln)
    && p.sector / 2 == sectorOf (64 * ln) / 2)

/-- The bytes of n sectors from an address, and their full/empty bits. -/
def sectorData (s : State) (a n : Nat) : List Byte := s.mem.readBytes (a / 32 * 32) (32 * n)
def sectorBits (s : State) (a n : Nat) : List Bool := (List.range (4 * n)).map (fun j => s.mem.full (a / 32 * 4 + j))
/-- Sends a partial write of bytes and full/empty bits of one sector (R344). -/
def sendPartial (s : State) (a : Nat) (mask fe : List Bool) (ctx : Option Nat) : State :=
  s.sendPort a { kind := .partialWrite, mask := mask, feMask := fe, data := s.sectorData a 1, feVals := s.sectorBits a 1, ctx := ctx }

/-- Writes a line that leaves the slice back to memory (R344). A line of host memory is never dirty. -/
def writeBack (s : State) (x : L2Line) : State :=
  let a := 64 * x.line
  let half : Nat → List Bool → List Bool := fun h l => (l.drop (32 * h)).take 32
  let fe : Nat → List Bool := fun h => (x.feDirty.drop (4 * h)).take 4
  let d := fun h => (half h x.dirty).any (· == true) || (fe h).any (· == true)
  let v := fun h => (half h x.valid).all (· == true)
  if !isDevMem a then s
  else if d 0 && d 1 && v 0 && v 1 then
    s.sendPort a { kind := .writeLine, data := s.sectorData a 2, feVals := s.sectorBits a 2, ctx := x.ctx }
  else (List.range 2).foldl (fun s h =>
    let b := a + 32 * h
    if !d h then s
    else if v h then s.sendPort b { kind := .writeSector, data := s.sectorData b 1, feVals := s.sectorBits b 1, ctx := x.ctx }
    else s.sendPartial b (half h x.dirty) (fe h) x.ctx) s

/-! ### Sets and replacement of a slice (R228) -/

/-- The slice of a line, as a partition reaches it (R227). -/
def sliceFor (s : State) (p a : Nat) : Nat := homeSlice (s.firstGroup p) a

/-- A line lies in the set of slice `sl` that line `ln` would enter. -/
def inSet (sl ln : Nat) (x : L2Line) : Bool :=
  !x.buffer && x.slice == sl && Config.l2Set x.line % Config.l2Sets == Config.l2Set ln % Config.l2Sets

/-- The line a full set gives up: the least recently used that is not retained, or, where all are, the least recently used. -/
def l2Victim (s : State) (sl ln : Nat) : Option L2Line :=
  let xs := s.l2.filter (inSet sl ln)
  match xs.find? (fun x => !x.retain) with
  | some x => some x
  | none => xs.head?

/-- A way of its set for a new line, the victim written back. -/
def roomFor (s : State) (sl ln : Nat) : State :=
  if (s.l2.filter (inSet sl ln)).length < Config.l2Ways then s
  else match s.l2Victim sl ln with
    | none => s
    | some x => let s1 := s.writeBack x; { s1 with l2 := s1.l2.filter (fun y => y.line != x.line) }

/-- Puts bytes of a line into its slice as valid, and as dirty, with full/empty bits, where they were written; a line not held yet
takes a way of its set. DESIGN CHOICE: log entry 11. -/
def allocate (s : State) (u : HomeUse) (ln : Nat) (valid dirty fe : List Bool) : State :=
  let join : List Bool → List Bool → List Bool := fun a b => a.mapIdx (fun i x => x || b.getD i false)
  let sl := s.sliceFor u.part (64 * ln)
  let wrote := dirty.any (· == true) || fe.any (· == true)
  let upd : L2Line → L2Line := fun x => if x.line == ln then
    { x with valid := join x.valid valid, dirty := join x.dirty dirty, feDirty := join x.feDirty fe, ctx := if wrote then u.ctx else x.ctx } else x
  let new : L2Line :=
    { line := ln, slice := sl, valid := valid, dirty := dirty, feDirty := join (List.replicate 8 false) fe, retain := u.policy == 2
      ctx := if wrote then u.ctx else none, entering := u.policy == 1, buffer := u.policy == 3 }
  if s.l2.any (fun x => x.line == ln) then { s with l2 := s.l2.map upd }
  else if u.policy == 3 then { s with l2 := s.l2 ++ [new] }
  else let s1 := s.roomFor sl ln; { s1 with l2 := if u.policy == 1 then new :: s1.l2 else s1.l2 ++ [new] }

/-- A use of a line makes it the most recently used; the access under evict-first that brought it in is no use. -/
def useLine (s : State) (ln : Nat) : State :=
  match s.l2.find? (fun x => x.line == ln) with
  | none => s
  | some x =>
    if x.entering then { s with l2 := s.l2.map (fun y => if y.line == ln then { y with entering := false } else y) }
    else { s with l2 := s.l2.filter (fun y => y.line != ln) ++ [x] }

/-- The part of a line whose bytes `p` picks. -/
def lineMask (ln : Nat) (p : Nat → Bool) : List Bool := (List.range 64).map (fun i => p (64 * ln + i))
def noBytes : List Bool := List.replicate 64 false

/-- Double-bit errors in clean words of lines: the slices drop the lines (R346), each word an uncorrectable event (R354). -/
def cleanL2 (s : State) (keys : List Nat) : State :=
  let lines := (keys.map lineOf).dedup
  let hit : SramWord → Bool := fun e => match e with
    | .l2 w => lines.contains (w / 8) && !s.dirtyLost (8 * w)
    | _ => false
  let words := s.sram.filter hit
  let bad : L2Line → Bool := fun x => words.any (fun e => match e with
    | .l2 w => w / 8 == x.line
    | _ => false)
  if words.isEmpty then s
  else words.foldl (fun s _ => s.countLost) { s with l2 := s.l2.filter (fun x => !bad x), sram := s.sram.filter (fun e => !hit e) }

/-! ### What an access does in the slices (R140, R228, R344, R345, R349) -/

/-- The frames a context has performed a translated access in (R349). -/
def noteFrames (s : State) (u : HomeUse) (keys : List Nat) : State :=
  match u.ctx with
  | none => s
  | some cid =>
    let fs := ((keys.filter isDevMem).map (fun k => k / 65536)).dedup
    { s with frameCtx := fs.map (fun f => (f, cid)) ++ s.frameCtx.filter (fun x => !fs.contains x.1) }

/-- A byte of device memory that an access needs in its slice and does not find: one of an uncorrectable sector is never installed. -/
def lacks (s : State) (k : Nat) : Bool := isDevMem k && !s.badSector k && !s.l2Has k

/-- A slice reads a sector of memory for an access, and holds it unless the page is uncached (R140): the request is sent, performed and
answered in the event of the access. DESIGN CHOICE: log entry 11. -/
def bringSector (s : State) (u : HomeUse) (sec : Nat) : State :=
  let a := 32 * sec
  let ch := channelOf a
  if (s.freeTag ch).isNone || s.portAhead ch (sectorOf a) then s.noTag
  else
    let r := s.readSector ch (sectorOf a)
    if r.1 == 2 || u.attr == 2 then r.2
    else r.2.allocate u (lineOf a) (lineMask (lineOf a) (fun k => k / 32 == sec)) noBytes []

/-- The lines of places that an access has used: lines of host memory are held whole and clean (R293), the lines are the most recently
used, those held for an uncached access alone leave (R140), and the frames are noted. -/
def touchLines (s : State) (u : HomeUse) (keys : List Nat) : State :=
  let ks := keys.filter (fun k => !isScratch k)
  let lines := (ks.map lineOf).dedup
  let s1 := if u.attr == 2 then s else ((ks.filter isHostMem).map lineOf).dedup.foldl (fun s ln =>
    s.allocate u ln (lineMask ln (fun _ => true)) noBytes []) s
  let s2 := lines.foldl useLine s1
  let s3 := if u.attr == 2 then { s2 with l2 := s2.l2.filter (fun x => !(x.buffer && lines.contains x.line)) } else s2
  s3.noteFrames u ks

/-- Reads at the homes: what the slices lack comes from memory. An uncached read always reaches memory (R140). -/
def homeReads (s : State) (u : HomeUse) (keys : List Nat) : State :=
  let ks := keys.filter (fun k => !isScratch k)
  let s1 := s.cleanL2 ks
  let secs := ((ks.filter (fun k => if u.attr == 2 then isDevMem k else s1.lacks k)).map (· / 32)).dedup
  (secs.foldl (fun s x => s.bringSector u x) s1).touchLines u ks

/-- A write at an old home of a migration marks its lines in the bitmap (R246). -/
def markBitmap (s : State) (keys : List Nat) : State :=
  s.migrations.foldl (fun s m => match m.phase with
    | .round _ =>
      let lines := ((keys.filter (fun k => decide (m.old ≤ k) && decide (k < m.old + m.size))).map (fun k => (k - m.old) / 64)).dedup
      { s with mem := lines.foldl (fun x i => x.setByte (m.bitmap + i / 8) (x.byte (m.bitmap + i / 8) ||| BitVec.ofNat 8 (2 ^ (i % 8)))) s.mem }
    | _ => s) s

/-- One line of a write: its bytes, and its full/empty bits. A cacheable one stays dirty in the slice; a write-combining or uncached one
goes to memory as partial writes, and a line that is held gets its bytes too (R140, R344). DESIGN CHOICE: log entry 11. -/
def writeLine (s : State) (u : HomeUse) (keys words : List Nat) (ln : Nat) : State :=
  let m := lineMask ln keys.contains
  let fe := (List.range 8).map (fun j => words.contains (8 * ln + j))
  if !isDevMem (64 * ln) then s
  else if u.attr == 0 then s.allocate u ln m m fe
  else
    let s1 := if u.attr == 1 || s.l2.any (fun x => x.line == ln) then s.allocate u ln m noBytes [] else s
    (List.range 2).foldl (fun s h =>
      let mh := (m.drop (32 * h)).take 32
      let fh := (fe.drop (4 * h)).take 4
      if mh.any (· == true) || fh.any (· == true) then s.sendPartial (64 * ln + 32 * h) mh fh u.ctx else s) s1

/-- What a write at its homes does beside the write itself: bytes at `keys`, and the full/empty bits of `words`. -/
def homeWrote (s : State) (u : HomeUse) (keys words : List Nat) : State :=
  let ks := (keys ++ words.map (8 * ·)).filter (fun k => !isScratch k)
  (((ks.map lineOf).dedup.foldl (fun s ln => s.writeLine u keys words ln) s).markBitmap ks).touchLines u ks

/-- The keys of a place: its bytes, and the byte of an element's own full/empty bit. -/
def placeKeys (l : Loc) : List Nat :=
  l.keys ++ (match l.elem with
    | some (_, _, some (k, _)) => [k]
    | _ => [])

/-- The same for a write at a place: of its data, of its bit, or of both. -/
def placeWrote (s : State) (u : HomeUse) (l : Loc) (data bit : Bool) : State :=
  if l.keys.any isScratch then s
  else
    let d := if data then l.keys else []
    match l.elem with
    | some (_, _, some (k, _)) => s.homeWrote { u with attr := l.attr } (if bit then d ++ [k] else d) []
    | _ => s.homeWrote { u with attr := l.attr } d (if bit then l.words else [])

/-- Device writes to host memory are seen by the host at a time of its own (R160, R293). -/
def hostSees (s : State) (fibre : Option Nat) (part : Nat) (node : Option Nat) (keys : List Nat) : State :=
  if keys.any isHostMem then
    let r := s.pick (2 ^ 32)
    { r.2 with hostVisible := ⟨fibre, part, node, s.time + r.1⟩ :: r.2.hostVisible.filter (fun v => decide (s.time < v.till)) }
  else s

/-- The writes of a node to host memory are visible to the host (R299, R303). -/
def hostSeen (s : State) (part node : Nat) : Bool :=
  s.hostVisible.all (fun v => v.part != part || v.node != some node || decide (v.till ≤ s.time))

end State

/-! ### Stage 2 (R237) -/

/-- What an access needs: bit 0 R, bit 1 W, bit 2 X. -/
inductive Need where
  | read | write | atomic | fetch
  deriving DecidableEq, Repr

def Need.bits : Need → Nat
  | .read => 1
  | .write => 2
  | .atomic => 3
  | .fetch => 4
/-- The kind code of a page request (R244). -/
def Need.kind : Need → Nat
  | .read => 0
  | .write => 1
  | .atomic => 2
  | .fetch => 3

def RangeEntry.valid (e : RangeEntry) : Bool := e.control.getLsbD 0
def RangeEntry.perm (e : RangeEntry) : Nat := (e.control.extractLsb' 1 3).toNat
def RangeEntry.cap (e : RangeEntry) : Nat := (e.control.extractLsb' 4 2).toNat

/-- The lowest-numbered entry that matches. -/
def Part.range (p : Part) (gpa : Nat) : Option RangeEntry :=
  p.ranges.find? (fun e => e.valid && decide (e.base.toNat ≤ gpa) && decide (gpa < e.limit.toNat))

def covers (perm need : Nat) : Bool := perm &&& need == need

/-- Stage 2: host physical address and cap, or the cause. -/
def Part.stage2 (p : Part) (gpa need : Nat) : Except Nat (Nat × Nat) :=
  match p.range gpa with
  | none => .error 3
  | some e => if covers e.perm need then .ok ((gpa + e.offset.toNat) % 2 ^ 52, e.cap) else .error 4

end Sys2Proof.Machine
end

