-- ==== Sys2Proof/Machine/Holds.lean ====
section
/-! DEFINITION. Sys2Proof/Machine/Holds.lean: layer references (R330), layer entries at their homes (R326), hold counts (R332). -/

namespace Sys2Proof.Machine

/-- A layer reference's fields (R330). -/
def refGen (r : DWord) : Nat := (r.extractLsb' 24 4).toNat
def refModel (r : DWord) : Nat := (r.extractLsb' 18 6).toNat
def refLayer (r : DWord) : Nat := (r.extractLsb' 0 12).toNat
def layerRefOf (gen m l : Nat) : DWord := BitVec.ofNat 64 (gen * 2 ^ 24 + m * 2 ^ 18 + l)

namespace State

def modelRec (s : State) (p m : Nat) : ModelRec := (s.part p).models.getD m .zero

/-- The key of layer l's entry: one line, one home (R326). -/
def layerKey (s : State) (p m l : Nat) : Nat :=
  match (s.part p).stage2 ((s.modelRec p m).table.toNat + 64 * l) 1 with
  | .ok (hpa, _) => s.forward hpa
  | .error _ => 0

/-- The hold count of a layer (R326). -/
def holdCount (s : State) (p m l : Nat) : Nat := s.mem.read (s.layerKey p m l + 8) 4

/-- Adds to a layer's hold count; the time at which it becomes 0 is kept for R334. -/
def addHold (s : State) (p m l : Nat) (up : Bool) : State :=
  let h := s.holdCount p m l
  let h1 := if up then (h + 1) % 2 ^ 32 else h - 1
  let keys := (List.range 4).map (fun i => s.layerKey p m l + 8 + i)
  let s0 := s.homeReads { part := p } keys
  let s1 := { s0 with mem := s0.mem.write (s.layerKey p m l + 8) 4 h1 }.homeWrote { part := p } keys []
  let upd : LayerSt → LayerSt := fun y =>
    if y.model == m && y.layer == l then { y with zeroAt := if h1 == 0 then s.time else y.zeroAt, wasHeld := true } else y
  s1.updPart p (fun x => { x with layers := x.layers.map upd })

/-- Count of a launch's hold on a layer. -/
def Launch.held (l : Launch) (m ly : Nat) : Nat :=
  match l.holds.find? (fun h => h.1 == m && h.2.1 == ly) with
  | some h => h.2.2
  | none => 0

/-- The hold table with one more, or one fewer, on a layer; an entry at 0 is free. -/
def Launch.bumpHold (l : Launch) (m ly : Nat) (up : Bool) : Launch :=
  let n := Launch.held l m ly
  let n1 := if up then n + 1 else n - 1
  let rest := l.holds.filter (fun h => !(h.1 == m && h.2.1 == ly))
  { l with holds := if n1 == 0 then rest else rest ++ [(m, ly, n1)] }

/-- Room in a launch's hold table for a layer. -/
def Launch.roomFor (l : Launch) (m ly : Nat) : Bool := decide (0 < Launch.held l m ly) || decide (l.holds.length < 64)

/-- The two increments of LAYACQ, or their taking back, for a fibre's launch. -/
def holdFor (s : State) (gid : Nat) (r : DWord) (up : Bool) : State :=
  match s.gang gid with
  | none => s
  | some g => match s.launch g.launch with
    | none => s
    | some l => (s.addHold g.part (refModel r) (refLayer r) up).setLaunch (Launch.bumpHold l (refModel r) (refLayer r) up)

/-- A LAYACQ leaves its list without having been performed: its increments are taken back (R332). This waits for no tag.
DESIGN CHOICE: log entry 11. -/
def dropAcquire (s : State) (a : Access) : State :=
  match a.op, a.phase with
  | .layacq, .waiting .. => { s.holdFor a.gang a.addr false with portWait := s.portWait }
  | .layacq, .refused => { s.holdFor a.gang a.addr false with portWait := s.portWait }
  | _, _ => s

end State

end Sys2Proof.Machine
end

