-- ==== Sys2Proof/Machine/Ops.lean ====
section
/-! DEFINITION. Sys2Proof/Machine/Ops.lean: the named operations on the state that meanings share: event counters, results
and bands; taking an exception and returning from one (R94 to R100, R171, R172, R380, R381); the end of
an issue group (R15, R72, R76, R98, R103); the end of a fibre and of a context (R81, R245). -/

namespace Sys2Proof.Machine

/-! ### Event counters (R186, R187) -/

/-- Adds n to every counter of a core that is enabled for event e; a counter that wraps sets its bit of the status word. -/
def CoreSt.count (c : CoreSt) (e n : Nat) : CoreSt :=
  (List.range 8).foldl (fun c i =>
    let sel := c.selectors.getD i 0
    if sel.getLsbD 8 && (sel.extractLsb' 0 8).toNat == e && !c.muted.getD i false && decide (e ≤ 0x19) then
      let v := c.counters.getD i 0 + n
      { c with counters := c.counters.set i (v % 2 ^ 48)
               ctrStatus := if 2 ^ 48 ≤ v then c.ctrStatus ||| BitVec.ofNat 64 (2 ^ i) else c.ctrStatus }
    else c) c
def State.count (s : State) (core e n : Nat) : State := s.updCore core (fun c => c.count e n)

/-! ### Outstanding results (R25, R26) -/

/-- An access that a switch marker still waits for: its value, or the acknowledgement that sets %HORIZON (R25). -/
def Access.outstanding (a : Access) : Bool :=
  match a.op with
  | .fence .. => false
  | .pref => false
  | _ => match a.phase with
    | .kept _ => false
    | _ => true

/-- A side-log entry that its fibre still waits for: an atomic that returns a value, or a filling store (R242, R243). -/
def LogEntry.valued (e : LogEntry) : Bool :=
  match e.acc.op with
  | .rmw _ _ _ ret => ret
  | .store _ .filling _ => true
  | .stt .filling .. => true
  | _ => false

/-- Waits that let a band split at a switch marker (R76). -/
def Access.splits (a : Access) : Bool :=
  match a.phase with
  | .waiting .. => true
  | .held => true
  | .refused => true
  | _ => match a.op with
    | .layacq => true
    | .sign _ => true
    | _ => false

namespace State
/-- A pre-emption has withdrawn an access of fibre k (R173 step 2). -/
def withdrawn (s : State) (k : Nat) : Bool :=
  (s.fibre k).ctl.pendAcc && (s.gang (s.fibre k).gang).any (fun g => g.phase == .draining)
/-- Fibre k waits for a variable-latency result. -/
def outstanding (s : State) (k : Nat) : Bool :=
  s.results.any (fun r => r.fibre == k) || s.accesses.any (fun a => a.fibre == k && a.outstanding) || s.withdrawn k
    || s.sideLog.any (fun e => e.acc.fibre == k && e.valued)
/-- What fibre k waits for lets its band split. -/
def splitWait (s : State) (k : Nat) : Bool :=
  s.accesses.any (fun a => a.fibre == k && a.outstanding && a.splits) || s.withdrawn k
    || s.sideLog.any (fun e => e.acc.fibre == k && e.valued)
/-- Adds a result under way. -/
def addResult (s : State) (r : Result) : State := { s with results := s.results ++ [{ r with id := s.nextId }] }.bump
end State

/-! ### Bands (R75 to R77) -/

/-- Insertion by lane. -/
def insertBy (key : Nat → Nat) (k : Nat) : List Nat → List Nat
  | [] => [k]
  | x :: t => if key k ≤ key x then k :: x :: t else x :: insertBy key k t
def sortBy (key : Nat → Nat) : List Nat → List Nat
  | [] => []
  | x :: t => insertBy key x (sortBy key t)

namespace State
/-- Takes fibres out of every band; a band left empty disappears. -/
def unband (s : State) (ks : List Nat) : State :=
  let bs := s.bands.map (fun b => { b with members := b.members.filter (fun k => !ks.contains k) })
  { s with bands := bs.filter (fun b => !b.members.isEmpty) }
/-- A new band of fibres of one crew. -/
def newBand (s : State) (ks : List Nat) (park : Park) : State :=
  match ks with
  | [] => s
  | k :: _ =>
    let f := s.fibre k
    let b : Band := { bid := s.nextId, gang := f.gang, crew := f.crew
                      members := sortBy (fun k => (s.fibre k).idx) ks, park := park }
    { s with bands := s.bands ++ [b] }.bump
/-- New bands of fibres, one per PC (R76). -/
def bandsByPc (s : State) (ks : List Nat) (park : Park) : State :=
  let pcs := (ks.map (fun k => (s.fibre k).ctl.pc)).dedup
  pcs.foldl (fun s pc => s.newBand (ks.filter (fun k => (s.fibre k).ctl.pc == pc)) park) s
/-- Fibres that go on: one band per next PC, parked where they have issued a YIELD (R76, R83). -/
def goOn (s : State) (ks : List Nat) : State :=
  let pcs := (ks.map (fun k => (s.fibre k).ctl.pc)).dedup
  let s1 := pcs.foldl (fun s pc =>
    let m := ks.filter (fun k => (s.fibre k).ctl.pc == pc)
    s.newBand m (match m.findSome? (fun k => (s.fibre k).ctl.yielding) with
      | some (till, others) => .yielded till others
      | none => .none)) s
  s1.updCtls ks (fun _ c => { c with yielding := none })
end State

/-! ### The end of a context (R245, R350, R358) and of a fibre (R81) -/

/-- A record of a context's fault queue (R244). -/
def Context.note (c : Context) (kind value : Nat) : Context :=
  { c with fatal := c.fatal ++ [(kind, value)], fqTail := (c.fqTail + 1) % 2 ^ c.fqSize }

/-- The status value of a job (R208). -/
def Job.status (j : Job) : Nat :=
  (if j.kind == .copy then j.sat else j.pos) % 2 ^ 32 * 2 ^ 32 + j.error * 2 ^ 24 + 32
    + (if j.kind == .matrix then j.flags.toNat else 0)

namespace State
/-- The deques of the cores that a forkable gang runs on are empty (R169, R177). -/
def clearDeques (s : State) (g : Gang) : State :=
  if g.forkable then ((List.range g.size).map g.core).foldl (fun s c => s.updCore c (fun x => { x with dq := [], dqCount := 0 })) s
  else s
/-- A gang of a context. -/
def ofContext (s : State) (cid gid : Nat) : Bool := (s.gang gid).any (fun g => g.ctx == cid)
/-- A swap-in goes on without the nodes of a context that has ended, and tries again what it waited for (R332). -/
def leaveSwap (p : Part) (cid : Nat) (w : Swap) : Swap :=
  { w with
    nodes := w.nodes.filter (fun n => !p.nodes.any (fun x => x.n == n && x.node.any (fun d => d.ctx == cid)))
    stallRange := if w.stallRange.any (fun x => x.1 == cid) then none else w.stallRange }

/-- Ends a context with a fatal record: its gangs stop, its accesses, results and side-log entries are dropped, waiting LAYACQs with
their increments (R332), its jobs end with error 6, which its fault queue records as well (R209), and its launches end with error 3. -/
def endContext (s0 : State) (cid kind value : Nat) : State :=
  let s := (s0.accesses.filter (fun a => s0.ofContext cid a.gang)).foldl dropAcquire s0
  let mine := s.ofContext cid
  let fs := (List.range s.fibres.length).filter (fun k => mine (s.fibre k).gang)
  let ended := s.jobs.filter (fun j => j.ctx == cid && j.phase != .complete)
  let runs := s.gangs.filter (fun g => g.ctx == cid && g.phase != .waiting && g.phase != .saved && g.phase != .ended)
  runs.foldl (fun s g => s.clearDeques g) { s with
    contexts := s.contexts.map (fun c => if c.id == cid then
      { ended.foldl (fun c j => c.note 4 { j with error := 6 }.status) (c.note kind value) with
        live := false, gen := (c.gen + 1) % 16, requests := [] } else c)
    fibres := s.fibres.mapIdx (fun k f => if fs.contains k then { f with live := false } else f)
    bands := s.bands.filter (fun b => !mine b.gang)
    results := s.results.filter (fun r => !fs.contains r.fibre)
    accesses := s.accesses.filter (fun a => !mine a.gang)
    sideLog := s.sideLog.filter (fun e => e.ctx != cid)
    issue := if mine s.issue.gang then .idle else s.issue
    jobs := s.jobs.map (fun j => if j.ctx == cid && j.phase != .complete then
      { j with phase := .complete, error := 6, stalled := false } else j)
    linkJobs := s.linkJobs.map (fun j => if j.ctx == cid && decide (j.stage < 2) then { j with stage := 2, error := 6 } else j)
    gangs := s.gangs.map (fun g => if g.ctx == cid then { g with phase := .ended, staged := [], stagedPosts := [] } else g)
    launches := s.launches.map (fun l => if l.ctx == cid then { l with error := 3 } else l)
    parts := s.parts.map (fun p => { p with swaps := p.swaps.map (leaveSwap p cid), nodes := p.nodes.map (fun n => match n.node with
      | some d => if d.ctx == cid && d.phase == .dispatched then { n with node := some { d with phase := .ended 3 0 } }
                  else n
      | none => n) }) }

/-- Ends fibres: they stop being live (R81), and no job writes to them any more (R217). -/
def endFibres (s : State) (ks : List Nat) : State :=
  let gone : Option Nat → Option Nat := fun f => match f with
    | some k => if ks.contains k then none else some k
    | none => none
  let s1 := (s.updFibres ks (fun _ f => { f with live := false, ctl := { f.ctl with after := .next } })).unband ks
  { s1 with jobs := s1.jobs.map (fun j => { j with fibre := gone j.fibre, signer := gone j.signer })
            linkJobs := s1.linkJobs.map (fun j => { j with fibre := gone j.fibre }) }
end State

/-! ### Taking a trap (R94 to R100, R171) -/

/-- The handler addresses of a gang (R171, R306, R359) and its save block (R312). -/
structure Handlers where
  tenant : DWord
  system : DWord
  save : DWord
  saveBlock : DWord
  deriving DecidableEq, Repr

def State.handlers (s : State) (gid : Nat) : Handlers :=
  match s.gang gid with
  | some g =>
    let p := s.part g.part
    { tenant := g.handler, system := p.syscode + 12 * p.sysEntry, save := p.syscode + 12 * p.saveEntry
      saveBlock := p.saveBase + p.saveBlk * BitVec.ofNat 64 (g.saveBlock.getD 0) }
  | none => ⟨0, 0, 0, 0⟩

/-- Class, cause and original of the trap a fibre takes: class 0x43 stands for a tenant trap with no tenant handler, or
in a handler (R171); where both hold the cause is 1. DESIGN CHOICE: log entry 79. -/
def trapClass (hd : Handlers) (h : Bool) (t : Trap) : Nat × Nat × Nat :=
  if t.cls < 0x40 && hd.tenant == 0 then (0x43, 1, t.cause % 256 * 256 + t.cls)
  else if t.cls < 0x40 && h then (0x43, 0, t.cause % 256 * 256 + t.cls)
  else (t.cls, t.cause, t.orig)

/-- The trap-record word %TCAUSE (R94). -/
def tcauseWord (cls cause orig : Nat) : Word := BitVec.ofNat 32 (orig * 65536 + cause % 256 * 256 + cls)
/-- %TINFO (R96). -/
def tinfoWord (lane count : Nat) : Word := BitVec.ofNat 32 (count * 65536 + lane)

/-- What a fibre saves for a system class (R171 step 1). -/
def Fibre.toShadow (f : Fibre) : Shadow :=
  { regs := (List.range 8).map f.regN, preds := f.preds, tcause := f.ctl.tcause, tinfo := f.ctl.tinfo
    trappc := f.ctl.trappc, tresume := f.ctl.tresume, taddr := f.ctl.taddr, h := f.ctl.h }

/-- One fibre takes a trap (R171): shadow and V for a system class, the record, H, and the handler entry. -/
def Fibre.enter (hd : Handlers) (t : Trap) (lane count : Nat) (resume : DWord) (f : Fibre) : Fibre :=
  let (cls, cause, orig) := trapClass hd f.ctl.h t
  let sys := decide (0x40 ≤ cls)
  { f with ctl := { f.ctl with
      shadow := if sys then f.toShadow else f.ctl.shadow
      v := f.ctl.v || sys
      tcause := tcauseWord cls cause orig
      tinfo := tinfoWord lane count
      trappc := t.pc
      tresume := resume
      taddr := if t.cls == 0x40 then hd.saveBlock else t.addr
      h := true
      pkt := if cls == 0x40 then hd.save else if sys then hd.system else hd.tenant
      slot := 0
      due := []
      pendTrap := f.ctl.pendTrap && cls == 0x40
      pendAt := if cls == 0x40 then f.ctl.pendAt else none
      after := .next
      yielding := none
      saving := f.ctl.saving || cls == 0x40 } }

/-- The ordinal of the last safe point at or before a PC, or 0xFFFF_FFFF (R182). -/
def ordinal (g : Gang) (pc : DWord) : Nat :=
  let w := (pc - g.codeBase).toNat / 4
  let n := (g.safePoints.filter (fun p => decide (3 * p.1 + p.2 ≤ w))).length
  if pc.toNat < g.codeBase.toNat || n == 0 then 0xFFFFFFFF else n - 1

/-- Queues one trace record, or counts it lost (R183). -/
def State.trace (s : State) (core : Nat) (data : List Byte) : State :=
  let c := s.core core
  let size := 2 ^ (c.trsize.toNat % 32)
  let used := c.trhead + c.trq.length
  if (used + 1) % size == c.trtail % size then s.updCore core (fun c => { c with trlost := (c.trlost + 1) % 2 ^ 48 })
  else (s.updCore core (fun c => { c with trq := c.trq ++ [⟨s.nextId, used % size, data, none⟩] })).bump

/-- The bytes of a record (R183). -/
def traceBytes (time cause fib ord ctx kind : Nat) : List Byte :=
  bytesOfNat 8 kind ++ bytesOfNat 4 ctx ++ bytesOfNat 4 ord ++ bytesOfNat 4 fib ++ bytesOfNat 4 cause ++ bytesOfNat 8 time

/-- %CTXID of a context (R69). -/
def Context.ctxidWord (c : Context) : Word := BitVec.ofNat 32 (c.ctxid * 16 + c.gen)

/-- The record of a trap that a band has taken, where the class taken is 0x01 to 0x1A or 0x41 and TE is 1 (R183). -/
def State.traceTrap (s : State) (k : Nat) (t : Trap) : State :=
  let f := s.fibre k
  let core := s.coreOf k
  let cls := f.ctl.tcause.toNat % 256
  match s.gang f.gang with
  | none => s
  | some g =>
    if (s.core core).trctl.getLsbD 0 && (decide (cls ≤ 0x1A) || cls == 0x41) then
      let ctx := match s.context g.ctx with
        | some c => c.ctxidWord.toNat
        | none => 0
      s.trace core (traceBytes (if g.det then f.ctl.retired.toNat else s.time) f.ctl.tcause.toNat
        (f.idx % 4096 + 4096 * (g.index % 2 ^ 20)) (ordinal g t.pc) ctx (if cls == 0x41 then 2 else 1))
    else s

/-- A trapping band takes its trap (R171): `ks` in ascending lane order, each with its own trap address and resume PC, all taking
one class, cause and original. A trap in a fibre whose V is set ends the context with a fatal fault. -/
def State.takeOne (s : State) (ks : List (Nat × Trap × DWord)) (lane count : Nat) : State :=
  match ks.filter (fun x => (s.fibre x.1).live) with
  | [] => s
  | (k0, t0, _) :: _ =>
    let f0 := s.fibre k0
    if ks.any (fun x => (s.fibre x.1).ctl.v) then
      match s.gang f0.gang with
      | some g => s.endContext g.ctx 1 (t0.cause * 256 + t0.cls)
      | none => s
    else
      let hd := s.handlers f0.gang
      let ids := ks.map (·.1)
      let s1 := s.updFibres ids (fun k f => match ks.find? (fun x => x.1 == k) with
        | some (_, t, r) => f.enter hd t lane count r
        | none => f)
      (((s1.unband ids).newBand ids .none).traceTrap k0 t0).count (s.coreOf k0) 0x16 1

/-- Class, cause and original of the trap that fibre k takes for t (R171). -/
def State.takenAs (s : State) (k : Nat) (t : Trap) : Nat × Nat × Nat :=
  let f := s.fibre k
  trapClass (s.handlers f.gang) f.ctl.h t

/-- Fibres take one trap: those that take it as one class form one trapping band (R171, R381). Without a lane of its own the record
names the band's lowest (R96). -/
def State.takeTrap (s : State) (ks : List (Nat × Trap × DWord)) (lane : Option Nat) (count : Nat) : State :=
  ((ks.map (fun x => s.takenAs x.1 x.2.1)).dedup).foldl (fun s1 c =>
    let m := ks.filter (fun x => s.takenAs x.1 x.2.1 == c)
    s1.takeOne m (lane.getD ((m.head?.map (fun x => (s.fibre x.1).lane)).getD 0)) count) s

/-- The pending trap of a fibre as index 71 describes it (R176), with the PC and the address that step 4 of R173 recorded; one that a
WRFS has made pending has the fibre's own PC and address 0. DEDUCED: log entry 55. -/
def Ctl.pending (c : Ctl) : Trap :=
  let w := c.pendCause
  let cls := w.toNat % 256
  { cls := cls, cause := w.toNat / 256 % 256, pc := (c.pendAt.map (·.1)).getD c.pc, addr := (c.pendAt.map (·.2)).getD 0
    flags := if cls == 4 then BitVec.ofNat 5 (w.toNat / 256) else 0, orig := w.toNat / 65536 }

/-- A fibre's trap at a point: the pending one (P, R176), else the one with the lowest PC among those due there (R381), with
its resume PC. DEDUCED: log entry 55. -/
def Ctl.pick (c : Ctl) : Option (Trap × DWord) :=
  if c.pendTrap && !c.v then some (c.pending, c.pc)
  else
    let own := c.due.map (fun t => (t, c.pc))
    let all := match c.after with
      | .vector t r => own ++ [(t, r)]
      | _ => own
    match all with
    | [] => none
    | x :: rest => some (rest.foldl (fun b y => if y.1.pc.toNat < b.1.pc.toNat then y else b) x)

/-- The enabled flags due in a fibre (R98, R99). -/
def Ctl.fpDue (c : Ctl) : Flags :=
  c.due.foldl (fun a t => if t.cls == 4 then a ||| t.flags else a)
    (if c.pendTrap && !c.v then c.pending.flags else 0)

/-- A legal transfer target: code base + 12n, or + 12n + 4s for RETT (R16). -/
def targetOk (base target : DWord) (word : Bool) : Bool :=
  decide (base.toNat ≤ target.toNat) && (target.toNat - base.toNat) % (if word then 4 else 12) == 0

/-- RETT in one fibre, before the target is tested (R172). -/
def Fibre.leave (f : Fibre) : Fibre :=
  let c := f.ctl
  if c.v then
    let sh := c.shadow
    let f1 := f.setRegs ((List.range 8).zip sh.regs)
    { f1 with preds := sh.preds, ctl := { c with
        tcause := sh.tcause, tinfo := sh.tinfo, trappc := sh.trappc, tresume := sh.tresume, taddr := sh.taddr
        h := sh.h, v := false, after := .next, saving := false, saved := false
        restored := c.restored || c.restoring, restoring := false } }
  else { f with ctl := { c with h := false, after := .next } }

/-- A PC from a byte address of a word. -/
def Ctl.goto (c : Ctl) (base target : DWord) : Ctl :=
  let o := target - base
  let slot := o.toNat % 12 / 4
  { c with pkt := target - BitVec.ofNat 64 (4 * slot), slot := slot }

/-! ### Pending accesses (R145, R175, R176, R178) -/

/-- The coordinates of a linear index. -/
def Region.coords (r : Region) (n : Nat) : List Nat :=
  ((List.range r.dims).reverse.foldl (fun (a : List Nat × Nat) d =>
    ((a.2 % r.extents.getD d 1) :: a.1, a.2 / r.extents.getD d 1)) ([], n)).1
/-- The region a handle names in a context (R257). -/
def State.regionOf (s : State) (ctx : Nat) (h : DWord) : Option Region :=
  if h.extractLsb' 32 32 != 0 || h.extractLsb' 12 8 != 0 then none
  else s.regions.find? (fun r => r.ctx == ctx && r.index == (h.extractLsb' 0 12).toNat
    && r.check == (h.extractLsb' 20 12).toNat)

/-- The size, operation and first destination of an access presented again from its word, address, index 75 and stored
data (R175, R178); none when the word is no M-format word and no BARW, SIGN or LAYACQ. -/
def pendingOp (i : Instr) (coords : List Word) (window extra data : Nat) : Option (AOp × Nat) :=
  let form : BitVec 3 → Form := fun q => match q.toNat with
    | 1 => .waiting
    | 2 => .consuming
    | 3 => .filling
    | 4 => .forceFill
    | 5 => .forceEmpty
    | _ => .plain
  let op : BitVec 3 → Rmw := fun q => match q.toNat with
    | 0 => .add
    | 1 => .minS
    | 2 => .minN
    | 3 => .maxS
    | 4 => .maxN
    | 5 => .and
    | 6 => .or
    | _ => .xor
  let fop : BitVec 3 → Rmw := fun q => match q.toNat with
    | 0 => .fadd
    | 1 => .fmin
    | _ => .fmax
  let lo : Nat → Nat := fun n => data % 2 ^ (8 * n)
  match i with
  | .ldb _ q d .. => some (.load 1 false (form q), d.toNat)
  | .ldbs _ q d .. => some (.load 1 true (form q), d.toNat)
  | .ldh _ q d .. => some (.load 2 false (form q), d.toNat)
  | .ldhs _ q d .. => some (.load 2 true (form q), d.toNat)
  | .ldw _ q d .. => some (.load 4 false (form q), d.toNat)
  | .ldd _ q d .. => some (.load 8 false (form q), 2 * d.toNat)
  | .ldq _ q d .. => some (.load 16 false (form q), 2 * d.toNat)
  | .stb _ q .. => some (.store 1 (form q) (lo 1), 0)
  | .sth _ q .. => some (.store 2 (form q) (lo 2), 0)
  | .stw _ q .. => some (.store 4 (form q) (lo 4), 0)
  | .std _ q .. => some (.store 8 (form q) (lo 8), 0)
  | .stq _ q .. => some (.store 16 (form q) (lo 16), 0)
  | .ldt _ q d .. => some (.ldt (form q) coords window (d.getLsbD 0), d.toNat)
  | .stt _ q d .. => some (.stt (form q) coords window (d.getLsbD 0) (lo 8), d.toNat)
  | .atom _ q d .. => some (.rmw 4 (op q) (lo 4) true, d.toNat)
  | .atomn _ q .. => some (.rmw 4 (op q) (lo 4) false, 0)
  | .atomd _ q d .. => some (.rmw 8 (op q) (lo 8) true, 2 * d.toNat)
  | .atomdn _ q .. => some (.rmw 8 (op q) (lo 8) false, 0)
  | .atomf _ q d .. => some (.rmw 4 (fop q) (lo 4) true, d.toNat)
  | .atomfn _ q .. => some (.rmw 4 (fop q) (lo 4) false, 0)
  | .xchg _ d .. => some (.rmw 4 .swap (lo 4) true, d.toNat)
  | .cas _ d .. => some (.rmw 4 (.cas (lo 4)) (data / 2 ^ 32 % 2 ^ 32) true, 2 * d.toNat)
  | .casd _ d .. => some (.rmw 8 (.cas (lo 8)) (data / 2 ^ 64 % 2 ^ 64) true, 2 * d.toNat)
  | .tagr _ d .. => some (.tagr, d.toNat)
  | .tags .. => some (.tags (data % 2 == 1), 0)
  | .pref .. => some (.pref, 0)
  | .barw _ d .. => some (.barw (extra % 65536), d.toNat)
  | .sign _ k => some (.sign k.toNat, 0)
  | .layacq .. => some (.layacq, 0)
  | _ => none

/-- Index 75 and the stored data of an access that is withdrawn (R175). DESIGN CHOICE: log entry 55. -/
def AOp.saved (op : AOp) (lin : List Word → Nat) : Nat × Nat :=
  match op with
  | .store _ _ d => (0, d)
  | .rmw n (.cas e) x _ => (0, e + 2 ^ (8 * n) * x)
  | .rmw _ _ x _ => (0, x)
  | .tags b => (0, if b then 1 else 0)
  | .ldt _ cs _ _ => (lin cs, 0)
  | .stt _ cs _ _ d => (lin cs, d)
  | .barw w => (w, 0)
  | _ => (0, 0)

/-- Fibre k's pending access as it is presented again (R176, R178); none where index 72 holds no word of such an access. -/
def State.pendingAccess (s : State) (k : Nat) : Option Access :=
  let f := s.fibre k
  let c := f.ctl
  match s.gang f.gang, decodeAt [c.accWord, 0] with
  | some g, .ok i =>
    let data := (c.accData.getD 0 0).toNat + 2 ^ 32 * (c.accData.getD 1 0).toNat + 2 ^ 64 * (c.accData.getD 2 0).toNat
      + 2 ^ 96 * (c.accData.getD 3 0).toNat
    let cs := match s.regionOf g.ctx c.accAddr with
      | some r => (r.coords c.accExtra.toNat).map (fun n => BitVec.ofNat 32 n)
      | none => []
    (pendingOp i cs cs.length c.accExtra.toNat data).map (fun od =>
      { id := s.nextId, batch := s.nextId, fibre := k, gang := f.gang, core := g.core f.wg, pc := c.pc, word := c.accWord
        dst := od.2, addr := c.accAddr, op := od.1, policy := if c.accWord.extractLsb' 24 2 == 2 then (c.accWord.extractLsb' 3 2).toNat else 0
        budget := c.budget.toNat, arrived := none, phase := .issued, released := false, sys := c.v })
  | _, _ => none

/-- The accesses of fibre k that a pre-emption left over stand behind the recorded one again (R149, R173). -/
def State.reissue (s : State) (k : Nat) : State :=
  let mine : Access → Bool := fun a => a.fibre == k && a.phase == .kept false
  (s.accesses.filter mine).foldl (fun s a => { s with accesses := s.accesses ++ [{ a with id := s.nextId, phase := .issued }] }.bump)
    { s with accesses := s.accesses.filter (fun a => !mine a) }

/-- Fibres present their pending accesses again as new arrivals, with those left over behind them (R176, R178). -/
def State.presentAgain (s : State) (ks : List Nat) : State :=
  ks.foldl (fun s k =>
    let s1 := match (s.fibre k).ctl.pendAcc, s.pendingAccess k with
      | true, some a => { s with accesses := s.accesses ++ [a] }.bump
      | _, _ => s
    s1.reissue k) s

/-- What the fibres of one trapping band have in common (R381): the class, cause and original they take, and the PC. -/
def State.trapKey (s : State) (k : Nat) (t : Trap) : (Nat × Nat × Nat) × DWord := (s.takenAs k t, t.pc)

/-- Splits picks into trapping bands (R381) and lets each take its trap. -/
def State.takeGroups (s : State) (picks : List (Nat × Trap × DWord)) : State :=
  ((picks.map (fun p => s.trapKey p.1 p.2.1)).dedup).foldl (fun s1 key =>
    let ks := picks.filter (fun p => s.trapKey p.1 p.2.1 == key)
    s1.takeTrap ks (ks.head?.bind (fun p => p.2.1.lane)) 0) s

/-- Fibres resume: those with A = 1 present their accesses again and wait for them as at a switch marker, or take the
illegal-instruction trap where index 72 holds none (R176, R178). DEDUCED: log entry 22. -/
def State.resumeAccess (s : State) (ks : List Nat) : State :=
  let bad := ks.filter (fun k => (s.fibre k).ctl.pendAcc && (s.pendingAccess k).isNone)
  let s1 := (s.presentAgain ks).updCtls ks (fun _ c => { c with pendAcc := false })
  let waits := ks.filter (fun k => !bad.contains k && s1.accesses.any (fun a => a.fibre == k && a.outstanding)
    && s1.bands.any (fun b => b.park == .none && b.members.contains k))
  let crews := (waits.map (fun k => (s.fibre k).crew)).dedup
  let s2 := crews.foldl (fun s c => s.bandsByPc (waits.filter (fun k => (s.fibre k).crew == c)) .marker) (s1.unband waits)
  s2.takeGroups (bad.map (fun k =>
    let pc := (s.fibre k).ctl.pc
    (k, { cls := 1, cause := 9, pc := pc, addr := 0, flags := 0 }, pc)))

/-- The last step of restoring a gang: once every live fibre has executed RETT the gang runs again (R178); one chosen as a
victim meanwhile goes on to be pre-empted (R311). -/
def State.tryResume (s : State) (gid : Nat) : State :=
  match s.gang gid with
  | none => s
  | some g =>
    let ks := s.liveOf gid
    if (g.phase == .restoring || (g.phase == .preempting && !ks.isEmpty)) && ks.all (fun k => (s.fibre k).ctl.restored) then
      let s1 := s.setGang (if g.phase == .restoring then { g with phase := .resident, saveBlock := none } else g)
      (s1.updCtls ks (fun _ c => { c with restored := false })).resumeAccess ks
    else s

/-- Fibres whose RETT has waited for their results transfer (R172): to %TRESUME as the group read it (R22), or class 0x05 as an
ordinary trap of the state they return to. -/
def State.returnFrom (s : State) (ks : List Nat) : State :=
  let rett : Nat → DWord × DWord := fun k => match (s.fibre k).ctl.after with
    | .rett pc t => (pc, t)
    | _ => (0, 0)
  let tgt : Nat → DWord := fun k => (rett k).2
  let base : Nat → DWord := fun k =>
    let f := s.fibre k
    match s.gang f.gang with
    | some g => g.codeBase
    | none => 0
  let good := ks.filter (fun k => targetOk (base k) (tgt k) true)
  let bad := ks.filter (fun k => !targetOk (base k) (tgt k) true)
  let s1 := (s.updFibres ks (fun _ f => f.leave)).updCtls good (fun k c => c.goto (base k) (tgt k))
  let s2 := (s1.unband ks).goOn good
  let s3 := match bad with
    | [] => s2
    | _ => s2.takeTrap (bad.map (fun k => (k, { cls := 5, cause := 0, pc := (rett k).1, addr := tgt k, flags := 0 },
        (s2.fibre k).ctl.pc))) none 0
  -- fibres of a gang that is being restored resume together, once the last has returned
  let s4 := s3.resumeAccess (ks.filter (fun k => (s.fibre k).ctl.v && !(s3.fibre k).ctl.restored))
  match ks with
  | [] => s4
  | k :: _ => s4.tryResume (s.fibre k).gang

/-- Fibres that have waited out a switch marker together: each takes its trap (R99, R150, R381), ends (R81), returns
(R172), or goes on. The FP-exception band is every fibre that takes no other trap, each with its own resume PC; it reports
its lowest lane with that lane's own lowest-PC word, and counts every other fibre that raised one of the flags reported.
DEDUCED: log entry 77. -/
def State.resolve (s : State) (ks : List Nat) : State :=
  let picks := ks.filterMap (fun k => match (s.fibre k).ctl.pick with
    | some (t, r) => some (k, t, r)
    | none => none)
  let others := picks.filter (fun p => p.2.1.cls != 4)
  let fps := picks.filter (fun p => p.2.1.cls == 4)
  let rest := ks.filter (fun k => !others.any (fun p => p.1 == k))
  let s1 := s.unband ks
  match fps with
  | (k, t, _) :: _ =>
    let count := (rest.filter (fun j => j != k && (s.fibre j).ctl.fpDue &&& t.flags != 0)).length
    (s1.takeTrap (rest.map (fun j => (j, t, (s.fibre j).ctl.pc))) (some (s.fibre k).lane) count).takeGroups others
  | [] =>
    let ending := rest.filter (fun k => (s.fibre k).ctl.after == .endF)
    let retting := rest.filter (fun k => match (s.fibre k).ctl.after with
      | .rett .. => true
      | _ => false)
    let going := rest.filter (fun k => (s.fibre k).ctl.after == .next)
    ((((s1.endFibres ending).goOn going).returnFrom retting)).takeGroups others

/-- At a switch marker, or at a point that acts as one for a whole band. -/
def Band.atMarker (b : Band) : Bool := b.park == .marker || b.park == .gather

/-- The members of a parked band that may go on now: at a switch marker those whose results are in, if the others wait long
(R76); at the entry to the FP-exception handler all together (R98). -/
def State.leavers (s : State) (b : Band) : List Nat :=
  let done := b.members.filter (fun k => !s.outstanding k)
  let left := b.members.filter (fun k => s.outstanding k)
  if b.atMarker && (left.isEmpty || (b.park == .marker && left.all s.splitWait)) then done else []

/-- Resolves a band parked at a switch marker if no member waits for a result (R26). DEDUCED: log entry 76. -/
def State.settle (s : State) (b : Band) : State :=
  if b.atMarker && b.members.all (fun k => !s.outstanding k) then s.resolve b.members else s

/-- Parks fibres of one crew, those with one key as one band, and resolves each band that waits for nothing (R76, R381). -/
def State.parkBy {α : Type} [DecidableEq α] (s : State) (ks : List Nat) (key : Nat → α) (park : Park) : State :=
  ((ks.map key).dedup).foldl (fun s a =>
    let s1 := s.newBand (ks.filter (fun k => key k == a)) park
    match s1.bands.getLast? with
    | some b => s1.settle b
    | none => s1) s

/-! ### The issue group (R15, R21, R22, R72, R76, R97, R98, R103) -/

namespace State

/-- The PC of the current word. -/
def wordPc (s : State) : DWord := s.issue.pkt + BitVec.ofNat 64 (4 * s.issue.slot)
/-- A fibre as it stood before the group (R22). -/
def srcOf (s : State) (k : Nat) : Fibre := (s.issue.src.lookup k).getD .blank
/-- The lanes of the group in which a word's guard is on (R13). -/
def on (s : State) (h : Head) : List Nat := s.issue.lanes.filter (fun k => (s.srcOf k).guard h.g)

/-- Adds requests of the current word. -/
def request (s : State) (ks : List Nat) (r : Nat → Req) : State :=
  { s with issue := { s.issue with reqs := s.issue.reqs ++ ks.map (fun k => (k, r k)) } }

/-- Fibres that trap together outside a switch marker: each vectors once its results are in (R26), one band for each trap taken and
PC, with its own lowest lane (R381). -/
def vectorWhenIn (s : State) (bad : List (Nat × Trap)) : State :=
  let low : Nat × Trap → Nat := fun y => match bad.find? (fun x => s.trapKey x.1 x.2 == s.trapKey y.1 y.2) with
    | some x => (s.fibre x.1).lane
    | none => 0
  let due : Nat → Option Trap := fun k => (bad.find? (fun x => x.1 == k)).map (·.2)
  let ids := bad.map (·.1)
  let s1 := s.updCtls ids (fun k c => match due k with
    | some t => { c with after := .vector { t with lane := some (t.lane.getD (low (k, t))) } t.pc }
    | none => c)
  (s1.unband ids).parkBy ids (fun k => (due k).map (s.trapKey k)) .marker

/-- Lanes of the group that trap at issue leave it with no effect (R97); each lost register is an uncorrectable event (R354). -/
def trapAtIssue (s : State) (bad : List (Nat × Trap)) : State :=
  match bad with
  | [] => s
  | _ =>
    let ids := bad.map (·.1)
    let lost := (bad.filter (fun x => x.2.cls == 0x1A)).length
    let s0 := (List.range lost).foldl (fun s _ => s.noteLoss (s.issue.core / 4) 3) s
    let s1 := s0.updCtls ids (fun _ c => { c with readyAt := s.cycle s.issue.core + 4 })
    State.vectorWhenIn { s1 with issue := { s1.issue with lanes := s1.issue.lanes.filter (fun k => !ids.contains k) } } bad

end State

/-- The requests of one fibre. -/
def Issue.reqsOf (i : Issue) (k : Nat) : List Req := (i.reqs.filter (fun r => r.1 == k)).map (·.2)

/-- Flags raised by the group's ALU words in a fibre. -/
def reqFlags (rs : List Req) : Flags :=
  rs.foldl (fun a r => match r with
    | .flags _ f => a ||| f
    | _ => a) 0

/-- The PC of the lowest-slot word that raised one of `en` (R98). -/
def reqFlagPc (rs : List Req) (en : Flags) : DWord :=
  match rs.filterMap (fun r => match r with
    | .flags pc f => if f &&& en != 0 then some pc else none
    | _ => none) with
  | pc :: _ => pc
  | [] => 0

/-- A fibre's control state after its group (R15, R72, R98, R103): flags, count, next PC, traps due. -/
def endCtl (det : Bool) (base : DWord) (is : Issue) (next : Nat) (src : Fibre) (rs : List Req) (c : Ctl) : Ctl :=
  let fl := reqFlags rs
  let en := fl &&& src.ctl.trapen
  let seq : DWord × Nat := if next ≥ 3 then (is.pkt + 12, 0) else (is.pkt, next)
  let c1 := { c with
    exc := c.exc ||| fl
    retired := if det && src.ctl.v then c.retired else c.retired + 1
    pkt := seq.1
    slot := seq.2
    due := c.due ++ (if en != 0 then
      [{ cls := 4, cause := en.toNat, pc := reqFlagPc rs en, addr := 0, flags := en }] else []) }
  rs.foldl (fun c r => match r with
    | .flags _ _ => c
    | .jump pc t =>
      if targetOk base t false then { c with pkt := t, slot := 0 }
      else { c with due := c.due ++ [{ cls := 5, cause := 0, pc := pc, addr := t, flags := 0 }] }
    | .trap t => { c with due := c.due ++ [t] }
    | .endF pc =>
      { c with after := .endF, pkt := is.pkt, slot := (pc - is.pkt).toNat / 4 }
    | .rett pc t => { c with after := .rett pc t }
    | .yielded => c
    | .savedF => { c with saved := true }) c1

/-- What a fibre stops for, its own return address apart. -/
def After.shape : After → After
  | .rett pc _ => .rett pc 0
  | a => a

/-- Whether a fibre's group-end requests make it stop at once. -/
def stopsNow (before after : Ctl) : Bool := after.after != .next || decide (before.due.length < after.due.length)

/-- What a group raised in a fibre beside FP exceptions: class, cause and PC of each trap now due. -/
def newTraps (before after : Ctl) : List (Nat × Nat × DWord) :=
  (after.due.drop before.due.length).filterMap (fun t => if t.cls == 4 then none else some (t.cls, t.cause, t.pc))

/-- A fibre joins the FP-exception band of its group: it takes no other trap there (R98, R381). -/
def Ctl.gathers (c : Ctl) : Bool :=
  match c.pick with
  | some (t, _) => t.cls == 4
  | none => true

namespace State

/-- When every live fibre of a gang has issued SAVED, the front records the gang as saved and frees what it held
(R177). -/
def gangSaved (s : State) (gid : Nat) : State :=
  match s.gang gid with
  | none => s
  | some g =>
    let ks := s.liveOf gid
    if g.phase == .saving && ks.all (fun k => (s.fibre k).ctl.saved) then
      let s1 := s.setGang { g with phase := .saved, savedLive := ks.map (fun k => (s.fibre k).idx), waitSince := s.time }
      let s2 := (s1.unband ks).updFibres ks (fun _ f => { f with live := false })
      let s3 := s2.clearDeques g
      match s3.launch g.launch with
      | none => s3
      | some l => s3.updPart l.part (fun p => { p with nodes := p.nodes.map (fun n => match n.node with
          | some d => if n.n == l.node then { n with node := some { d with waitSince := s.time, aged := 0 } } else n
          | none => n) })
    else s

/-- The end of an issue group: every fibre of it moves to its next PC, the band splits where next PCs differ (R76), and the
fibres that stop (a switch marker, END, RETT, a trap) park until their results are in. Where an ALU word raised an enabled
flag the fibres that take no other trap wait as one band (R98). A YIELD that is on in any fibre parks every fibre of the
band that goes on (R83). DEDUCED: log entries 26 and 77. -/
def endGroup (s : State) (next : Nat) : State :=
  let is := s.issue
  match s.gang is.gang with
  | none => { s with issue := .idle }
  | some g =>
    let now := s.cycle is.core
    let others := s.bands.filter (fun b => b.park == .none && s.coreOf (b.members.headD 0) == is.core
      && b.members.all (fun k => !is.lanes.contains k && decide ((s.fibre k).ctl.readyAt ≤ now)))
    -- in deterministic mode a YIELD only advances the PC (R83)
    let yields := is.reqs.any (fun r => r.2 == .yielded && !(g.det && !(s.srcOf r.1).ctl.v))
    let s1 := (s.count is.core 0x12 is.lanes.length).updCtls is.lanes (fun k c =>
      { endCtl g.det (s.codeBase (s.srcOf k)) is next (s.srcOf k) (is.reqsOf k) c with
        readyAt := now + 4, yielding := if yields then some (now + 64, others.map (·.bid)) else none })
    let fp := is.lanes.any (fun k => reqFlags (is.reqsOf k) &&& (s.srcOf k).ctl.trapen != 0)
    let saves := is.lanes.filter (fun k => is.reqs.any (fun r => r.1 == k && r.2 == .savedF))
    let lanes := is.lanes.filter (fun k => !saves.contains k)
    let new : Nat → List (Nat × Nat × DWord) := fun k => newTraps (s.fibre k).ctl (s1.fibre k).ctl
    let gather := if fp then lanes.filter (fun k => (new k).isEmpty || (s1.fibre k).ctl.gathers) else []
    let stops := lanes.filter (fun k => !gather.contains k && (is.marker || stopsNow (s.fibre k).ctl (s1.fibre k).ctl))
    let going := lanes.filter (fun k => !gather.contains k && !stops.contains k)
    let s2 := (({ s1 with issue := .idle }.unband is.lanes).goOn going).newBand saves .saved
    let s3 := s2.parkBy gather (fun _ => ()) .gather
    let key : Nat → DWord × After × List (Nat × Nat × DWord) := fun k =>
      ((s1.fibre k).ctl.pc, (s1.fibre k).ctl.after.shape, if is.marker then [] else new k)
    let s4 := s3.parkBy stops key .marker
    if saves.isEmpty then s4 else s4.gangSaved is.gang

/-- The end of a word: the next word of the group (C = 1), or the end of the group. -/
def endWord (s : State) (h : Head) (words : Nat) : State :=
  let s1 := { s with issue := { s.issue with marker := s.issue.marker || h.s } }
  let next := s.issue.slot + words
  if s.issue.lanes.isEmpty then { s with issue := .idle }
  else if h.c && decide (next < 3) then { s1 with issue := { s1.issue with slot := next } }
  else s1.endGroup next

end State

end Sys2Proof.Machine
end

