-- ==== Sys2Proof/Machine/Special.lean ====
section
/-! DEFINITION. Sys2Proof/Machine/Special.lean: special registers as RDS and WRS see them (R69 to R73), and the saved
state of a fibre or a core as RDFS and WRFS see it (R174 to R176). -/

namespace Sys2Proof.Machine

def lo32 (v : DWord) : Word := v.extractLsb' 0 32
def hi32 (v : DWord) : Word := v.extractLsb' 32 32
def setLo (v : DWord) (w : Word) : DWord := hi32 v ++ w
def setHi (v : DWord) (w : Word) : DWord := w ++ lo32 v

/-- The special registers that exist (R69). -/
def specialExists (i : Nat) : Bool := decide (i ≤ 29) || (decide (32 ≤ i) && decide (i ≤ 34))
/-- Indices 32 to 34 are privileged (R69). -/
def specialPrivileged (i : Nat) : Bool := decide (32 ≤ i) && decide (i ≤ 34)
/-- Registers that WRS may write (R69). -/
def specialWritable (i : Nat) : Bool := [12, 13, 14, 15, 25, 26, 29].contains i
/-- The register's own value rule (R48, R50, R69). -/
def specialValueOk (i : Nat) (v : Word) : Bool :=
  match i with
  | 12 => decide (v.toNat ≤ 4)
  | 13 => decide (v.toNat < 32)
  | 14 => decide (v.toNat < 32)
  | 29 => decide (v.toNat < 4096)
  | _ => true

/-- %TIME or, in deterministic mode, %RETIRED (R73). -/
def State.timeOf (s : State) (f : Fibre) : DWord :=
  match s.gang f.gang with
  | some g => if g.det then f.ctl.retired else BitVec.ofNat 64 s.time
  | none => BitVec.ofNat 64 s.time

/-- The value of special register i in a fibre, without latching (R69). DEDUCED: log entry 64. -/
def State.special (s : State) (f : Fibre) (i : Nat) : Word :=
  let c := f.ctl
  match s.gang f.gang with
  | none => 0
  | some g =>
    match i with
    | 0 => BitVec.ofNat 32 Config.width
    | 1 => BitVec.ofNat 32 f.lane
    | 2 => BitVec.ofNat 32 f.crew
    | 3 => BitVec.ofNat 32 f.idx
    | 4 => BitVec.ofNat 32 (s.coreNumber (g.core f.wg))
    | 5 => BitVec.ofNat 32 (s.clusterNumber g.cluster)
    | 6 => BitVec.ofNat 32 g.index
    | 7 => BitVec.ofNat 32 g.gangs
    | 8 => lo32 (s.timeOf f)
    | 9 => c.latchT.getD (hi32 (s.timeOf f))
    | 10 => lo32 c.retired
    | 11 => c.latchR.getD (hi32 c.retired)
    | 12 => c.rmode
    | 13 => c.exc.setWidth 32
    | 14 => c.trapen.setWidth 32
    | 15 => c.budget
    | 16 => lo32 c.horizon
    | 17 => c.latchH.getD (hi32 c.horizon)
    | 18 => BitVec.ofNat 32 g.prio
    | 19 => if g.det then 1 else 0
    | 20 => c.satcnt
    | 21 => c.tcause
    | 22 => c.tinfo
    | 23 => lo32 c.trappc
    | 24 => hi32 c.trappc
    | 25 => lo32 c.tresume
    | 26 => hi32 c.tresume
    | 27 => lo32 c.taddr
    | 28 => hi32 c.taddr
    | 29 => f.preds.setWidth 32
    | 32 => BitVec.ofNat 32 c.wbase
    | 33 => BitVec.ofNat 32 g.part
    | 34 => match s.context g.ctx with
      | some x => x.ctxidWord
      | none => 0
    | _ => 0

/-- A write of special register i (R84), also of those that only WRFS writes (R175). -/
def Fibre.setSpecial (f : Fibre) (i : Nat) (v : Word) : Fibre :=
  let c := f.ctl
  match i with
  | 10 => { f with ctl := { c with retired := setLo c.retired v } }
  | 11 => { f with ctl := { c with retired := setHi c.retired v } }
  | 12 => { f with ctl := { c with rmode := v } }
  | 13 => { f with ctl := { c with exc := v.setWidth 5 } }
  | 14 => { f with ctl := { c with trapen := v.setWidth 5 } }
  | 15 => { f with ctl := { c with budget := v } }
  | 16 => { f with ctl := { c with horizon := setLo c.horizon v } }
  | 17 => { f with ctl := { c with horizon := setHi c.horizon v } }
  | 20 => { f with ctl := { c with satcnt := v } }
  | 21 => { f with ctl := { c with tcause := v } }
  | 22 => { f with ctl := { c with tinfo := v } }
  | 23 => { f with ctl := { c with trappc := setLo c.trappc v } }
  | 24 => { f with ctl := { c with trappc := setHi c.trappc v } }
  | 25 => { f with ctl := { c with tresume := setLo c.tresume v } }
  | 26 => { f with ctl := { c with tresume := setHi c.tresume v } }
  | 27 => { f with ctl := { c with taddr := setLo c.taddr v } }
  | 28 => { f with ctl := { c with taddr := setHi c.taddr v } }
  | 29 => { f with preds := v.setWidth 12 }
  | _ => f

/-- Latching of the high half by an RDS of a low half (R71). -/
def Fibre.latch (f : Fibre) (i : Nat) (time : DWord) : Fibre :=
  let c := f.ctl
  match i with
  | 8 => { f with ctl := { c with latchT := some (hi32 time) } }
  | 10 => { f with ctl := { c with latchR := some (hi32 c.retired) } }
  | 16 => { f with ctl := { c with latchH := some (hi32 c.horizon) } }
  | _ => f

/-! ### Saved state (R174 to R176) -/

/-- What a selector names (R174). -/
inductive SaveTarget where
  | fib (k : Nat)
  | core (c : Nat)
  deriving DecidableEq, Repr

/-- The target of a selector in a gang; none when it is malformed or names nothing. -/
def State.saveTarget (s : State) (gid : Nat) (sel : Word) : Option SaveTarget :=
  match s.gang gid with
  | none => none
  | some g =>
    if sel.getLsbD 31 then
      let w := (sel.extractLsb' 0 2).toNat
      if sel.extractLsb' 2 29 == 0 && decide (w < g.size) then some (.core (g.core w)) else none
    else if sel.extractLsb' 12 19 != 0 then none
    else
      match (List.range s.fibres.length).find? (fun k =>
          (s.fibre k).gang == gid && (s.fibre k).idx == (sel.extractLsb' 0 12).toNat) with
      | some k => some (.fib k)
      | none => none

/-- Whether an index is listed for a target (R175). -/
def saveIndexOk (t : SaveTarget) (i : Nat) : Bool :=
  match t with
  | .fib _ => decide (i < 80) || (decide (256 ≤ i) && decide (i < 320))
  | .core _ => decide (i ≤ 1537)

/-- Whether a fibre is parked at a meeting (the M field of R176). -/
def State.atMeeting (s : State) (k : Nat) : Bool := s.bands.any (fun b => b.park == .meeting && b.members.contains k)

def bitIf (b : Bool) (n : Nat) : Nat := if b then 2 ^ n else 0

/-- The fibre state word of fibre k, which stands as f (R176). -/
def State.stateWord (s : State) (k : Nat) (f : Fibre) : Word :=
  let c := f.ctl
  BitVec.ofNat 32 (bitIf f.live 0 + bitIf (if c.v then c.shadow.h else c.h) 1 + bitIf c.v 2
    + bitIf (s.atMeeting k) 3 + bitIf c.pendAcc 4 + bitIf c.pendTrap 5)

/-- Whether RDFS may read an index: a reserved special index names no register of R69. DEDUCED: log entry 78. -/
def readIndexOk (t : SaveTarget) (i : Nat) : Bool :=
  saveIndexOk t i && (match t with
    | .fib _ => decide (i < 80) || specialExists (i - 256)
    | .core _ => true)

/-- A state word of fibre k, which stands as f (R175). -/
def State.readFibreState (s : State) (k : Nat) (f : Fibre) (i : Nat) : Word :=
  let c := f.ctl
  if i < 64 then (if c.v && decide (i < 8) then c.shadow.regs.getD i 0 else f.regN i)
  else if 256 ≤ i then
    let j := i - 256
    if c.v then
      match j with
      | 21 => c.shadow.tcause
      | 22 => c.shadow.tinfo
      | 23 => lo32 c.shadow.trappc
      | 24 => hi32 c.shadow.trappc
      | 25 => lo32 c.shadow.tresume
      | 26 => hi32 c.shadow.tresume
      | 27 => lo32 c.shadow.taddr
      | 28 => hi32 c.shadow.taddr
      | _ => s.special f j
    else s.special f j
  else
    match i with
    | 64 => (if c.v then c.shadow.preds else f.preds).setWidth 32
    | 65 => lo32 c.tresume
    | 66 => hi32 c.tresume
    | 67 => s.stateWord k f
    | 68 => lo32 c.electAddr
    | 69 => hi32 c.electAddr
    | 70 => c.electWord
    | 71 => c.pendCause
    | 72 => c.accWord
    | 73 => lo32 c.accAddr
    | 74 => hi32 c.accAddr
    | 75 => c.accExtra
    | _ => c.accData.getD (i - 76) 0

/-- Whether WRFS may write an index, and the value (R175, R176): the cause of its illegal-instruction trap. -/
def State.wrfsCause (s : State) (t : SaveTarget) (i : Nat) (v : Word) : Option Nat :=
  match t with
  | .core _ => if i == 1 && decide (256 < v.toNat) then some 9 else none
  | .fib k =>
    if 256 ≤ i then
      let j := i - 256
      if !(specialWritable j || [10, 11, 16, 17, 20].contains j || (decide (21 ≤ j) && decide (j ≤ 28))) then some 8
      else if !specialValueOk j v then some 9
      else if j == 21 && v.extractLsb' 16 16 != 0 && v.extractLsb' 0 8 != 0x43 then some 9
      else none
    else if i == 67 then
      let f := s.fibre k
      if v.extractLsb' 6 26 != 0 || v.getLsbD 0 != f.live || v.getLsbD 2 != f.ctl.v then some 9 else none
    else none

/-- WRFS of a fibre's state word (R175, R176). -/
def Fibre.writeState (f : Fibre) (i : Nat) (v : Word) : Fibre :=
  let c := f.ctl
  let sh := c.shadow
  if i < 64 then
    if c.v && decide (i < 8) then { f with ctl := { c with shadow := { sh with regs := sh.regs.set i v } } }
    else f.setRegN i v
  else if 256 ≤ i then
    let j := i - 256
    if c.v then
      match j with
      | 21 => { f with ctl := { c with shadow := { sh with tcause := v } } }
      | 22 => { f with ctl := { c with shadow := { sh with tinfo := v } } }
      | 23 => { f with ctl := { c with shadow := { sh with trappc := setLo sh.trappc v } } }
      | 24 => { f with ctl := { c with shadow := { sh with trappc := setHi sh.trappc v } } }
      | 25 => { f with ctl := { c with shadow := { sh with tresume := setLo sh.tresume v } } }
      | 26 => { f with ctl := { c with shadow := { sh with tresume := setHi sh.tresume v } } }
      | 27 => { f with ctl := { c with shadow := { sh with taddr := setLo sh.taddr v } } }
      | 28 => { f with ctl := { c with shadow := { sh with taddr := setHi sh.taddr v } } }
      | _ => f.setSpecial j v
    else f.setSpecial j v
  else
    match i with
    | 64 => if c.v then { f with ctl := { c with shadow := { sh with preds := v.setWidth 12 } } }
            else { f with preds := v.setWidth 12 }
    | 65 => { f with ctl := { c with tresume := setLo c.tresume v } }
    | 66 => { f with ctl := { c with tresume := setHi c.tresume v } }
    | 67 => { f with ctl := { c with
        h := if c.v then c.h else v.getLsbD 1
        shadow := if c.v then { sh with h := v.getLsbD 1 } else sh
        pendAcc := v.getLsbD 4
        pendTrap := v.getLsbD 5 } }
    | 68 => { f with ctl := { c with electAddr := setLo c.electAddr v } }
    | 69 => { f with ctl := { c with electAddr := setHi c.electAddr v } }
    | 70 => { f with ctl := { c with electWord := v } }
    | 71 => { f with ctl := { c with pendCause := v } }
    | 72 => { f with ctl := { c with accWord := v } }
    | 73 => { f with ctl := { c with accAddr := setLo c.accAddr v } }
    | 74 => { f with ctl := { c with accAddr := setHi c.accAddr v } }
    | 75 => { f with ctl := { c with accExtra := v } }
    | _ => { f with ctl := { c with accData := c.accData.set (i - 76) v } }

/-- An entry of a deque by index from the tail. -/
def CoreSt.entry (c : CoreSt) (j : Nat) : DequeEntry := c.dq.getD j ⟨0, 0, 0⟩
/-- Writes entry j, extending the stored entries with zeros. -/
def CoreSt.setEntry (c : CoreSt) (j : Nat) (e : DequeEntry) : CoreSt :=
  { c with dq := (c.dq ++ List.replicate (j + 1 - c.dq.length) (DequeEntry.mk 0 0 0)).set j e }

/-- A state word of a core (R175). -/
def CoreSt.readState (c : CoreSt) (i : Nat) : Word :=
  match i with
  | 0 => BitVec.ofNat 32 (c.rotCrew % 1024 * 64 + c.rotLane % 64)
  | 1 => BitVec.ofNat 32 c.dqCount
  | _ =>
    let e := c.entry ((i - 2) / 6)
    match (i - 2) % 6 with
    | 0 => lo32 e.entry
    | 1 => hi32 e.entry
    | 2 => lo32 e.arg
    | 3 => hi32 e.arg
    | 4 => lo32 e.join
    | _ => hi32 e.join

def CoreSt.writeState (c : CoreSt) (i : Nat) (v : Word) : CoreSt :=
  match i with
  | 0 => { c with rotCrew := (v.extractLsb' 6 10).toNat, rotLane := (v.extractLsb' 0 6).toNat }
  | 1 => { c with dqCount := v.toNat }
  | _ =>
    let j := (i - 2) / 6
    let e := c.entry j
    c.setEntry j (match (i - 2) % 6 with
      | 0 => { e with entry := setLo e.entry v }
      | 1 => { e with entry := setHi e.entry v }
      | 2 => { e with arg := setLo e.arg v }
      | 3 => { e with arg := setHi e.arg v }
      | 4 => { e with join := setLo e.join v }
      | _ => { e with join := setHi e.join v })

end Sys2Proof.Machine
end

