-- ==== Sys2Proof/Machine/Screen.lean ====
section
/-! DEFINITION. Sys2Proof/Machine/Screen.lean: the traps raised at issue (R33, R65, R70, R97, R347, R380), the checks
of a memory address (R135, R136, R147, R148, R162), and the frame every word's meaning shares. -/

namespace Sys2Proof.Machine

/-! ### Addresses (R135, R136) -/

/-- The scratch key an address names for a fibre, or the cause of the address trap; none for a global address. -/
def State.scratchOf (s : State) (f : Fibre) (addr : DWord) : Except Nat (Option Nat) :=
  match s.gang f.gang with
  | none => .error 0
  | some g =>
    let off := (addr.extractLsb' 0 56).toNat
    match (addr.extractLsb' 56 8).toNat with
    | 0 => .ok none
    | 0xFE => if off < g.scratch then .ok (some (scratchKey (g.core f.wg) (g.scratchBase.getD f.wg 0 + off))) else .error 1
    | 0xFF =>
      if addr.extractLsb' 21 35 != 0 then .error 0
      else
        let c := (addr.extractLsb' 19 2).toNat
        let b := (addr.extractLsb' 0 19).toNat
        if (List.range g.size).any (fun w => g.base + w == c && decide (g.scratchBase.getD w 0 ≤ b)
            && decide (b < g.scratchBase.getD w 0 + g.scratch)) then .ok (some (scratchKey (4 * g.cluster + c) b))
        else .error 2
    | _ => .error 0

/-- A whole range of scratch inside the gang's scratch, all of it on one core: its first key. -/
def State.scratchRange (s : State) (f : Fibre) (addr : DWord) (len : Nat) : Option Nat :=
  match s.scratchOf f addr with
  | .ok (some k) =>
    if len ≤ 1 then some k
    else match s.scratchOf f (addr + BitVec.ofNat 64 (len - 1)) with
      | .ok (some k2) => if k2 == k + len - 1 && k2 / 2 ^ 19 == k / 2 ^ 19 then some k else none
      | _ => none
  | _ => none

/-- The trap of a byte-addressed access at issue: address (class 0x11), then alignment (class 0x10) (R147, R148). -/
def State.addrTrap (s : State) (f : Fibre) (addr : DWord) (size : Nat) : Option (Nat × Nat) :=
  match s.scratchOf f addr with
  | .error c => some (0x11, c)
  | .ok _ => if addr.toNat % size != 0 then some (0x10, 0) else none

/-- The trap of a barrier address at issue (R162). -/
def State.barrierTrap (s : State) (f : Fibre) (addr : DWord) : Option (Nat × Nat) :=
  match s.scratchOf f addr with
  | .error c => some (0x11, c)
  | .ok none => some (0x15, 2)
  | .ok (some _) => if addr.toNat % 8 != 0 then some (0x10, 0) else none

/-- The address of an M-format word (R147): w[A] plus the sign-extended literal. -/
def memAddr (f : Fibre) (a : BitVec 5) (off : Option Word) : DWord :=
  f.pairN a.toNat + (match off with
    | some l => l.signExtend 64
    | none => 0)

/-- The address and size (or barrier) a word accesses, for the checks at issue. -/
inductive Touch where
  | none
  | bytes (addr : DWord) (size : Nat)
  | barrier (addr : DWord)

def touchOf (i : Instr) (f : Fibre) : Touch :=
  match i with
  | .ldb _ _ _ a _ off => .bytes (memAddr f a off) 1
  | .ldbs _ _ _ a _ off => .bytes (memAddr f a off) 1
  | .ldh _ _ _ a _ off => .bytes (memAddr f a off) 2
  | .ldhs _ _ _ a _ off => .bytes (memAddr f a off) 2
  | .ldw _ _ _ a _ off => .bytes (memAddr f a off) 4
  | .ldd _ _ _ a _ off => .bytes (memAddr f a off) 8
  | .ldq _ _ _ a _ off => .bytes (memAddr f a off) 16
  | .stb _ _ _ a _ off => .bytes (memAddr f a off) 1
  | .sth _ _ _ a _ off => .bytes (memAddr f a off) 2
  | .stw _ _ _ a _ off => .bytes (memAddr f a off) 4
  | .std _ _ _ a _ off => .bytes (memAddr f a off) 8
  | .stq _ _ _ a _ off => .bytes (memAddr f a off) 16
  | .atom _ _ _ a _ off => .bytes (memAddr f a off) 4
  | .atomn _ _ _ a _ off => .bytes (memAddr f a off) 4
  | .atomd _ _ _ a _ off => .bytes (memAddr f a off) 8
  | .atomdn _ _ _ a _ off => .bytes (memAddr f a off) 8
  | .atomf _ _ _ a _ off => .bytes (memAddr f a off) 4
  | .atomfn _ _ _ a _ off => .bytes (memAddr f a off) 4
  | .xchg _ _ a _ off => .bytes (memAddr f a off) 4
  | .cas _ _ a _ off => .bytes (memAddr f a off) 4
  | .casd _ _ a _ off => .bytes (memAddr f a off) 8
  | .tagr _ _ a _ off => .bytes (memAddr f a off) 8
  | .tags _ _ a _ off => .bytes (memAddr f a off) 8
  | .endJ _ a => .bytes (f.pair a) 8
  | .bari _ a _ => .barrier (f.pair a)
  | .barv _ _ a => .barrier (f.pair a)
  | .barw _ _ a _ => .barrier (f.pair a)
  | _ => .none

/-! ### The trap of one word in one fibre (R380) -/

/-- Causes 0 to 4 of a term the encoding does not admit; none for a well-formed word. -/
def encodingCause (i : Instr) : Option Nat :=
  if !i.guardOk then some 1 else if !i.mbzOk then some 2 else if !i.subOk then some 3 else none

/-- A register the word reads that holds a double-bit error (R346, R347). -/
def State.lostReg (s : State) (i : Instr) (k : Nat) : Option Nat :=
  i.sources.find? (fun r => s.sram.contains (.reg k r))

/-- The illegal-instruction causes that depend on the fibre: SAVED outside the save routine, and 6 to 13 (R32, R53, R70, R168, R172, R174 to R177, R240).
`f` is the fibre before the group; those that need the word to act apply where its guard is on. -/
def State.lateCause (s : State) (i : Instr) (f : Fibre) (on : Bool) : Option Nat :=
  let stray := on && !f.ctl.saving && (match i with
    | .saved _ => true
    | _ => false)
  if stray then some 3
  else if i.isPrivileged && !f.ctl.v then some 6
  else if !on then none
  else
    match i with
    | .rds _ _ n =>
      if !specialExists n.toNat then some 7 else if specialPrivileged n.toNat && !f.ctl.v then some 6 else none
    | .wrs _ d n =>
      if !specialExists n.toNat then some 7
      else if specialPrivileged n.toNat && !f.ctl.v then some 6
      else if !specialWritable n.toNat then some 8
      else if !specialValueOk n.toNat (f.reg d) then some 9
      else none
    | .narrow _ _ _ b => if Narrow.legalWord (f.reg b) then none else some 10
    | .widen _ _ _ b => if Narrow.legalWord (f.reg b) then none else some 10
    | .rett _ => if f.ctl.h then none else some 12
    | .fork .. => match s.gang f.gang with
      | some g => if g.forkable then none else some 13
      | none => some 13
    | .tlbinv _ _ b =>
      let w := f.reg b
      if w.extractLsb' 23 9 != 0 || decide (3 < (w.extractLsb' 20 3).toNat) then some 9 else none
    | .rdfs _ _ a b => match s.saveTarget f.gang (f.reg a) with
      | none => some 9
      | some t => if readIndexOk t (f.reg b).toNat then none else some 9
    | .wrfs _ d a b => match s.saveTarget f.gang (f.reg a) with
      | none => some 9
      | some t =>
        if !saveIndexOk t (f.reg b).toNat then some 9 else s.wrfsCause t (f.reg b).toNat (f.reg d)
    | _ => none

/-- The trap that one word raises at issue in fibre k, at its PC (R380): the lowest illegal-instruction cause, then the
register window, then data loss in a source register, then the address. -/
def State.issueTrap (s : State) (i : Instr) (k : Nat) (pc : DWord) : Option Trap :=
  match i.head? with
  | none => none
  | some h =>
    let f := s.srcOf k
    let on := f.guard h.g
    match (match encodingCause i with
      | some c => some c
      | none => s.lateCause i f on) with
    | some c => some { cls := 1, cause := c, pc := pc, addr := 0, flags := 0 }
    | none =>
      if i.regsNamed.any (fun r => decide (f.regs.length ≤ r)) then
        some { cls := 2, cause := 0, pc := pc, addr := 0, flags := 0 }
      else if !on then none
      else match s.lostReg i k with
        | some r => some { cls := 0x1A, cause := 3, pc := pc, addr := BitVec.ofNat 64 r, flags := 0 }
        | none =>
          match touchOf i f with
          | .none => none
          | .bytes a n => (s.addrTrap f a n).map (fun t => { cls := t.1, cause := t.2, pc := pc, addr := a, flags := 0 })
          | .barrier a => (s.barrierTrap f a).map (fun t => { cls := t.1, cause := t.2, pc := pc, addr := a, flags := 0 })

/-- The lanes of the group that trap at this word. -/
def State.badLanes (s : State) (i : Instr) : List (Nat × Trap) :=
  s.issue.lanes.filterMap (fun k => (s.issueTrap i k s.wordPc).map (fun t => (k, t)))

/-- The words of an instruction in its packet: 2 with a literal. -/
def slotsOf (i : Instr) : Nat := (encode i).length

/-- What every word's meaning shares: lanes that trap at issue leave with no effect, the word takes its effect in the
lanes where its guard is on, and the group goes on to its next word or ends. `eff` receives the state and those lanes. -/
def word (i : Instr) (h : Head) (s : State) (eff : State → List Nat → State) : Host.Outcome State Fault Refusal :=
  let s1 := s.trapAtIssue (s.badLanes i)
  .next ((eff s1 (s1.on h)).endWord h (slotsOf i))

/-- A word that writes registers at fixed latency (R24): `g` gives fibre k's new state from the fibre before the group
(first argument) and the fibre as it stands. -/
def alu (i : Instr) (h : Head) (s : State) (g : Fibre → Fibre → Fibre) : Host.Outcome State Fault Refusal :=
  word i h s (fun s ks => s.updFibres ks (fun k x => g (s.srcOf k) x))

/-- A floating-point word of the ALU pipe: register writes and the flags raised (R103). -/
def aluFlags (i : Instr) (h : Head) (s : State) (g : Fibre → Nat × Flags) (d : BitVec 6) :
    Host.Outcome State Fault Refusal :=
  word i h s (fun s ks =>
    (s.updFibres ks (fun k x => x.setReg d (BitVec.ofNat 32 (g (s.srcOf k)).1))).request ks
      (fun k => .flags s.wordPc (g (s.srcOf k)).2))

/-- Results of one word under way for the fibres of `ks` (R25), with what R126 asks of the XU pipe. -/
def State.sendResults (s : State) (xu : Bool) (ks : List Nat) (g : Nat → List (Nat × Word) × List (Nat × Bool × Bool) × Flags) :
    State :=
  let batch := s.nextId
  ks.foldl (fun s k =>
    let r := g k
    s.addResult { id := 0, fibre := k, pc := s.wordPc, xu := xu, mem := false, writes := r.1, preds := r.2.1
                  flags := r.2.2, trap := none, batch := batch, lanes := ks }) s

/-- A variable-latency word with no memory access: its result is under way (R25). -/
def later (i : Instr) (h : Head) (s : State) (xu : Bool) (g : Fibre → List (Nat × Word) × List (Nat × Bool × Bool) × Flags) :
    Host.Outcome State Fault Refusal :=
  word i h s (fun s ks => s.sendResults xu ks (fun k => g (s.srcOf k)))

end Sys2Proof.Machine
end

