-- ==== Sys2Proof/Machine/Alu.lean ====
section
/-! DEFINITION. Sys2Proof/Machine/Alu.lean: the integer words of the ALU pipes and the moves (R84, R101 to R113). -/

namespace Sys2Proof.Machine

/-- IADD (R105): Adds two registers modulo 2^32. -/
def execIadd (h : Head) (d : BitVec 6) (a : BitVec 6) (b : BitVec 6) (s : State) :
    Host.Outcome State Fault Refusal :=
  alu (.iadd h d a b) h s (fun r x => x.setReg d (r.reg a + r.reg b))

/-- ISUB (R105): Subtracts two registers modulo 2^32. -/
def execIsub (h : Head) (d : BitVec 6) (a : BitVec 6) (b : BitVec 6) (s : State) :
    Host.Outcome State Fault Refusal :=
  alu (.isub h d a b) h s (fun r x => x.setReg d (r.reg a - r.reg b))

/-- IMUL (R105): Multiplies two registers and keeps the low 32 bits. -/
def execImul (h : Head) (d : BitVec 6) (a : BitVec 6) (b : BitVec 6) (s : State) :
    Host.Outcome State Fault Refusal :=
  alu (.imul h d a b) h s (fun r x => x.setReg d (r.reg a * r.reg b))

/-- IMULH.s (R105): Returns the high 32 bits of the signed 64-bit product. -/
def execImulhS (h : Head) (d : BitVec 6) (a : BitVec 6) (b : BitVec 6) (s : State) :
    Host.Outcome State Fault Refusal :=
  alu (.imulhS h d a b) h s (fun r x => x.setReg d (mulhS (r.reg a) (r.reg b)))

/-- IMULH.n (R105): Returns the high 32 bits of the unsigned 64-bit product. -/
def execImulhN (h : Head) (d : BitVec 6) (a : BitVec 6) (b : BitVec 6) (s : State) :
    Host.Outcome State Fault Refusal :=
  alu (.imulhN h d a b) h s (fun r x => x.setReg d (mulhN (r.reg a) (r.reg b)))

/-- IMAC (R105): Adds the product of two registers to the destination modulo 2^32. -/
def execImac (h : Head) (d : BitVec 6) (a : BitVec 6) (b : BitVec 6) (s : State) :
    Host.Outcome State Fault Refusal :=
  alu (.imac h d a b) h s (fun r x => x.setReg d (r.reg d + r.reg a * r.reg b))

/-- IMIN.s (R105): Returns the signed minimum of two registers. -/
def execIminS (h : Head) (d : BitVec 6) (a : BitVec 6) (b : BitVec 6) (s : State) :
    Host.Outcome State Fault Refusal :=
  alu (.iminS h d a b) h s (fun r x => x.setReg d (if (r.reg a).sle (r.reg b) then r.reg a else r.reg b))

/-- IMIN.n (R105): Returns the unsigned minimum of two registers. -/
def execIminN (h : Head) (d : BitVec 6) (a : BitVec 6) (b : BitVec 6) (s : State) :
    Host.Outcome State Fault Refusal :=
  alu (.iminN h d a b) h s (fun r x => x.setReg d (if (r.reg a).ule (r.reg b) then r.reg a else r.reg b))

/-- IMAX.s (R105): Returns the signed maximum of two registers. -/
def execImaxS (h : Head) (d : BitVec 6) (a : BitVec 6) (b : BitVec 6) (s : State) :
    Host.Outcome State Fault Refusal :=
  alu (.imaxS h d a b) h s (fun r x => x.setReg d (if (r.reg b).sle (r.reg a) then r.reg a else r.reg b))

/-- IMAX.n (R105): Returns the unsigned maximum of two registers. -/
def execImaxN (h : Head) (d : BitVec 6) (a : BitVec 6) (b : BitVec 6) (s : State) :
    Host.Outcome State Fault Refusal :=
  alu (.imaxN h d a b) h s (fun r x => x.setReg d (if (r.reg b).ule (r.reg a) then r.reg a else r.reg b))

/-- AND (R106): Bitwise and of two registers. -/
def execAnd (h : Head) (d : BitVec 6) (a : BitVec 6) (b : BitVec 6) (s : State) :
    Host.Outcome State Fault Refusal :=
  alu (.and h d a b) h s (fun r x => x.setReg d (r.reg a &&& r.reg b))

/-- OR (R106): Bitwise or of two registers. -/
def execOr (h : Head) (d : BitVec 6) (a : BitVec 6) (b : BitVec 6) (s : State) :
    Host.Outcome State Fault Refusal :=
  alu (.or h d a b) h s (fun r x => x.setReg d (r.reg a ||| r.reg b))

/-- XOR (R106): Bitwise exclusive or of two registers. -/
def execXor (h : Head) (d : BitVec 6) (a : BitVec 6) (b : BitVec 6) (s : State) :
    Host.Outcome State Fault Refusal :=
  alu (.xor h d a b) h s (fun r x => x.setReg d (r.reg a ^^^ r.reg b))

/-- ANDN (R106): Bitwise and of the first register with the complement of the second. -/
def execAndn (h : Head) (d : BitVec 6) (a : BitVec 6) (b : BitVec 6) (s : State) :
    Host.Outcome State Fault Refusal :=
  alu (.andn h d a b) h s (fun r x => x.setReg d (r.reg a &&& ~~~(r.reg b)))

/-- SHL (R106): Shifts left by the low five bits of the second register. -/
def execShl (h : Head) (d : BitVec 6) (a : BitVec 6) (b : BitVec 6) (s : State) :
    Host.Outcome State Fault Refusal :=
  alu (.shl h d a b) h s (fun r x => x.setReg d (r.reg a <<< count5 (r.reg b)))

/-- SHR (R106): Shifts right logically by the low five bits of the second register. -/
def execShr (h : Head) (d : BitVec 6) (a : BitVec 6) (b : BitVec 6) (s : State) :
    Host.Outcome State Fault Refusal :=
  alu (.shr h d a b) h s (fun r x => x.setReg d (r.reg a >>> count5 (r.reg b)))

/-- SAR (R106): Shifts right arithmetically by the low five bits of the second register. -/
def execSar (h : Head) (d : BitVec 6) (a : BitVec 6) (b : BitVec 6) (s : State) :
    Host.Outcome State Fault Refusal :=
  alu (.sar h d a b) h s (fun r x => x.setReg d ((r.reg a).sshiftRight (count5 (r.reg b))))

/-- ROL (R106): Rotates left by the low five bits of the second register. -/
def execRol (h : Head) (d : BitVec 6) (a : BitVec 6) (b : BitVec 6) (s : State) :
    Host.Outcome State Fault Refusal :=
  alu (.rol h d a b) h s (fun r x => x.setReg d ((r.reg a).rotateLeft (count5 (r.reg b))))

/-- BFX (R107): Extracts a zero-extended bit field described by the second register. -/
def execBfx (h : Head) (d : BitVec 6) (a : BitVec 6) (b : BitVec 6) (s : State) :
    Host.Outcome State Fault Refusal :=
  alu (.bfx h d a b) h s (fun r x => x.setReg d (bfx (r.reg a) (r.reg b)))

/-- BFI (R107): Inserts a bit field into the destination register. -/
def execBfi (h : Head) (d : BitVec 6) (a : BitVec 6) (b : BitVec 6) (s : State) :
    Host.Outcome State Fault Refusal :=
  alu (.bfi h d a b) h s (fun r x => x.setReg d (bfi (r.reg d) (r.reg a) (r.reg b)))

/-- ICMP.s (R109): Compares two registers as signed values and writes a predicate pair. -/
def execIcmpS (h : Head) (n : BitVec 3) (p : BitVec 3) (a : BitVec 6) (b : BitVec 6) (s : State) :
    Host.Outcome State Fault Refusal :=
  alu (.icmpS h n p a b) h s (fun r x => x.setPredCond p (condS n (r.reg a) (r.reg b)))

/-- ICMP.n (R109): Compares two registers as unsigned values and writes a predicate pair. -/
def execIcmpN (h : Head) (n : BitVec 3) (p : BitVec 3) (a : BitVec 6) (b : BitVec 6) (s : State) :
    Host.Outcome State Fault Refusal :=
  alu (.icmpN h n p a b) h s (fun r x => x.setPredCond p (condN n (r.reg a) (r.reg b)))

/-- POPC (R108): Counts the 1 bits of a register. -/
def execPopc (h : Head) (d : BitVec 6) (a : BitVec 6) (s : State) :
    Host.Outcome State Fault Refusal :=
  alu (.popc h d a) h s (fun r x => x.setReg d (popc32 (r.reg a)))

/-- CLZ (R108): Counts the leading zero bits of a register. -/
def execClz (h : Head) (d : BitVec 6) (a : BitVec 6) (s : State) :
    Host.Outcome State Fault Refusal :=
  alu (.clz h d a) h s (fun r x => x.setReg d (clz32 (r.reg a)))

/-- BREV (R108): Reverses the bit order of a register. -/
def execBrev (h : Head) (d : BitVec 6) (a : BitVec 6) (s : State) :
    Host.Outcome State Fault Refusal :=
  alu (.brev h d a) h s (fun r x => x.setReg d ((r.reg a).reverse))

/-- MOV (R84): Copies one register to another. -/
def execMov (h : Head) (d : BitVec 6) (a : BitVec 6) (s : State) :
    Host.Outcome State Fault Refusal :=
  alu (.mov h d a) h s (fun r x => x.setReg d (r.reg a))

/-- LADD (R111): Adds two pairs modulo 2^64 on both ALU pipes. -/
def execLadd (h : Head) (d : BitVec 6) (a : BitVec 6) (b : BitVec 6) (s : State) :
    Host.Outcome State Fault Refusal :=
  alu (.ladd h d a b) h s (fun r x => x.setPair d (r.pair a + r.pair b))

/-- LSUB (R111): Subtracts two pairs modulo 2^64. -/
def execLsub (h : Head) (d : BitVec 6) (a : BitVec 6) (b : BitVec 6) (s : State) :
    Host.Outcome State Fault Refusal :=
  alu (.lsub h d a b) h s (fun r x => x.setPair d (r.pair a - r.pair b))

/-- LMUL (R111): Multiplies two pairs modulo 2^64. -/
def execLmul (h : Head) (d : BitVec 6) (a : BitVec 6) (b : BitVec 6) (s : State) :
    Host.Outcome State Fault Refusal :=
  alu (.lmul h d a b) h s (fun r x => x.setPair d (r.pair a * r.pair b))

/-- LMULH.s (R111): Returns the high 64 bits of the signed 128-bit product of two pairs. -/
def execLmulhS (h : Head) (d : BitVec 6) (a : BitVec 6) (b : BitVec 6) (s : State) :
    Host.Outcome State Fault Refusal :=
  alu (.lmulhS h d a b) h s (fun r x => x.setPair d (lmulhS (r.pair a) (r.pair b)))

/-- LMULH.n (R111): Returns the high 64 bits of the unsigned 128-bit product of two pairs. -/
def execLmulhN (h : Head) (d : BitVec 6) (a : BitVec 6) (b : BitVec 6) (s : State) :
    Host.Outcome State Fault Refusal :=
  alu (.lmulhN h d a b) h s (fun r x => x.setPair d (lmulhN (r.pair a) (r.pair b)))

/-- LSHL (R111): Shifts a pair left by a register count. -/
def execLshl (h : Head) (d : BitVec 6) (a : BitVec 6) (b : BitVec 6) (s : State) :
    Host.Outcome State Fault Refusal :=
  alu (.lshl h d a b) h s (fun r x => x.setPair d (r.pair a <<< count6 (r.reg b)))

/-- LSHR (R111): Shifts a pair right logically by a register count. -/
def execLshr (h : Head) (d : BitVec 6) (a : BitVec 6) (b : BitVec 6) (s : State) :
    Host.Outcome State Fault Refusal :=
  alu (.lshr h d a b) h s (fun r x => x.setPair d (r.pair a >>> count6 (r.reg b)))

/-- LSAR (R111): Shifts a pair right arithmetically by a register count. -/
def execLsar (h : Head) (d : BitVec 6) (a : BitVec 6) (b : BitVec 6) (s : State) :
    Host.Outcome State Fault Refusal :=
  alu (.lsar h d a b) h s (fun r x => x.setPair d ((r.pair a).sshiftRight (count6 (r.reg b))))

/-- LCMP.s (R113): Compares two pairs as signed 64-bit values and writes a predicate pair. -/
def execLcmpS (h : Head) (n : BitVec 3) (p : BitVec 3) (a : BitVec 6) (b : BitVec 6) (s : State) :
    Host.Outcome State Fault Refusal :=
  alu (.lcmpS h n p a b) h s (fun r x => x.setPredCond p (condS n (r.pair a) (r.pair b)))

/-- LCMP.n (R113): Compares two pairs as unsigned 64-bit values and writes a predicate pair. -/
def execLcmpN (h : Head) (n : BitVec 3) (p : BitVec 3) (a : BitVec 6) (b : BitVec 6) (s : State) :
    Host.Outcome State Fault Refusal :=
  alu (.lcmpN h n p a b) h s (fun r x => x.setPredCond p (condN n (r.pair a) (r.pair b)))

/-- LAND (R111): Bitwise and of two pairs. -/
def execLand (h : Head) (d : BitVec 6) (a : BitVec 6) (b : BitVec 6) (s : State) :
    Host.Outcome State Fault Refusal :=
  alu (.land h d a b) h s (fun r x => x.setPair d (r.pair a &&& r.pair b))

/-- LOR (R111): Bitwise or of two pairs. -/
def execLor (h : Head) (d : BitVec 6) (a : BitVec 6) (b : BitVec 6) (s : State) :
    Host.Outcome State Fault Refusal :=
  alu (.lor h d a b) h s (fun r x => x.setPair d (r.pair a ||| r.pair b))

/-- LXOR (R111): Bitwise exclusive or of two pairs. -/
def execLxor (h : Head) (d : BitVec 6) (a : BitVec 6) (b : BitVec 6) (s : State) :
    Host.Outcome State Fault Refusal :=
  alu (.lxor h d a b) h s (fun r x => x.setPair d (r.pair a ^^^ r.pair b))

/-- LEA.1 (R112): Forms a pair address from a base pair plus a sign-extended index scaled by 1. -/
def execLea1 (h : Head) (d : BitVec 6) (a : BitVec 6) (b : BitVec 6) (s : State) :
    Host.Outcome State Fault Refusal :=
  alu (.lea1 h d a b) h s (fun r x => x.setPair d (r.pair a + (r.reg b).signExtend 64 * 1))

/-- LEA.2 (R112): Forms a pair address from a base pair plus a sign-extended index scaled by 2. -/
def execLea2 (h : Head) (d : BitVec 6) (a : BitVec 6) (b : BitVec 6) (s : State) :
    Host.Outcome State Fault Refusal :=
  alu (.lea2 h d a b) h s (fun r x => x.setPair d (r.pair a + (r.reg b).signExtend 64 * 2))

/-- LEA.4 (R112): Forms a pair address from a base pair plus a sign-extended index scaled by 4. -/
def execLea4 (h : Head) (d : BitVec 6) (a : BitVec 6) (b : BitVec 6) (s : State) :
    Host.Outcome State Fault Refusal :=
  alu (.lea4 h d a b) h s (fun r x => x.setPair d (r.pair a + (r.reg b).signExtend 64 * 4))

/-- LEA.8 (R112): Forms a pair address from a base pair plus a sign-extended index scaled by 8. -/
def execLea8 (h : Head) (d : BitVec 6) (a : BitVec 6) (b : BitVec 6) (s : State) :
    Host.Outcome State Fault Refusal :=
  alu (.lea8 h d a b) h s (fun r x => x.setPair d (r.pair a + (r.reg b).signExtend 64 * 8))

/-- IADDI (R110): Adds a sign-extended immediate to a register. -/
def execIaddi (h : Head) (d : BitVec 6) (a : BitVec 6) (k : BitVec 8) (s : State) :
    Host.Outcome State Fault Refusal :=
  alu (.iaddi h d a k) h s (fun r x => x.setReg d (r.reg a + k.signExtend 32))

/-- ANDI (R110): Bitwise and with a zero-extended immediate. -/
def execAndi (h : Head) (d : BitVec 6) (a : BitVec 6) (k : BitVec 8) (s : State) :
    Host.Outcome State Fault Refusal :=
  alu (.andi h d a k) h s (fun r x => x.setReg d (r.reg a &&& k.setWidth 32))

/-- ORI (R110): Bitwise or with a zero-extended immediate. -/
def execOri (h : Head) (d : BitVec 6) (a : BitVec 6) (k : BitVec 8) (s : State) :
    Host.Outcome State Fault Refusal :=
  alu (.ori h d a k) h s (fun r x => x.setReg d (r.reg a ||| k.setWidth 32))

/-- XORI (R110): Bitwise exclusive or with a zero-extended immediate. -/
def execXori (h : Head) (d : BitVec 6) (a : BitVec 6) (k : BitVec 8) (s : State) :
    Host.Outcome State Fault Refusal :=
  alu (.xori h d a k) h s (fun r x => x.setReg d (r.reg a ^^^ k.setWidth 32))

/-- SHLI (R110): Shifts left by an immediate count. -/
def execShli (h : Head) (d : BitVec 6) (a : BitVec 6) (k : BitVec 5) (s : State) :
    Host.Outcome State Fault Refusal :=
  alu (.shli h d a k) h s (fun r x => x.setReg d (r.reg a <<< k.toNat))

/-- SHRI (R110): Shifts right logically by an immediate count. -/
def execShri (h : Head) (d : BitVec 6) (a : BitVec 6) (k : BitVec 5) (s : State) :
    Host.Outcome State Fault Refusal :=
  alu (.shri h d a k) h s (fun r x => x.setReg d (r.reg a >>> k.toNat))

/-- SARI (R110): Shifts right arithmetically by an immediate count. -/
def execSari (h : Head) (d : BitVec 6) (a : BitVec 6) (k : BitVec 5) (s : State) :
    Host.Outcome State Fault Refusal :=
  alu (.sari h d a k) h s (fun r x => x.setReg d ((r.reg a).sshiftRight k.toNat))

/-- ICMPI.s (R110): Compares a register with a sign-extended immediate as signed values. -/
def execIcmpiS (h : Head) (n : BitVec 3) (p : BitVec 3) (a : BitVec 6) (k : BitVec 8) (s : State) :
    Host.Outcome State Fault Refusal :=
  alu (.icmpiS h n p a k) h s (fun r x => x.setPredCond p (condS n (r.reg a) (k.signExtend 32)))

/-- ICMPI.n (R110): Compares a register with a zero-extended immediate as unsigned values. -/
def execIcmpiN (h : Head) (n : BitVec 3) (p : BitVec 3) (a : BitVec 6) (k : BitVec 8) (s : State) :
    Host.Outcome State Fault Refusal :=
  alu (.icmpiN h n p a k) h s (fun r x => x.setPredCond p (condN n (r.reg a) (k.setWidth 32)))

/-- MOVI (R84): Writes a sign-extended 8-bit immediate to a register. -/
def execMovi (h : Head) (d : BitVec 6) (k : BitVec 8) (s : State) :
    Host.Outcome State Fault Refusal :=
  alu (.movi h d k) h s (fun _ x => x.setReg d (k.signExtend 32))

/-- LADDI (R110): Adds a sign-extended immediate to a pair modulo 2^64. -/
def execLaddi (h : Head) (d : BitVec 6) (a : BitVec 6) (k : BitVec 8) (s : State) :
    Host.Outcome State Fault Refusal :=
  alu (.laddi h d a k) h s (fun r x => x.setPair d (r.pair a + k.signExtend 64))

/-- IMULI (R110): Multiplies a register by a sign-extended immediate. -/
def execImuli (h : Head) (d : BitVec 6) (a : BitVec 6) (k : BitVec 8) (s : State) :
    Host.Outcome State Fault Refusal :=
  alu (.imuli h d a k) h s (fun r x => x.setReg d (r.reg a * k.signExtend 32))

/-- MOVL (R84): Writes the 32-bit literal in the next slot to a register. -/
def execMovl (h : Head) (d : BitVec 6) (lit : Word) (s : State) :
    Host.Outcome State Fault Refusal :=
  alu (.movl h d lit) h s (fun _ x => x.setReg d lit)

end Sys2Proof.Machine
end

