-- ==== Sys2Proof/Machine/Group.lean ====
section
/-! DEFINITION. Sys2Proof/Machine/Group.lean: the issue group as a whole: its words (R20, R21), chain violations (R21 to
R23), the one trap a fibre takes at issue (R97, R380, R381), breakpoints (R180 to R182); and posting accesses (R25). -/

namespace Sys2Proof.Machine

/-- An issue word of a group: its slot, the raw word, and what it decodes to. -/
structure GWord where
  slot : Nat
  raw : Word
  dec : Except Illegal Instr

/-- The words of the group that begins at `slot` of a packet (R20, R21). -/
def groupWords (ws : List Word) : Nat → Nat → List GWord
  | 0, _ => []
  | n + 1, slot =>
    match ws.drop slot with
    | [] => []
    | w :: rest =>
      ⟨slot, w, decodeAt (w :: rest)⟩ ::
        (if w.getLsbD 31 then groupWords ws n (slot + if ownsLiteral w then 2 else 1) else [])

/-- The group in progress. -/
def State.group (s : State) : List GWord := groupWords s.issue.words 3 s.issue.first

/-- The instructions of a group. -/
def groupInstrs (ws : List GWord) : List Instr :=
  ws.filterMap (fun g => match g.dec with
    | .ok i => some i
    | .error _ => none)

/-- Whether two lists share a number. -/
def meets (a b : List Nat) : Bool := a.any (fun x => b.contains x)

/-- Whether some two instructions of a list have a destination in common (R22). -/
def clash : List Instr → Bool
  | [] => false
  | i :: t => t.any (fun j => meets i.dests j.dests || meets i.predDests j.predDests) || clash t

def pipeCount (is : List Instr) (p : Pipe) : Nat := (is.filter (fun i => i.pipe == p)).length

/-- A chain violation (R21, R22): C = 1 on the last word of a packet, too many words for a pipe, or a shared
destination. -/
def chainBad (ws : List GWord) : Bool :=
  let is := groupInstrs ws
  (match ws.getLast? with
    | some g => g.raw.getLsbD 31
    | none => false)
  || decide (2 < pipeCount is .alu + 2 * pipeCount is .aluBoth)
  || decide (1 < pipeCount is .xu) || decide (1 < pipeCount is .mem) || decide (1 < pipeCount is .ctl)
  || decide (1 < pipeCount is .eng) || clash is

/-- One trap among those the words of a group raise, listed by slot (R380): the lowest illegal-instruction cause, then
the register window, then the first of the rest. -/
def pickTrap (l : List Trap) : Option Trap :=
  match l.filter (fun t => t.cls == 1) with
  | t :: rest => some (rest.foldl (fun b x => if x.cause < b.cause then x else b) t)
  | [] => match l.find? (fun t => t.cls == 2) with
    | some t => some t
    | none => l.head?

/-- The PC of a slot of the packet in progress. -/
def State.slotPc (s : State) (slot : Nat) : DWord := s.issue.pkt + BitVec.ofNat 64 (4 * slot)

/-- The trap that fibre k takes instead of the group. -/
def State.groupTrap (s : State) (ws : List GWord) (k : Nat) : Option Trap :=
  let own := ws.filterMap (fun g => match g.dec with
    | .ok i => s.issueTrap i k (s.slotPc g.slot)
    | .error e => some { cls := 1, cause := e.cause, pc := s.slotPc g.slot, addr := 0, flags := 0 })
  pickTrap (own ++ if chainBad ws then
    [{ cls := 1, cause := 5, pc := s.slotPc s.issue.first, addr := 0, flags := 0 }] else [])

/-- The lanes of the group that trap at issue, with their traps. -/
def State.groupBad (s : State) : List (Nat × Trap) :=
  let ws := s.group
  s.issue.lanes.filterMap (fun k => (s.groupTrap ws k).map (fun t => (k, t)))

/-! ### Breakpoints -/

/-- Whether a fibre satisfies a comparator's condition (R180, R181). -/
def breakHolds (w0 w1 : DWord) (f : Fibre) : Bool :=
  let r := (w0.extractLsb' 26 6).toNat
  let imm : Word := lo32 w1
  let v : Word := if w0.getLsbD 25 then f.preds.setWidth 32 else f.regN r
  let ok := w0.getLsbD 25 || decide (r < f.regs.length)
  match (w0.extractLsb' 22 3).toNat with
  | 0 => ok && v == imm
  | 1 => ok && v != imm
  | 2 => ok && v.slt imm
  | 3 => ok && !v.slt imm
  | 4 => ok && v.ult imm
  | 5 => ok && !v.ult imm
  | 6 => ok
  | _ => false

/-- Whether comparator (w0, w1) hits for the group in progress: the safe point's PC and the lanes that satisfy it.
DEDUCED: log entry 66. -/
def State.breakHit (s : State) (w0 w1 : DWord) : Option (DWord × List Nat) :=
  match s.gang s.issue.gang with
  | none => none
  | some g =>
    match s.context g.ctx, g.safePoints[(hi32 w0).toNat]? with
    | some c, some (pk, sl) =>
      let pc := g.codeBase + BitVec.ofNat 64 (12 * pk + 4 * sl)
      let inGroup := s.group.any (fun w => s.slotPc w.slot == pc)
      let hits := s.issue.lanes.filter (fun k => breakHolds w0 w1 (s.srcOf k))
      let sys := s.issue.lanes.any (fun k => (s.srcOf k).ctl.v)
      if w0.getLsbD 0 && (w1.extractLsb' 36 28).toNat == c.ctxid && inGroup && !sys && !hits.isEmpty
          && (!w0.getLsbD 21 || hits.length == s.issue.lanes.length) then some (pc, hits) else none
    | _, _ => none

/-- The breakpoint the group meets: the lowest-numbered comparator that hits (R182). -/
def State.breakTrap (s : State) : Option Trap :=
  let comps := (s.core s.issue.core).comps
  (List.range comps.length).findSome? (fun i =>
    let c := comps.getD i (0, 0)
    (s.breakHit c.1 c.2).map (fun h =>
      { cls := 0x41, cause := 0, pc := h.1, addr := BitVec.ofNat 64 i, flags := 0
        lane := (h.2.head?).map (fun k => (s.srcOf k).lane) }))

/-- The checks before the first word of a group: a breakpoint takes every lane, and the group does not issue (R182); otherwise it is
counted (R186), and the lanes that trap at issue leave it. At a meeting the others then wait for them again (R85). DEDUCED: log entry 65. -/
def State.screen (s : State) : State :=
  match s.breakTrap with
  | some t => (s.updCore s.issue.core (fun c => { c with issued := none })).trapAtIssue (s.issue.lanes.map (fun k => (k, t)))
  | none =>
    let s0 := s.count s.issue.core 0x11 1
    match s.groupBad with
    | [] => s0
    | bad =>
      let s1 := s0.trapAtIssue bad
      if s1.issue.meeting then
        let ks := s1.issue.lanes
        ({ s1 with issue := .idle }.unband ks).newBand ks .meeting
      else s1

/-! ### Results and accesses under way -/

/-- What a posted access is: its first destination register, address, operation and P field. -/
structure Post where
  dst : Nat
  addr : DWord
  op : AOp
  policy : Nat

/-- Posts one access per fibre of `ks`, in that order; `g` reads the fibre as it stood before the group. -/
def State.post (s : State) (i : Instr) (ks : List Nat) (g : Fibre → Post) : State :=
  let batch := s.nextId
  ks.foldl (fun s k =>
    let f := s.srcOf k
    let p := g f
    let a : Access :=
      { id := s.nextId, batch := batch, fibre := k, gang := f.gang, core := s.issue.core, pc := s.wordPc
        word := (encode i).headD 0, dst := p.dst, addr := p.addr, op := p.op, policy := p.policy
        budget := f.ctl.budget.toNat, arrived := none, phase := .issued, released := false, sys := f.ctl.v }
    { s with accesses := s.accesses ++ [a] }.bump) s

/-- A word whose effect is one access per fibre. -/
def posts (i : Instr) (h : Head) (s : State) (g : Fibre → Post) : Host.Outcome State Fault Refusal :=
  word i h s (fun s ks => s.post i ks g)

end Sys2Proof.Machine
end

