-- ==== Sys2Proof/Machine/Control.lean ====
section
/-! DEFINITION. Sys2Proof/Machine/Control.lean: control transfers, the end of a fibre, FORK, YIELD, NOP, TRAP, RETT, and
the special-register moves (R15, R69 to R73, R79 to R84, R168, R172). -/

namespace Sys2Proof.Machine

/-- The packet at an offset from another (R79). -/
def packetAt (pkt : DWord) (o : BitVec 18) : DWord := pkt + 12 * o.signExtend 64

/-- Whether the group in progress holds an RDS of special register i that is on in a fibre (R71). -/
def State.readsInGroup (s : State) (f : Fibre) (i : Nat) : Bool :=
  (groupInstrs s.group).any (fun w => match w with
    | .rds h _ n => n.toNat == i && f.guard h.g
    | _ => false)

/-- What RDS of index i reads in a fibre (R69, R71): a high half whose low half the group also reads is the current
one. -/
def State.readSpecial (s : State) (f : Fibre) (i : Nat) : Word :=
  match i with
  | 9 => if s.readsInGroup f 8 then hi32 (s.timeOf f) else s.special f 9
  | 11 => if s.readsInGroup f 10 then hi32 f.ctl.retired else s.special f 11
  | 17 => if s.readsInGroup f 16 then hi32 f.ctl.horizon else s.special f 17
  | _ => s.special f i

/-- BRA (R79): Branches to a packet at a signed offset. -/
def execBra (h : Head) (o : BitVec 18) (s : State) :
    Host.Outcome State Fault Refusal :=
  word (.bra h o) h s (fun s ks => s.request ks (fun _ => .jump s.wordPc (packetAt s.issue.pkt o)))

/-- CALL (R79): Writes the next packet address to w31 and branches. -/
def execCall (h : Head) (o : BitVec 18) (s : State) :
    Host.Outcome State Fault Refusal :=
  word (.call h o) h s (fun s ks => (s.sendResults false ks (fun _ => (pairWrites 31 (s.issue.pkt + 12), [], 0))).request ks
    (fun _ => .jump s.wordPc (packetAt s.issue.pkt o)))

/-- BRX (R80): Branches to the byte address held in a pair. -/
def execBrx (h : Head) (a : BitVec 6) (s : State) :
    Host.Outcome State Fault Refusal :=
  word (.brx h a) h s (fun s ks => s.request ks (fun k => .jump s.wordPc ((s.srcOf k).pair a)))

/-- RET (R80): Branches to the address held in w31. -/
def execRet (h : Head) (s : State) :
    Host.Outcome State Fault Refusal :=
  word (.ret h) h s (fun s ks => s.request ks (fun k => .jump s.wordPc ((s.srcOf k).pairN 31)))

/-- LOOP (R79): Decrements a count register and branches while it is nonzero. -/
def execLoop (h : Head) (d : BitVec 6) (k : BitVec 12) (s : State) :
    Host.Outcome State Fault Refusal :=
  word (.loop h d k) h s (fun s ks =>
    let count : Nat → Word := fun k' => (s.srcOf k').reg d - 1
    (s.sendResults false ks (fun k' => ([(d.toNat, count k')], [], 0))).request (ks.filter (fun k' => count k' != 0))
      (fun _ => .jump s.wordPc (packetAt s.issue.pkt (k.signExtend 18))))

/-- END (R81): Waits for outstanding results and ends the fibre. -/
def execEndF (h : Head) (s : State) :
    Host.Outcome State Fault Refusal :=
  word (.endF h) h s (fun s ks => s.request ks (fun _ => .endF s.wordPc))

/-- END.J (R82): Releases, decrements a join word, fills it at zero, and ends the fibre. -/
def execEndJ (h : Head) (a : BitVec 6) (s : State) :
    Host.Outcome State Fault Refusal :=
  word (.endJ h a) h s (fun s ks => (s.post (.endJ h a) ks (fun r => ⟨0, r.pair a, .dec, 0⟩)).request ks
    (fun _ => .endF s.wordPc))

/-- FORK (R168): Pushes entry, argument and join address onto the core's deque as a release. -/
def execFork (h : Head) (d : BitVec 6) (a : BitVec 6) (b : BitVec 6) (s : State) :
    Host.Outcome State Fault Refusal :=
  word (.fork h d a b) h s (fun s ks =>
    let good := ks.filter (fun k => targetOk (s.codeBase (s.srcOf k)) ((s.srcOf k).pair a) false)
    let bad := ks.filter (fun k => !targetOk (s.codeBase (s.srcOf k)) ((s.srcOf k).pair a) false)
    (s.post (.fork h d a b) good (fun r => ⟨0, r.pair d, .fork (r.pair a) (r.pair b), 0⟩)).request bad
      (fun k => .trap { cls := 5, cause := 0, pc := s.wordPc, addr := (s.srcOf k).pair a, flags := 0 }))

/-- YIELD (R83): Makes the band ineligible until other eligible bands have issued. -/
def execYield (h : Head) (s : State) :
    Host.Outcome State Fault Refusal :=
  word (.yield h) h s (fun s ks => s.request ks (fun _ => .yielded))

/-- NOP (R83): Does nothing but counts as a retired group. -/
def execNop (h : Head) (s : State) :
    Host.Outcome State Fault Refusal :=
  word (.nop h) h s (fun s _ => s)

/-- TRAP (R172): Raises the TRAP-instruction class with a 12-bit code. -/
def execTrap (h : Head) (k : BitVec 12) (s : State) :
    Host.Outcome State Fault Refusal :=
  word (.trap h k) h s (fun s ks => s.request ks (fun _ =>
    .trap { cls := 6, cause := k.toNat % 256, pc := s.wordPc, addr := k.setWidth 64, flags := 0 }))

/-- RETT (R172): Returns from a handler to %TRESUME, restoring shadow state when privileged. -/
def execRett (h : Head) (s : State) :
    Host.Outcome State Fault Refusal :=
  word (.rett h) h s (fun s ks => s.request ks (fun k => .rett s.wordPc (s.srcOf k).ctl.tresume))

/-- RDS (R84): Reads a special register by index, with half latching. -/
def execRds (h : Head) (d : BitVec 6) (i : BitVec 6) (s : State) :
    Host.Outcome State Fault Refusal :=
  word (.rds h d i) h s (fun s ks => s.updFibres ks (fun k x =>
    (x.setReg d (s.readSpecial (s.srcOf k) i.toNat)).latch i.toNat (s.timeOf (s.srcOf k))))

/-- WRS (R84): Writes a special register by index, subject to value rules. Of two in one group on one register other than %PRED,
which R22 does not name as a violation, the later slot's value remains. DESIGN CHOICE: log entry 79. -/
def execWrs (h : Head) (d : BitVec 6) (i : BitVec 6) (s : State) :
    Host.Outcome State Fault Refusal :=
  word (.wrs h d i) h s (fun s ks => s.updFibres ks (fun k x => x.setSpecial i.toNat ((s.srcOf k).reg d)))

end Sys2Proof.Machine
end

