-- ==== Sys2Proof/Machine/Layout.lean ====
section
/-! DEFINITION. Sys2Proof/Machine/Layout.lean: tensor regions (R253 to R261): formats, the box, tile extents, the slot of
an element, the layout record, handles; the monitor's window and the start of a move (R263 to R266, R272, R273). -/

namespace Sys2Proof.Machine

/-! ### Formats (R214, R255) -/

def fmtKind (w : Word) : Nat := (w.extractLsb' 28 4).toNat

/-- Bits of an element. -/
def fmtBits (w : Word) : Nat :=
  match fmtKind w with
  | 0 => (Narrow.ofWord w).width
  | 1 => 16
  | 2 => 16
  | 3 => 32
  | 4 => 64
  | 5 => 32
  | 6 => 32
  | 7 => 16
  | 8 => 16
  | 9 => 8
  | 10 => 8
  | _ => 64

/-- A tensor format word that breaks no rule of R255. -/
def fmtOk (w : Word) : Bool :=
  if fmtKind w == 0 then w.extractLsb' 23 9 == 0 && Narrow.legalWord w
  else decide (fmtKind w ≤ 12) && w.extractLsb' 0 28 == 0

def fmtNarrow (w : Word) : Bool := fmtKind w == 0

/-- The value LDT writes for an element's bits (R152). -/
def fmtExtend (w : Word) (v : Nat) : Nat :=
  match fmtKind w with
  | 7 => ((BitVec.ofNat 16 v).signExtend 32).toNat
  | 9 => ((BitVec.ofNat 8 v).signExtend 32).toNat
  | _ => v

/-! ### The box and the tile (R256, R261) -/

/-- The exponent of the least power of two that is at least n. -/
def ceilLog2 (n : Nat) : Nat := if n ≤ 1 then 0 else Nat.log2 (n - 1) + 1
/-- The least multiple of m that is at least n. -/
def roundUp (n m : Nat) : Nat := (n + m - 1) / m * m

namespace Region

def narrow (r : Region) : Bool := fmtNarrow r.format
/-- log2 P_d. -/
def pLog (r : Region) (d : Nat) : Nat :=
  let p := ceilLog2 (r.extents.getD d 1)
  if r.narrow && d == r.block then max p 4 else p
def boxLog (r : Region) : Nat := ((List.range r.dims).map r.pLog).foldl (· + ·) 0
def elements (r : Region) : Nat := ((List.range r.dims).map (fun d => r.extents.getD d 1)).foldl (· * ·) 1
def copyBytes (r : Region) : Nat := roundUp ((2 ^ r.boxLog * fmtBits r.format + 7) / 8) 64
def bitBytes (r : Region) : Nat := if r.policy == 0 then 0 else roundUp ((2 ^ r.boxLog + 7) / 8) 64
/-- The least size of the range. -/
def needBytes (r : Region) : Nat := roundUp (2 * (r.copyBytes + r.bitBytes)) 0x200000

/-- The allocation rule: log2 tile extents for an inner order, innermost first. -/
def tileGo (r : Region) : List Nat → Nat → List Nat → List Nat
  | [], _, te => te
  | d :: t, left, te =>
    let room := min 7 (r.pLog d) - te.getD d 0
    let add := min room left
    r.tileGo t (left - add) (te.set d (te.getD d 0 + add))

def tileOf (r : Region) (inner : List Nat) : List Nat :=
  let bytes := if r.narrow then 0 else Nat.log2 (fmtBits r.format / 8)
  let t := 12 - bytes
  let z := List.replicate r.dims 0
  if r.narrow then r.tileGo inner (t - 4) (z.set r.block 4) else r.tileGo inner t z

/-- A layout with one order in both fields. -/
def layoutOf (r : Region) (inner outer : List Nat) : Layout := ⟨inner, outer, r.tileOf inner⟩

/-- log2 of the elements of a tile. -/
def tileLog (l : Layout) : Nat := l.tile.foldl (· + ·) 0
/-- Tiles of a layout. -/
def tiles (r : Region) (l : Layout) : Nat := 2 ^ (r.boxLog - tileLog l)

/-- The tile of an element. -/
def tileNo (r : Region) (l : Layout) (x : List Nat) : Nat :=
  l.outer.reverse.foldl (fun n d => n * 2 ^ (r.pLog d - l.tile.getD d 0) + x.getD d 0 / 2 ^ l.tile.getD d 0) 0

/-- The offset of an element in its tile: in a narrow region the low four bits of the block coordinate stand
innermost. -/
def tileOff (r : Region) (l : Layout) (x : List Nat) : Nat :=
  let digit : Nat → Nat × Nat := fun d =>
    let te := l.tile.getD d 0
    let v := x.getD d 0 % 2 ^ te
    if r.narrow && d == r.block then (te - 4, v / 16) else (te, v)
  let off := l.inner.reverse.foldl (fun n d => n * 2 ^ (digit d).1 + (digit d).2) 0
  if r.narrow then off * 16 + x.getD r.block 0 % 16 else off

/-- The slot of an element (R261). -/
def slot (r : Region) (l : Layout) (x : List Nat) : Nat := r.tileNo l x * 2 ^ tileLog l + r.tileOff l x

/-- The copy, layout and slot in which an element stands now (R267). -/
def place (r : Region) (x : List Nat) : Nat × Nat :=
  match r.target with
  | some t => if r.tileNo t x < r.tileK then (1 - r.copy, r.slot t x) else (r.copy, r.slot r.cur x)
  | none => (r.copy, r.slot r.cur x)

/-- The virtual address of a copy, and of its bit area. DESIGN CHOICE: log entry 68. -/
def copyVa (r : Region) (c : Nat) : Nat := r.base.toNat + c * (r.copyBytes + r.bitBytes)
def bitVa (r : Region) (c : Nat) : Nat := r.copyVa c + r.copyBytes

/-- The linear index of an element (R253). -/
def linear (r : Region) (x : List Nat) : Nat :=
  (List.range r.dims).foldl (fun n d => n * r.extents.getD d 1 + x.getD d 0) 0
def inside (r : Region) (x : List Nat) : Bool :=
  (List.range r.dims).all (fun d => decide (x.getD d 0 < r.extents.getD d 1))

/-- The handle of a region (R257). -/
def handle (r : Region) : DWord := BitVec.ofNat 64 (r.check * 2 ^ 20 + r.index)

end Region

/-! ### Order fields and the record (R260) -/

/-- Entry j of an order or tile field. -/
def orderEntry (f : BitVec 15) (j : Nat) : Nat := f.toNat / 8 ^ j % 8
/-- The order an order field holds, innermost first; none when it is not a proper one for `dims`. -/
def orderOf (dims : Nat) (f : BitVec 15) : Option (List Nat) :=
  let es := (List.range 5).map (orderEntry f)
  if (List.range dims).all (fun d => (es.take dims).contains d) && (es.drop dims).all (fun e => e == 7)
  then some (es.take dims) else none
/-- Five 3-bit entries, `pad` beyond the list. -/
def fieldOf (pad : Nat) (l : List Nat) : Nat :=
  (List.range 5).foldl (fun n j => n + l.getD j pad * 8 ^ j) 0
/-- The declared order, dimension dims - 1 innermost. -/
def declaredOrder (dims : Nat) : List Nat := (List.range dims).reverse

def RegionState.code : RegionState → Nat
  | .settled => 0
  | .moving => 1
  | .pinned => 2
  | .held => 3

namespace Region

/-- The layout record as LAYQ returns it (R260, R271). -/
def record (r : Region) : DWord :=
  let l := r.target.getD r.cur
  BitVec.ofNat 64 (r.state.code * 2 ^ 62 + r.count * 2 ^ 60 + r.h * 2 ^ 56 + r.left * 2 ^ 45
    + fieldOf 7 l.outer * 2 ^ 30 + fieldOf 0 l.tile * 2 ^ 15 + fieldOf 7 l.inner)

/-- The latest requested layout (R272, R273). -/
def latest (r : Region) : Layout := r.pending.getD (r.target.getD r.cur)

/-- The default window length (R263). -/
def defaultWindow (r : Region) : Nat := min r.elements (2 ^ 32 - 1)

/-- Starts a move, or replaces the pending target while one runs (R266). -/
def moveTo (r : Region) (l : Layout) : Region :=
  match r.target with
  | none => { r with target := some l, tileK := 0, state := .moving, endState := r.state, endLeft := r.left }
  | some _ => { r with pending := some l }

/-- The end of a move (R266). -/
def endMove (r : Region) : Region :=
  match r.target with
  | none => r
  | some t =>
    let r1 := { r with copy := 1 - r.copy, cur := t, target := none, tileK := 0, state := r.endState, left := r.endLeft }
    match r.pending with
    | none => r1
    | some p => if p == t then { r1 with pending := none } else { r1 with pending := none }.moveTo p

/-- One notice at the monitor (R263). -/
def notice (r : Region) (gang : Nat) (x : List Word) : Region :=
  let others := r.entries.filter (fun e => e.1 != gang)
  let scores := match r.entries.find? (fun e => e.1 == gang) with
    | none => r.scores
    | some e =>
      match (List.range r.dims).filter (fun d => e.2.getD d 0 != x.getD d 0) with
      | [d] =>
        let a := (e.2.getD d 0).toNat
        let b := (x.getD d 0).toNat
        if a + 1 == b || b + 1 == a then r.scores.set d (r.scores.getD d 0 + 1) else r.scores
      | _ => r.scores
  { r with entries := ((gang, x) :: others).take 8, scores := scores, wcount := r.wcount + 1 }

/-- The dimension with the highest score: ties go to `i` if it is tied, else to the lowest. -/
def best (scores : List Nat) (dims i : Nat) : Nat :=
  let top := (List.range dims).foldl (fun m d => max m (scores.getD d 0)) 0
  if scores.getD i 0 == top then i else ((List.range dims).find? (fun d => scores.getD d 0 == top)).getD i

/-- The end of a window (R264, R265). -/
def windowDone (r : Region) : Region :=
  let z := { r with scores := List.replicate r.dims 0, wcount := 0, window := r.nextWindow }
  let i := r.cur.inner.headD 0
  let b := best r.scores r.dims i
  let sb := r.scores.getD b 0
  let decided := r.state == .settled && b != i && decide (1 ≤ sb) && decide (2 * r.scores.getD i 0 ≤ sb)
  match r.state with
  | .moving => z
  | .pinned => z
  | .held =>
    if r.left ≤ 1 then { z with left := 0, state := .settled } else { z with left := r.left - 1 }
  | .settled =>
    if decided then
      let o := b :: r.cur.inner.filter (fun d => d != b)
      let l := r.layoutOf o o
      if r.count == 0 then
        { z with count := 1, left := 4, target := some l, tileK := 0, state := .moving, endState := .settled, endLeft := 4 }
      else
        let h := if r.h == 0 then 2 else min (r.h + 1) 10
        { z with count := 0, h := h, left := 0, target := some l, tileK := 0, state := .moving
                 endState := .held, endLeft := 2 ^ h }
    else if r.count == 1 then
      if r.left ≤ 1 then { z with left := 0, count := 0 } else { z with left := r.left - 1 }
    else z

/-- LAYADV (R272): the status and the region. -/
def advise (r : Region) (w : DWord) : Nat × Region :=
  let o := orderOf r.dims (w.extractLsb' 17 15)
  let on := w.getLsbD 16
  if w.extractLsb' 0 16 != 0 || (on && o.isNone) then (2, r)
  else if r.pinned then (1, { r with refusedAdvice := w })
  else
    let n := (hi32 w).toNat
    let r1 := { r with nextWindow := if n == 0 then r.nextWindow else if n == 1 then r.defaultWindow else n }
    match on, o with
    | true, some l =>
      let t := r.layoutOf l l
      (0, if r.latest == t then r1 else r1.moveTo t)
    | _, _ => (0, r1)

/-- LAYPIN (R273): the status and the region. -/
def pin (r : Region) (w : DWord) : Nat × Region :=
  let p := w.getLsbD 0
  let k := w.getLsbD 1
  let outer := orderOf r.dims (w.extractLsb' 32 15)
  let inner := orderOf r.dims (w.extractLsb' 17 15)
  if w.extractLsb' 47 17 != 0 || w.extractLsb' 2 15 != 0 || (!p && w.extractLsb' 1 46 != 0)
      || (p && !k && (outer.isNone || inner.isNone)) then (2, r)
  else if p then
    let r1 := { r with pinned := true, scores := List.replicate r.dims 0, count := 0, left := 0 }
    let r2 := match k, inner, outer with
      | false, some i, some o =>
        let t := r.layoutOf i o
        if r.latest == t then r1 else r1.moveTo t
      | _, _, _ => r1
    (0, match r2.target with
      | none => { r2 with state := .pinned }
      | some _ => { r2 with state := .moving, endState := .pinned, endLeft := 0 })
  else if r.pinned then
    let r1 := { r with pinned := false, scores := List.replicate r.dims 0, count := 0, left := 0 }
    (0, match r1.target with
      | none => { r1 with state := .settled }
      | some _ => { r1 with state := .moving, endState := .settled, endLeft := 0 })
  else (0, r)

end Region

end Sys2Proof.Machine
end

