-- ==== Sys2Proof/Machine/Translate.lean ====
section
/-! DEFINITION. Sys2Proof/Machine/Translate.lean: the first stage of translation and the caches (R233 to R236), and the fault
queues (R241, R244). -/

namespace Sys2Proof.Machine

/-! ### Stage 1 (R233 to R235) -/

/-- What a translation answers. -/
inductive Xlat where
  /-- Host physical address, attribute, tensor page, and the stage-1 entry used. -/
  | ok (hpa attr : Nat) (tensor : Bool) (e : TlbEntry)
  /-- A fault, with the guest physical address stage 2 failed on. -/
  | fault (cause gpa : Nat)
  /-- The walk met an uncorrectable sector (R348). -/
  | lost
  deriving DecidableEq, Repr

def leafBytes (size : Nat) : Nat :=
  match size with
  | 0 => 0x10000
  | 1 => 0x200000
  | 2 => 0x4000000
  | _ => 0x80000000

/-- Malformed but for the repetition of large leaves (R235). -/
def pteBad (level : Nat) (e : DWord) : Bool :=
  let leaf := e.getLsbD 1
  let size := (e.extractLsb' 4 2).toNat
  e.extractLsb' 52 12 != 0 || e.getLsbD 12 || e.extractLsb' 2 2 != 0 || (e.extractLsb' 6 2).toNat == 3
    || (leaf && decide (level ≤ 1)) || (!leaf && level == 3) || (!leaf && size != 0)
    || (leaf && level == 2 && decide (size ≤ 1)) || (leaf && level == 3 && decide (2 ≤ size))
    || (leaf && (e.toNat % 2 ^ 52 / 2 ^ 13 * 2 ^ 13) % leafBytes size != 0)
    || (leaf && e.getLsbD 11 && size == 0)

/-- Bits [51:13]. -/
def pteAddr (e : DWord) : Nat := e.toNat % 2 ^ 52 / 2 ^ 13 * 2 ^ 13

/-- A page-table entry at a guest physical address, or what stops the walk there (R237, R348). -/
def State.pteAt (s : State) (c : Context) (gpa : Nat) : Except Xlat DWord :=
  match (s.part c.part).stage2 gpa 1 with
  | .error cause => .error (.fault cause gpa)
  | .ok (hpa, _) =>
    if s.lostKey (s.forward hpa) then .error .lost else .ok (BitVec.ofNat 64 (s.mem.read (s.forward hpa) 8))
/-- The keys of the 32 entries of a group, of which a large leaf is a copy in each (R234). -/
def State.groupKeys (s : State) (c : Context) (gpa : Nat) : List (Except Nat Nat) :=
  (List.range 32).map (fun i => match (s.part c.part).stage2 (gpa + 8 * i) 1 with
    | .ok (h, _) => .ok (s.forward h)
    | .error cause => .error cause)

/-- The shifts of the four levels (R233). -/
def levelShifts : List Nat := [46, 36, 26, 16]

/-- The walk from a table (R233): the shifts are those still to index. -/
def State.walk (s : State) (c : Context) (va : Nat) : Nat → List Nat → Nat → Xlat
  | _, [], _ => .fault 2 0
  | level, sh :: rest, table =>
    let idx := va / 2 ^ sh % 1024
    let gpa := table + 8 * idx
    match s.pteAt c gpa with
    | .error x => x
    | .ok e =>
      let size := (e.extractLsb' 4 2).toNat
      let group := gpa - 8 * (idx % 32)
      if !e.getLsbD 0 then .fault 0 0
      else if pteBad level e then .fault 2 0
      else if e.getLsbD 1 then
        let copies := if size == 1 || size == 3 then s.groupKeys c group else []
        if copies.any (fun k => match k with
            | .ok h => s.lostKey h
            | .error _ => false) then .lost
        else if !copies.all (fun k => match k with
            | .ok h => s.mem.read h 8 == e.toNat
            | .error _ => false) then .fault 2 0
        else
          let n := leafBytes size
          .ok 0 0 (e.getLsbD 11) ⟨c.part, c.asid, c.asidGen, va / n * n, n, pteAddr e, (e.extractLsb' 8 3).toNat,
            (e.extractLsb' 6 2).toNat, e.getLsbD 11⟩
      else s.walk c va (level + 1) rest (pteAddr e)

/-- The keys of the entries that a walk reads. -/
def State.walkKeys (s : State) (c : Context) (va : Nat) : Nat → List Nat → Nat → List Nat
  | _, [], _ => []
  | level, sh :: rest, table =>
    let idx := va / 2 ^ sh % 1024
    let gpa := table + 8 * idx
    match (s.part c.part).stage2 gpa 1, s.pteAt c gpa with
    | .error _, _ => []
    | .ok (h, _), .error _ => [s.forward h]
    | .ok (h, _), .ok e =>
      let size := (e.extractLsb' 4 2).toNat
      s.forward h :: (if !e.getLsbD 0 || pteBad level e then []
        else if !e.getLsbD 1 then s.walkKeys c va (level + 1) rest (pteAddr e)
        else if size == 1 || size == 3 then (s.groupKeys c (gpa - 8 * (idx % 32))).filterMap (fun k => match k with
          | .ok x => some x
          | .error _ => none)
        else [])

/-- The table pointers that a walk reads on its way. -/
def State.pointers (s : State) (c : Context) (va : Nat) : Nat → List Nat → Nat → List WalkEntry
  | _, [], _ => []
  | level, sh :: rest, table =>
    match s.pteAt c (table + 8 * (va / 2 ^ sh % 1024)) with
    | .error _ => []
    | .ok e =>
      if !e.getLsbD 0 || pteBad level e || e.getLsbD 1 then []
      else ⟨c.part, c.asid, c.asidGen, va / 2 ^ sh * 2 ^ sh, 2 ^ sh, level + 1, pteAddr e⟩ :: s.pointers c va (level + 1) rest (pteAddr e)

/-- The checks of a stage-1 entry and stage 2 (R235, R237). -/
def State.resolveEntry (s : State) (c : Context) (e : TlbEntry) (va : Nat) (n : Need) : Xlat :=
  if !covers e.perm n.bits then .fault 1 0
  else
    let gpa := e.gpa + (va - e.va)
    match (s.part c.part).stage2 gpa n.bits with
    | .error cause => .fault cause gpa
    | .ok (hpa, cap) => .ok (s.forward hpa) (max e.attr cap) e.tensor e

/-- Whether a cached translation serves an access (R236). -/
def TlbEntry.serves (e : TlbEntry) (c : Context) (va : Nat) : Bool :=
  e.part == c.part && e.asid == c.asid && e.gen == c.asidGen && decide (e.va ≤ va) && decide (va < e.va + e.size)

def WalkEntry.serves (e : WalkEntry) (c : Context) (va : Nat) : Bool :=
  e.part == c.part && e.asid == c.asid && e.gen == c.asidGen && decide (e.va ≤ va) && decide (va < e.va + e.size)

/-- Where the translation of a virtual address begins: each unit has a TLB and a walk cache of its own, so that an access uses any leaf
or table pointer still cached for its address, or a walk of its own (R236): a leaf, or the level and the table of a walk.
DESIGN CHOICE: log entry 15. -/
def State.startOf (s : State) (c : Context) (va : Nat) : TlbEntry ⊕ (Nat × Nat) :=
  let es := s.tlb.filter (fun e => e.serves c va)
  let ws := s.walks.filter (fun w => w.serves c va)
  let i := s.tlbPick % (es.length + ws.length + 1)
  match es[i]?, ws[i - es.length]? with
  | some e, _ => .inl e
  | none, some w => .inr (w.level, w.table)
  | none, none => .inr (0, c.root)

/-- The leaf that a translation uses, or what stops the walk to it. -/
def State.leafOf (s : State) (c : Context) (va : Nat) : Except Xlat TlbEntry :=
  match s.startOf c va with
  | .inl e => .ok e
  | .inr (level, table) => match s.walk c va level (levelShifts.drop level) table with
    | .ok _ _ _ e => .ok e
    | x => .error x

/-- The keys of the entries that it reads on the way. -/
def State.leafKeys (s : State) (c : Context) (va : Nat) : List Nat :=
  match s.startOf c va with
  | .inl _ => []
  | .inr (level, table) => s.walkKeys c va level (levelShifts.drop level) table

/-- Translation of a virtual address (R233 to R237). -/
def State.xlat (s : State) (c : Context) (va : Nat) (n : Need) : Xlat :=
  match s.leafOf c va with
  | .ok e => s.resolveEntry c e va n
  | .error x => x

/-- The address lies in a page with T = 1, which an access of bytes and a fetch may not name, whatever the page allows (R235, R259). -/
def State.tensorPage (s : State) (c : Context) (va : Nat) : Bool :=
  match s.leafOf c va with
  | .ok e => e.tensor
  | .error _ => false

/-- Keeps the stage-1 entry of a translation and the table pointers on the way to it (R236). -/
def State.cacheXlat (s : State) (c : Context) (va : Nat) (e : TlbEntry) : State :=
  if s.tlb.contains e then s
  else { s with tlb := e :: s.tlb, walks := (s.pointers c va 0 levelShifts c.root).filter (fun w => !s.walks.contains w) ++ s.walks }

/-- A unit keeps the translation of an address it has used; the walk to it has read its entries at their homes. -/
def State.cacheVa (s : State) (c : Context) (va : Nat) (n : Need) : State :=
  match s.xlat c va n with
  | .ok _ _ _ e => (s.homeReads { part := c.part } (s.leafKeys c va)).cacheXlat c va e
  | _ => s

/-- A new free value says which cached entries the next translations use (R236). DESIGN CHOICE: log entry 15. -/
def State.redraw (s : State) : State :=
  if s.tlb.isEmpty && s.walks.isEmpty then s
  else { s with tlbPick := Config.free s.fresh, fresh := s.fresh + 1 }

/-! ### Fault queues (R241, R244, R296, R359) -/

/-- The front writes bytes of a queue record, at the homes of their addresses (R229, R246); migration passes the write on to a moved
frame. -/
def State.queueBytes (s : State) (p hpa : Nat) (bytes : List Byte) : State :=
  let keys := (List.range bytes.length).map (fun i => s.forward (hpa + i))
  let m := (keys.zip bytes).foldl (fun m kb => m.setByte kb.1 kb.2) s.mem
  State.homeWrote { s with mem := m } { part := p } keys []

/-- Writes a 32-byte record at the tail of a context's fault queue. -/
def State.faultRecord (s : State) (cid : Nat) (bytes : List Byte) : State :=
  match s.context cid with
  | none => s
  | some c =>
    let s1 := match (s.part c.part).stage2 (c.fqBase.toNat + 32 * c.fqTail) 2 with
      | .ok (hpa, _) => s.queueBytes c.part hpa bytes
      | .error _ => s
    s1.setContext { c with fqTail := (c.fqTail + 1) % 2 ^ c.fqSize }

/-- Writes a 32-byte record at HQTAIL. -/
def State.hvBytes (s : State) (bytes : List Byte) : State :=
  (s.queueBytes 0 (s.pf.hqBase.toNat + 32 * s.pf.hqTail) bytes).updPf (fun f =>
    { f with hqTail := (f.hqTail + 1) % 2 ^ (f.hqSize.toNat % 32) })

/-- Notes a record of the hypervisor's queue whose layout the manual does not give. DESIGN CHOICE: log entry 45. -/
def State.hvRecord (s : State) (kind part value : Nat) : State :=
  { s with pf := { s.pf with records := s.pf.records ++ [⟨kind, part, value⟩]
                             hqTail := (s.pf.hqTail + 1) % 2 ^ (s.pf.hqSize.toNat % 32) } }

/-- Notes a fatal or notice record of a context's fault queue whose layout the manual does not give.
DESIGN CHOICE: log entry 45. -/
def State.noteFatal (s : State) (cid kind value : Nat) : State :=
  match s.context cid with
  | none => s
  | some c => s.setContext { c with fatal := c.fatal ++ [(kind, value)], fqTail := (c.fqTail + 1) % 2 ^ c.fqSize }

/-- The identity part of a page request (R244). -/
def requestBytes (c : Context) (number va cause gpa kind : Nat) : List Byte :=
  bytesOfNat 8 (number * 2 ^ 32 + c.ctxidWord.toNat)
    ++ bytesOfNat 8 (c.asid + c.asidGen * 2 ^ 16 + cause * 2 ^ 20 + kind * 2 ^ 23)
    ++ bytesOfNat 8 va ++ bytesOfNat 8 (if 3 ≤ cause then gpa else 0)

/-- A fault of a context on an address: a page request, unless one is outstanding for its 64 KiB range (R244); what caches the next
attempt uses is chosen anew. -/
def State.pageRequest (s : State) (cid va cause gpa kind : Nat) : State :=
  match s.context cid with
  | none => s
  | some c =>
    -- a walk that met lost data ends the context as a failed answer does (R348)
    if cause == 5 then s.countLost.endContext cid 2 2
    else if c.requests.any (fun r => r.range == va / 65536) then s.redraw
    else
      let n := c.nextRequest
      let s1 := (s.homeReads { part := c.part } (s.leafKeys c va)).setContext { c with nextRequest := (n + 1) % 2 ^ 32, requests := c.requests ++ [⟨n, va / 65536, cause⟩] }
      let bytes := requestBytes c n va cause gpa kind
      (if cause ≤ 2 then s1.faultRecord cid bytes else s1.hvBytes bytes).redraw

/-- n bytes from a virtual address, each translated: their keys, and whether one lies in a page with T = 1. -/
def State.vaKeys (s : State) (c : Context) (va : Nat) (n : Need) : Nat → Except (Nat × Nat × Nat) (List Nat × Bool)
  | 0 => .ok ([], false)
  | k + 1 =>
    if s.tensorPage c va then .ok ([], true)
    else match s.xlat c va n with
    | .ok hpa _ _ _ => match s.vaKeys c (va + 1) n k with
      | .ok (ks, u) => .ok (hpa :: ks, u)
      | .error e => .error e
    | .fault cause gpa => .error (cause, gpa, va)
    | .lost => .error (5, 0, va)

end Sys2Proof.Machine
end

