-- ==== Sys2Proof/Machine/Place.lean ====
section
/-! DEFINITION. Sys2Proof/Machine/Place.lean: what happens at the place of an access (R137, R139, R141 to R144, R151, R154 to
R157, R162 to R166, R230 to R232, R346 to R348): reading and writing the place, its full/empty bit, performing one access, the
wait list and its scan. -/

namespace Sys2Proof.Machine

/-! ### What an operation is -/

namespace AOp

/-- Store-class accesses (R149, R160). -/
def storeClass : AOp → Bool
  | .store .. => true
  | .rmw .. => true
  | .tags _ => true
  | .stt .. => true
  | .dec => true
  | _ => false
/-- Accesses that return a value to a register (R160). -/
def loadClass : AOp → Bool
  | .load .. => true
  | .ldt .. => true
  | .tagr => true
  | .rmw _ _ _ ret => ret
  | _ => false
/-- Acquires (R283), fences apart. -/
def acquires : AOp → Bool
  | .load _ _ .waiting => true
  | .load _ _ .consuming => true
  | .ldt .waiting .. => true
  | .ldt .consuming .. => true
  | .barw _ => true
  | .layacq => true
  | _ => false
/-- Operations held for the release condition (R147, R164, R165, R168, R179, R191, R192, R212, R240). -/
def releases : AOp → Bool
  | .store _ .filling _ => true
  | .store _ .forceFill _ => true
  | .stt .filling .. => true
  | .stt .forceFill .. => true
  | .dec => true
  | .bari _ => true
  | .barv => true
  | .marm .. => true
  | .sign _ => true
  | .cpyq => true
  | .icinv _ => true
  | .tlbinv _ => true
  | .fork .. => true
  | _ => false
/-- Posting words, which act in program order (R339). -/
def posting : AOp → Bool
  | .marm .. => true
  | .sign _ => true
  | .cpyq => true
  | .tgpost => true
  | .lnkq => true
  | _ => false
/-- Words whose lanes act in ascending lane order (R168, R191, R192, R212, R240, R270, R305, R332, R369). -/
def laneByLane : AOp → Bool
  | .layq => true
  | .layadv _ => true
  | .laypin _ => true
  | .layacq => true
  | .layrel => true
  | .fork .. => true
  | .tlbinv _ => true
  | o => o.posting
/-- Bytes of a byte-addressed access or barrier word. -/
def size : AOp → Option Nat
  | .load n _ _ => some n
  | .store n _ _ => some n
  | .rmw n _ _ _ => some n
  | .tagr => some 8
  | .tags _ => some 8
  | .dec => some 8
  | .bari _ => some 8
  | .barv => some 8
  | .barw _ => some 8
  | _ => none
/-- The form of a tensor access and its coordinates. -/
def tensor : AOp → Option (Form × List Word × Nat × Bool)
  | .ldt f c w o => some (f, c, w, o)
  | .stt f c w o _ => some (f, c, w, o)
  | _ => none
/-- Accesses whose lanes on one word are performed with nothing in between: the atomic class, BARV (R155, R165), and BARI and BARW,
whose lanes form one request at the row of their bank (R137; 09_program_ring.md, step 4). -/
def together : AOp → Bool
  | .rmw .. => true
  | .barv => true
  | .bari _ => true
  | .barw _ => true
  | _ => false
/-- What translation must allow. -/
def need : AOp → Need
  | .load .. => .read
  | .ldt .. => .read
  | .tagr => .read
  | .pref => .read
  | .cpyq => .read
  | .lnkq => .read
  | .tgpost => .read
  | .rmw .. => .atomic
  | .dec => .atomic
  | _ => .write
/-- Accesses that enter the side log on a translation fault (R242). -/
def logs : AOp → Bool
  | .store _ .filling _ => false
  | .store .. => true
  | .stt .filling .. => false
  | .stt .. => true
  | .rmw _ _ _ ret => !ret
  | .tags _ => true
  | .dec => true
  | _ => false

end AOp

/-- A byte-addressed access to scratch. -/
def Access.inScratch (a : Access) : Bool := a.op.size.isSome && a.addr.extractLsb' 56 8 != 0

/-! ### Reading and writing a place -/

namespace Loc

/-- A byte-addressed place of n bytes. -/
def ofBytes (key n attr : Nat) : Loc :=
  { keys := (List.range n).map (fun i => key + i), off := 0, width := 8 * n
    words := (List.range ((key + n - 1) / 8 - key / 8 + 1)).map (fun i => key / 8 + i), elem := none, attr := attr }

def first (l : Loc) : Nat := l.keys.headD 0
def scratch (l : Loc) : Bool := isScratch l.first
/-- The bytes as one number. -/
def bytes (m : Memory) (l : Loc) : Nat := natOfBytes (l.keys.map m.byte)
def value (m : Memory) (l : Loc) : Nat := bytes m l / 2 ^ l.off % 2 ^ l.width
/-- Memory with a value at the place. -/
def store (m : Memory) (l : Loc) (v : Nat) : Memory :=
  let b := bytes m l
  let hi := b / 2 ^ (l.off + l.width) * 2 ^ (l.off + l.width)
  (l.keys.zip (bytesOfNat l.keys.length (hi + v % 2 ^ l.width * 2 ^ l.off + b % 2 ^ l.off))).foldl
    (fun m kb => m.setByte kb.1 kb.2) m
/-- Every full/empty bit it covers is full (R142); an element without a bit is full (R256). -/
def full (m : Memory) (l : Loc) : Bool :=
  match l.elem with
  | some (_, _, some (k, b)) => (m.byte k).getLsbD b
  | some (_, _, none) => true
  | none => l.words.all m.full
def empty (m : Memory) (l : Loc) : Bool :=
  match l.elem with
  | some (_, _, some (k, b)) => !(m.byte k).getLsbD b
  | some (_, _, none) => false
  | none => l.words.all (fun w => !m.full w)
def setFull (m : Memory) (l : Loc) (f : Bool) : Memory :=
  match l.elem with
  | some (_, _, some (k, b)) =>
    let x := m.byte k
    m.setByte k (if f then x ||| BitVec.ofNat 8 (2 ^ b) else x &&& ~~~(BitVec.ofNat 8 (2 ^ b)))
  | some (_, _, none) => m
  | none => l.words.foldl (fun m w => m.setFull w f) m
/-- Two places share a word or are one element. -/
def meets (a b : Loc) : Bool :=
  match a.elem, b.elem with
  | some (r, i, _), some (r2, i2, _) => r == r2 && i == i2
  | none, none => a.words.any (fun w => b.words.contains w)
  | _, _ => false
/-- The place grown by the words of another. -/
def join (a b : Loc) : Loc := { a with words := a.words ++ b.words.filter (fun w => !a.words.contains w) }

end Loc

/-! ### Atomic operations (R154, R156) -/

def Rmw.apply (f : Rmw) (size old x : Nat) : Nat :=
  let n := 2 ^ (8 * size)
  let sg : Nat → Int := fun v => if v < n / 2 then (v : Int) else (v : Int) - n
  match f with
  | .add => (old + x) % n
  | .minS => if sg old ≤ sg x then old else x
  | .minN => min old x
  | .maxS => if sg x ≤ sg old then old else x
  | .maxN => max old x
  | .and => old &&& x
  | .or => old ||| x
  | .xor => old ^^^ x
  | .fadd => (fAdd .f32 .rne old x).1
  | .fmin => (fMinMax .f32 false old x).1
  | .fmax => (fMinMax .f32 true old x).1
  | .swap => x
  | .cas e => if old == e then x else old

/-! ### The registers a value goes to -/

/-- n bytes into consecutive registers (R146): a narrower value is extended to 32 bits. -/
def loadWrites (dst size : Nat) (sx : Bool) (v : Nat) : List (Nat × Word) :=
  if size ≤ 4 then
    [(dst, if sx then BitVec.ofNat 32 (if v < 2 ^ (8 * size - 1) then v else v + 2 ^ 32 - 2 ^ (8 * size)) else BitVec.ofNat 32 v)]
  else (List.range (size / 4)).map (fun i => (dst + i, BitVec.ofNat 32 (v / 2 ^ (32 * i))))

namespace State

/-! ### Order of arrival at a place (R189, R229) and the peal (R248) -/

/-- The peal round of a time: 64 cycles of 1.7 GHz. DEDUCED: log entry 8. -/
def pealRound (t : Nat) : Nat := t * 17 / 640
/-- A request with an order key may be performed at a slice now: none of the same round with a higher key was performed. Keys: a
core's number, 192 + c and 240 + c for the copy and the matrix engine of cluster c, 288 for the front and the link engines.
DEDUCED: log entry 73. -/
def inTurn (s : State) (sl key : Nat) : Bool :=
  let last := s.sliceLast.getD sl (0, 0)
  decide (last.1 < pealRound s.time) || (last.1 == pealRound s.time && decide (last.2 ≤ key))
def tookTurn (s : State) (sl key : Nat) : State := { s with sliceLast := s.sliceLast.set sl (pealRound s.time, key) }
/-- A map of the peal has a slot of a partition. -/
def hasSlot (m : List (BitVec 8)) (p : Nat) : Bool := m.any (fun b => b.getLsbD 4 && (b.extractLsb' 0 4).toNat == p)
/-- A partition's traffic from a core can reach a slice: it owns network slots, and bridge slots where dies differ. -/
def reaches (s : State) (p core sl : Nat) : Bool :=
  hasSlot s.pf.netLive p && (core / 96 == sl / 32 || hasSlot s.pf.bridgeLive p)

/-- The same at a scratch bank: in a cycle the cores of the cluster, keys 0 to 3, then the copy engine, 4, then the matrix
engine, 5. DEDUCED: log entry 73. -/
def bankTurn (s : State) (core key : Nat) : Bool :=
  let last := s.bankLast.getD core (0, 0)
  !(last.1 == s.time && decide (key < last.2))
def tookBank (s : State) (core key : Nat) : State := { s with bankLast := s.bankLast.set core (s.time, key) }

/-- The slices, and the cores whose scratch, a list of keys reaches. -/
def slicesOf (s : State) (p : Nat) (keys : List Nat) : List Nat :=
  ((keys.filter (fun k => !isScratch k)).map (homeSlice (s.firstGroup p))).dedup
def banksOf (keys : List Nat) : List Nat := ((keys.filter isScratch).map (fun k => (k - 2 ^ 52) / 2 ^ 19)).dedup

/-- An engine of a cluster may reach its places now: `bank` is its key at a bank, and 192 + 48 (bank - 4) + cluster at a slice. -/
def engineTurn (s : State) (p cluster bank : Nat) (keys : List Nat) : Bool :=
  (s.slicesOf p keys).all (fun sl => s.inTurn sl (192 + 48 * (bank - 4) + cluster) && s.reaches p (4 * cluster) sl)
    && (banksOf keys).all (fun c => s.bankTurn c bank)
def engineTook (s : State) (p cluster bank : Nat) (keys : List Nat) : State :=
  (banksOf keys).foldl (fun s c => s.tookBank c bank)
    ((s.slicesOf p keys).foldl (fun s sl => s.tookTurn sl (192 + 48 * (bank - 4) + cluster)) s)
/-- The front or a link engine has reached its places for a partition: the last in the order of a round. -/
def frontTook (s : State) (p : Nat) (keys : List Nat) : State := (s.slicesOf p keys).foldl (fun s sl => s.tookTurn sl 288) s
/-- The front or a link engine reads at the homes. -/
def frontReads (s : State) (u : HomeUse) (keys : List Nat) : State := (s.homeReads u keys).frontTook u.part keys

/-- The latest lease expiry granted on the line of an address. -/
def leaseOf (s : State) (a : Nat) : Nat := (s.leases.lookup (lineOf a)).getD 0

/-- The completion time of a write at a place (R139, R259). -/
def ctimeAt (s : State) (l : Loc) : Nat :=
  if l.elem.isSome then s.time else max s.time (s.leaseOf l.first)

/-- The node of a launch. -/
def nodeOf (s : State) (gid : Nat) : Option Nat := ((s.gang gid).bind (fun g => s.launch g.launch)).map (·.node)
/-- A completion time joins those of the writes of a gang's launch (R303). -/
def joinLaunch (s : State) (gid t : Nat) : State :=
  match s.gang gid with
  | none => s
  | some g => match s.launch g.launch with
    | none => s
    | some l => s.setLaunch { l with ctime := max l.ctime t }
/-- The latest completion time of writes at a list of keys (R139). -/
def leasesOf (s : State) (keys : List Nat) : Nat := (keys.map s.leaseOf).foldl max s.time

/-- The partition of a gang. -/
def partOf (s : State) (gid : Nat) : Nat :=
  match s.gang gid with
  | some g => g.part
  | none => 0

/-- The context of a gang. -/
def ctxOf (s : State) (gid : Nat) : Option Nat := (s.gang gid).map (·.ctx)
/-- An access as a user of its home (R140). -/
def useOf (s : State) (a : Access) (l : Loc) : HomeUse :=
  { part := s.partOf a.gang, ctx := s.ctxOf a.gang, attr := l.attr, policy := enterPolicy l.attr a.policy }

/-- The words of a core's copy of a line that a store of the core has reached are replaced (R279). -/
def storedL1 (s : State) (core : Nat) (l : Loc) : State :=
  let line := lineOf l.first
  let on : Nat → Bool := fun i => l.words.contains (8 * line + i / 8)
  let upd : L1Line → L1Line := fun x => if x.core == core && x.line == line && l.elem.isNone then
    { x with data := x.data.mapIdx (fun i b => if on i then s.mem.byte (64 * line + i) else b)
             full := x.full.mapIdx (fun i b => if on (8 * i) then s.mem.full (8 * line + i) else b) }
    else x
  { s with l1 := s.l1.map upd }

/-- A store-class access has been performed, its data, its bit or both written: in scratch it is finished, at a home its
acknowledgement is under way, and a write to host memory on its way to the host. DESIGN CHOICE: log entry 74. -/
def acked (s : State) (a : Access) (l : Loc) (data bit : Bool) : State :=
  if l.scratch then s.dropAccess a.id
  else
    let s1 := (s.storedL1 a.core l).placeWrote (s.useOf a l) l data bit
    (s1.hostSees (some a.fibre) (s.partOf a.gang) (s.nodeOf a.gang) (placeKeys l)).setAccess { a with phase := .performed (s.ctimeAt l), loc := some l }

/-- The line's bytes and bits at its home now. -/
def lineData (s : State) (ln : Nat) : List Byte × List Bool :=
  (s.mem.readBytes (64 * ln) 64, (List.range 8).map (fun i => s.mem.full (8 * ln + i)))

/-- Data that return from a home replace a core's copy of the line (R279). -/
def refreshL1 (s : State) (core : Nat) (ln : Nat) : State :=
  let d := s.lineData ln
  let upd : L1Line → L1Line := fun x => if x.core == core && x.line == ln then { x with data := d.1, full := d.2 } else x
  if s.l1.any (fun x => x.core == core && x.line == ln) then { s with l1 := s.l1.map upd } else s

/-- The home has returned data of a place to a core (R279). -/
def homeReturns (s : State) (a : Access) (l : Loc) : State :=
  if l.scratch || l.elem.isSome then s else s.refreshL1 a.core (lineOf l.first)

/-- A value returns to a fibre (R25). -/
def returns (s : State) (a : Access) (w : List (Nat × Word)) : State :=
  s.addResult { id := 0, fibre := a.fibre, pc := a.pc, xu := false, mem := true, writes := w, preds := [], flags := 0
                trap := none }

/-- An access ends with a trap at its fibre's switch marker, with no effect (R150). -/
def accessTrap (s : State) (a : Access) (cls cause : Nat) (addr : DWord) : State :=
  (s.dropAccess a.id).updCtls [a.fibre] (fun _ c =>
    { c with due := c.due ++ [{ cls := cls, cause := cause, pc := a.pc, addr := addr, flags := 0 }] })

/-- Whether a gang is deterministic. -/
def isDet (s : State) (gid : Nat) : Bool :=
  match s.gang gid with
  | some g => g.det
  | none => false
/-- Whether an access on global memory is staged: one of a deterministic gang, issued with V = 0 (R315, R322). -/
def staged (s : State) (a : Access) : Bool := s.isDet a.gang && !a.sys

end State

/-! ### Barriers (R161 to R166) -/

def barPhase (w : DWord) : Nat := (w.extractLsb' 48 16).toNat
def barExpected (w : DWord) : Nat := (w.extractLsb' 32 16).toNat
def barArrived (w : DWord) : Nat := (w.extractLsb' 16 16).toNat
def barGroup (w : DWord) : Nat := (w.extractLsb' 8 8).toNat

/-- The word BARI writes, or the cause of its trap (R164). -/
def bariWord (groups : List (Nat × Nat × Nat × Nat)) (v : Word) : Except Nat DWord :=
  let exp := (v.extractLsb' 16 16).toNat
  let gid := (v.extractLsb' 8 8).toNat
  let grp := v.getLsbD 0
  if v.extractLsb' 1 7 != 0 || (!grp && exp == 0) || (!grp && gid != 0) || (grp && exp != 0) then .error 0
  else if grp then
    match groups.find? (fun g => g.1 == gid) with
    | some (_, _, count, _) => .ok (BitVec.ofNat 64 (count % 65536 * 2 ^ 32 + gid * 256 + 1))
    | none => .error 1
  else .ok (BitVec.ofNat 64 (exp * 2 ^ 32))

/-- One arrival (R165): the new word, the phase it arrived in, and the phase it completed. -/
def barrierArrive (w : DWord) : DWord × Nat × Option Nat :=
  let p := barPhase w
  let rest := w.toNat % 2 ^ 16
  if barExpected w ≤ barArrived w + 1 then
    let q := (p + 1) % 65536
    (BitVec.ofNat 64 (q * 2 ^ 48 + barExpected w * 2 ^ 32 + rest), p, some q)
  else (BitVec.ofNat 64 (p * 2 ^ 48 + barExpected w * 2 ^ 32 + (barArrived w + 1) * 2 ^ 16 + rest), p, none)

/-- Whether a barrier has passed the wanted phase (R166). -/
def barrierPassed (w : DWord) (wanted : Nat) : Bool := decide ((barPhase w + 65536 - wanted) % 65536 < 32768)

/-! ### Performing one access -/

/-- Whether the condition of an access holds at its place (R141, R166, R332). -/
def AOp.ready (op : AOp) (m : Memory) (l : Loc) : Bool :=
  match op with
  | .load _ _ .waiting => l.full m
  | .load _ _ .consuming => l.full m
  | .store _ .filling _ => l.empty m
  | .ldt .waiting .. => l.full m
  | .ldt .consuming .. => l.full m
  | .stt .filling .. => l.empty m
  | .barw wanted => barrierPassed (BitVec.ofNat 64 (l.value m)) wanted
  | .layacq => l.full m
  | _ => true

/-- Accesses that run against a budget (R144, R166, R192, R332). -/
def AOp.waits : AOp → Bool
  | .load _ _ .waiting => true
  | .load _ _ .consuming => true
  | .store _ .filling _ => true
  | .ldt .waiting .. => true
  | .ldt .consuming .. => true
  | .stt .filling .. => true
  | .barw _ => true
  | .layacq => true
  | .sign _ => true
  | _ => false

/-- An operation tests or takes the bit of its place (R141). -/
def AOp.testsBit (op : AOp) : Bool :=
  match op with
  | .load _ _ f => f == .waiting || f == .consuming
  | .ldt f .. => f == .waiting || f == .consuming
  | .store _ f _ => f == .filling
  | .stt f .. => f == .filling
  | .tagr => true
  | _ => false

/-- The bit a store form leaves. -/
def Form.leaves : Form → Option Bool
  | .filling => some true
  | .forceFill => some true
  | .forceEmpty => some false
  | _ => none

/-- An operation writes the data, and the bit, of its place (R141). -/
def AOp.writesData : AOp → Bool
  | .store .. => true
  | .rmw .. => true
  | .stt .. => true
  | .dec => true
  | _ => false
def AOp.writesBit : AOp → Bool
  | .load _ _ f => f == .consuming
  | .ldt f .. => f == .consuming
  | .store _ f _ => f.leaves.isSome
  | .stt f .. => f.leaves.isSome
  | .tags _ => true
  | .dec => true
  | _ => false

/-- Whether an access needs the data or the bit of its place, so that lost data reach it (R347, R348). -/
def AOp.needsData (op : AOp) : Bool :=
  match op with
  | .store _ .filling _ => true
  | .store .. => false
  | .stt .filling .. => true
  | .stt .. => false
  | .tags _ => false
  | .bari _ => false
  | _ => true

def setForm (m : Memory) (l : Loc) (f : Form) : Memory :=
  match f.leaves with
  | some b => l.setFull m b
  | none => m

namespace State

/-- What a load leaves at its place: a consuming one empties it, which is a write at its home (R141, R246). -/
def taken (s : State) (a : Access) (l : Loc) (form : Form) : State :=
  if form == .consuming then { s with mem := l.setFull s.mem false }.placeWrote (s.useOf a l) l false true else s

/-- The group table of a gang. -/
def groupsOf (s : State) (gid : Nat) : List (Nat × Nat × Nat × Nat) :=
  match s.gang gid with
  | some g => g.groups
  | none => []

/-- Performs an access whose condition holds at its place, as one indivisible step (R142). -/
def act (s : State) (a : Access) (l : Loc) : State :=
  match a.op with
  | .load size sx form =>
    let v := l.value s.mem
    let s1 := s.taken a l form
    ((s1.homeReturns a l).dropAccess a.id).returns a (loadWrites a.dst size sx v)
  | .store _ form data => { s with mem := setForm (l.store s.mem data) l form }.acked a l true form.leaves.isSome
  | .rmw size f x ret =>
    let old := l.value s.mem
    let s1 := { s with mem := l.store s.mem (f.apply size old x) }.acked a l true false
    if ret then (s1.homeReturns a l).returns a (loadWrites a.dst size false old) else s1
  | .tagr => ((s.homeReturns a l).dropAccess a.id).returns a [(a.dst, if l.full s.mem then 1 else 0)]
  | .tags f => { s with mem := l.setFull s.mem f }.acked a l false true
  | .ldt form _ _ _ =>
    let v := l.value s.mem
    let s1 := s.taken a l form
    let fmt : Word := match l.elem with
      | some (r, _, _) => match s.region r with
        | some rg => rg.format
        | none => 0
      | none => 0
    let x := fmtExtend fmt v
    (s1.dropAccess a.id).returns a (if l.width == 64 then loadWrites a.dst 8 false x else loadWrites a.dst 4 false x)
  | .stt form _ _ _ data => { s with mem := setForm (l.store s.mem data) l form }.acked a l true form.leaves.isSome
  | .dec =>
    let old := l.value s.mem
    let m := l.store s.mem (old + 2 ^ 64 - 1)
    { s with mem := if old == 1 then l.setFull m true else m }.acked a l true (old == 1)
  | .bari v =>
    match bariWord (s.groupsOf a.gang) v with
    | .ok w => { s with mem := l.setFull (l.store s.mem w.toNat) true }.dropAccess a.id
    | .error c => s.accessTrap a 0x15 c a.addr
  | .barv =>
    let r := barrierArrive (BitVec.ofNat 64 (l.value s.mem))
    let s1 := { s with mem := l.store s.mem r.1.toNat }.dropAccess a.id
    let s2 := match r.2.2 with
      | some q => s1.updCtls [a.fibre] (fun _ c =>
          { c with electAddr := a.addr, electWord := BitVec.ofNat 32 (2 ^ 31 + q) })
      | none => s1
    s2.returns a [(a.dst, BitVec.ofNat 32 r.2.1)]
  | .barw wanted =>
    let w := BitVec.ofNat 64 (l.value s.mem)
    let f := s.fibre a.fibre
    let s1 := s.dropAccess a.id
    if s.isDet a.gang then
      let e := match s.gang a.gang with
        | some g => w.getLsbD 0 && g.groups.any (fun x => x.1 == barGroup w && x.2.1 == f.idx)
        | none => false
      s1.returns a [(a.dst, if e then 1 else 0)]
    else
      let e := f.ctl.electAddr == a.addr && f.ctl.electWord == BitVec.ofNat 32 (2 ^ 31 + wanted)
      let s2 := if e then s1.updCtls [a.fibre] (fun _ c => { c with electAddr := 0, electWord := 0 }) else s1
      s2.returns a [(a.dst, if e then 1 else 0)]
  | .layacq => s.dropAccess a.id
  | _ => s

/-! ### Lost data (R346 to R348) -/

/-- The keys that an access needs at its place: its bytes, and the byte of an element's bit where it tests the bit. -/
def neededKeys (a : Access) (l : Loc) : List Nat := if a.op.testsBit then placeKeys l else l.keys

/-- The cause of the data-loss trap an access meets at its place. DEDUCED: log entry 67. -/
def lossCause (s : State) (a : Access) (l : Loc) : Option Nat :=
  if l.scratch then
    let partial_ := decide (l.width < 64 * l.words.length) || (match a.op with
      | .tags _ => true
      | _ => false)
    if l.words.any (fun w => s.sram.contains (.scratch w)) && (a.op.needsData || partial_) then some 2 else none
  else if !a.op.needsData then none
  else
    let cs := (neededKeys a l).filterMap s.lostAt
    [1, 4, 0].find? (fun c => cs.contains c)

/-! ### The address of an access -/

/-- The virtual address at which a copy's slot begins, and its bit offset in that byte. -/
def slotVa (r : Region) (copy slot : Nat) : Nat × Nat :=
  let off := slot * fmtBits r.format
  (r.copyVa copy + off / 8, off % 8)

/-- The virtual address of a global access (R243, R244, R347). -/
def accVa (s : State) (a : Access) : Option Nat :=
  match a.op.tensor with
  | some (_, cs, _, _) =>
    match s.gang a.gang with
    | none => none
    | some g => match s.regionOf g.ctx a.addr with
      | none => none
      | some r => let p := r.place ((cs.take r.dims).map (·.toNat)); some (slotVa r p.1 p.2).1
  | none => if a.op.size.isSome && !a.inScratch then some a.addr.toNat else none

/-- An access meets lost data: it traps with no effect, its address that of the access (R347, R348). -/
def lossTrap (s : State) (a : Access) (cause : Nat) : State :=
  (s.noteLoss (a.core / 4) cause).accessTrap a 0x1A cause (match s.accVa a with
    | some v => BitVec.ofNat 64 v
    | none => a.addr)

/-! ### The wait list (R143, R144, R230 to R232) -/

/-- The order in which waiters of a word are tried (R143, R230): first those of launches that are not deterministic by
stamp, then those of deterministic gangs. -/
def waitKey (s : State) (a : Access) : List Nat :=
  let stamp := match a.phase with
    | .waiting n _ => n
    | _ => a.id
  match s.gang a.gang with
  | none => [0, stamp]
  | some g =>
    if g.det then
      let f := s.fibre a.fibre
      let node := match s.launch g.launch with
        | some l => l.node
        | none => 0
      [1, node, g.index, f.crew, f.lane, a.id]
    else [0, stamp]

/-- Lexicographic comparison. -/
def keyLe : List Nat → List Nat → Bool
  | [], _ => true
  | _ :: _, [] => false
  | a :: t, b :: u => decide (a < b) || (a == b && keyLe t u)

def insertWait (s : State) (a : Access) : List Access → List Access
  | [] => [a]
  | b :: t => if keyLe (s.waitKey a) (s.waitKey b) then a :: b :: t else b :: s.insertWait a t

/-- The waiters of a place in the order they are tried. -/
def waitersOf (s : State) (l : Loc) : List Access :=
  (s.accesses.filter (fun a => match a.phase, a.loc with
    | .waiting .., some x => x.meets l
    | _, _ => false)).foldr (fun a acc => s.insertWait a acc) []

/-- Whether an access's budget still allows it to be performed (R144). DEDUCED: log entry 14. -/
def inBudget (s : State) (a : Access) : Bool :=
  !a.op.waits || a.budget == 0 || (match a.arrived with
    | some t => decide (s.time < t + a.budget)
    | none => true)

/-- The home slice of a place. -/
def sliceOf (s : State) (p : Nat) (l : Loc) : Nat := homeSlice (s.firstGroup p) l.first

/-- Waiters a slice holds on chip, and records parked by a partition. -/
def onChip (s : State) (slice : Nat) : Nat :=
  (s.accesses.filter (fun a => match a.phase, a.loc with
    | .waiting _ false, some l => !l.scratch && s.sliceOf (s.partOf a.gang) l == slice
    | _, _ => false)).length
def parkedBy (s : State) (p : Nat) : Nat :=
  (s.accesses.filter (fun a => match a.phase with
    | .waiting _ true => s.partOf a.gang == p
    | _ => false)).length

/-- Puts an access whose condition does not hold into its wait list: the bank's, a slice's eight entries, the park area,
or refuses it (R143, R231). -/
def wait (s : State) (a : Access) (l : Loc) : State :=
  if l.scratch then s.bump.setAccess { a with loc := some l, phase := .waiting s.nextId false }
  else
    let p := s.partOf a.gang
    let sl := s.sliceOf p l
    let stamp := s.stamps.getD sl 0
    let s1 := { s with stamps := s.stamps.set sl (stamp + 1) }
    if s.onChip sl < Config.sliceWaits then s1.setAccess { a with loc := some l, phase := .waiting stamp false }
    else if 32 * (s.parkedBy p + 1) ≤ (s.part p).parkSize.toNat then
      s1.setAccess { a with loc := some l, phase := .waiting stamp true }
    else s.setAccess { a with loc := some l, phase := .refused }

/-- An access that is performed writes the whole of its place without needing what lay there (R346, R348). -/
def overwrites (s : State) (a : Access) : Bool :=
  !a.op.needsData && (match a.op with
    | .bari v => (bariWord (s.groupsOf a.gang) v).isOk
    | .tags _ => false
    | _ => true)

/-- A write of whole words ends the errors in them (R346, R348). -/
def healWords (s : State) (l : Loc) : State :=
  { s with sram := s.sram.filter (fun e => match e with
    | .scratch w => !(l.scratch && l.words.contains w && l.width == 64 * l.words.length)
    | .l2 w => !(!l.scratch && l.words.contains w && l.width == 64 * l.words.length)
    | _ => true) }

/-- An access arrives at its place: lost data trap it, a condition that does not hold makes it wait, otherwise it is
performed. -/
def arrive (s : State) (a0 : Access) (l : Loc) : State :=
  let a := { a0 with arrived := some (a0.arrived.getD s.time) }
  match s.lossCause a l with
  | some c => s.lossTrap a c
  | none =>
    if !s.inBudget a then s.setAccess { a with loc := some l }
    else if a.op.ready s.mem l then
      let s1 := s.act a l
      if s.overwrites a then s1.healWords l else s1
    else s.wait a l

end State

end Sys2Proof.Machine
end

