-- ==== Sys2Proof/Machine/Stage.lean ====
section
/-! DEFINITION. Sys2Proof/Machine/Stage.lean: the place of a tensor element (R256, R261, R267, R329), and deterministic
staging: staged accesses, the staged view, tracking (R315 to R320). -/

namespace Sys2Proof.Machine

namespace State

/-! ### Elements -/

/-- The host physical address of a byte of a region's range, and its page attribute (R237); pooled regions go through their
frames, which are cacheable (R329). -/
def regionKey (s : State) (r : Region) (va : Nat) (n : Need) : Except (Nat × Nat) (Nat × Nat) :=
  if r.pooled then
    let off := va - r.base.toNat
    match r.frames[off / 0x200000]? with
    | some f => .ok (s.forward (f + off % 0x200000), 0)
    | none => .error (0, 0)
  else
    match s.context r.ctx with
    | none => .error (0, 0)
    | some c => match s.xlat c va n with
      | .ok hpa attr _ _ => .ok (hpa, attr)
      | .fault cause gpa => .error (cause, gpa)
      | .lost => .error (5, 0)

/-- n bytes from a virtual address of a region: their keys, and the most restrictive of their attributes. -/
def regionKeys (s : State) (r : Region) (va : Nat) (n : Need) : Nat → Except (Nat × Nat) (List Nat × Nat)
  | 0 => .ok ([], 0)
  | k + 1 => match s.regionKey r va n with
    | .error e => .error e
    | .ok a => match s.regionKeys r (va + 1) n k with
      | .error e => .error e
      | .ok t => .ok (a.1 :: t.1, max a.2 t.2)

/-- The place of a slot of a copy. -/
def slotLoc (s : State) (r : Region) (copy slot idx : Nat) (n : Need) : Except (Nat × Nat) Loc :=
  let w := fmtBits r.format
  let a := slotVa r copy slot
  match s.regionKeys r a.1 n ((a.2 + w + 7) / 8) with
  | .error e => .error e
  | .ok keys =>
    let mk : Option (Nat × Nat) → Loc := fun b =>
      { keys := keys.1, off := a.2, width := w, words := [], elem := some (r.id, idx, b), attr := keys.2 }
    if r.policy == 0 then .ok (mk none)
    else match s.regionKey r (r.bitVa copy + slot / 8) n with
      | .error e => .error e
      | .ok k => .ok (mk (some (k.1, slot % 8)))

/-- The one place of an element now. -/
def elemLoc (s : State) (r : Region) (x : List Nat) (n : Need) : Except (Nat × Nat) Loc :=
  let p := r.place x
  s.slotLoc r p.1 p.2 (r.linear x) n

/-- Of a list of virtual addresses in a region, the first whose translation faults: cause, guest physical address, virtual
address. -/
def vaFault (s : State) (r : Region) (n : Need) (vas : List Nat) : Option (Nat × Nat × Nat) :=
  vas.findSome? (fun va => match s.regionKey r va n with
    | .ok _ => none
    | .error e => some (e.1, e.2, va))

/-- The virtual addresses of a slot of a copy: its bytes, then its own full/empty bit. -/
def slotVas (r : Region) (copy slot : Nat) : List Nat :=
  let a := slotVa r copy slot
  (List.range ((a.2 + fmtBits r.format + 7) / 8)).map (fun i => a.1 + i) ++ (if r.policy == 0 then [] else [r.bitVa copy + slot / 8])
/-- Those of an element. -/
def elemVas (r : Region) (x : List Nat) : List Nat := let p := r.place x; slotVas r p.1 p.2

/-- The fault of an element's access. -/
def elemFault (s : State) (r : Region) (x : List Nat) (n : Need) : Option (Nat × Nat × Nat) := s.vaFault r n (elemVas r x)

/-- The translations of a list of addresses stay in the TLB of the unit that used them, and its next ones are chosen anew
(R236). -/
def keepVas (s : State) (cid : Nat) (n : Need) (vas : List Nat) : State :=
  match s.context cid with
  | none => s
  | some c => (((vas.map (fun a => a / 65536 * 65536)).dedup).foldl (fun s a => s.cacheVa c a n) s).redraw
/-- The same for elements of a region; those of a pooled region are not translated (R329). -/
def keepElems (s : State) (r : Region) (n : Need) (xs : List (List Nat)) : State :=
  if r.pooled then s else s.keepVas r.ctx n ((xs.map (elemVas r)).flatten)

/-- The trap of an LDT or STT before its element is reached (R152): class, cause, %TADDR. -/
def tensorTrap (s : State) (ctx : Nat) (h : DWord) (form : Form) (coords : List Word) (window : Nat) (oddD : Bool) :
    Except (Nat × Nat × DWord) Region :=
  match s.regionOf ctx h with
  | none => .error (0x14, 0, h)
  | some r =>
    if window < r.dims then .error (2, 0, 0)
    else if oddD && fmtBits r.format == 64 then .error (1, 11, 0)
    else if !r.inside (coords.map (·.toNat)) then .error (0x14, 1, h)
    else if form != .plain && r.policy == 0 then .error (0x14, 2, h)
    else if r.absent then .error (0x18, 3, r.layerRef)
    else .ok r

/-! ### The staged view (R316, R317) -/

/-- One staged access applied to a memory: as staged for the gang's view, and at its release (R318). -/
def applyStaged (s : State) (ctx : Nat) (m : Memory) (e : Staged) : Memory :=
  let elem : List Word → Option Loc := fun coords =>
    match s.regionOf ctx (BitVec.ofNat 64 e.addr) with
    | none => none
    | some r => match s.elemLoc r (coords.map (·.toNat)) .write with
      | .ok l => some l
      | .error _ => none
  match e.op with
  | .store size form data => let l := Loc.ofBytes e.addr size 0; setForm (l.store m data) l form
  | .rmw size f x _ => let l := Loc.ofBytes e.addr size 0; l.store m (f.apply size (l.value m) x)
  | .tags f => (Loc.ofBytes e.addr 8 0).setFull m f
  | .load size _ .consuming => (Loc.ofBytes e.addr size 0).setFull m false
  | .dec =>
    let l := Loc.ofBytes e.addr 8 0
    let old := l.value m
    let m1 := l.store m (old + 2 ^ 64 - 1)
    if old == 1 then l.setFull m1 true else m1
  | .ldt .consuming coords _ _ => match elem coords with
    | some l => l.setFull m false
    | none => m
  | .stt form coords _ _ data => match elem coords with
    | some l => setForm (l.store m data) l form
    | none => m
  | _ =>
    let m1 := e.bytes.foldl (fun m kb => m.setByte kb.1 kb.2) m
    e.bits.foldl (fun m wb => m.setFull wb.1 wb.2) m1

/-- Global memory as a deterministic gang sees it; memory itself for any other. -/
def view (s : State) (gid : Nat) : Memory :=
  match s.gang gid with
  | some g => if g.det then g.staged.foldl (fun m e => s.applyStaged g.ctx m e) s.mem else s.mem
  | none => s.mem

/-- Ends a launch with an error: its gangs stop with their jobs and side-log entries, and nothing they staged is performed
(R315). -/
def stopLaunch (s0 : State) (lid error : Nat) : State :=
  let mine : Nat → Bool := fun gid => (s0.gang gid).any (fun g => g.launch == lid)
  let s := (s0.accesses.filter (fun a => mine a.gang)).foldl dropAcquire s0
  let ls := match s.launch lid with
    | some l => s.setLaunch { l with error := error }
    | none => s
  let runs := s.gangs.filter (fun g => g.launch == lid && g.phase != .waiting && g.phase != .saved && g.phase != .ended)
  runs.foldl (fun s g => s.clearDeques g) { ls with
    fibres := s.fibres.map (fun f => if mine f.gang then { f with live := false } else f)
    bands := s.bands.filter (fun b => !mine b.gang)
    results := s.results.filter (fun r => !mine (s.fibre r.fibre).gang)
    accesses := s.accesses.filter (fun a => !mine a.gang)
    sideLog := s.sideLog.filter (fun e => !mine e.acc.gang)
    jobs := s.jobs.filter (fun j => !j.gang.any mine)
    issue := if mine s.issue.gang then .idle else s.issue
    gangs := s.gangs.map (fun g => if g.launch == lid then { g with phase := .ended, staged := [], stagedPosts := [] } else g) }

/-- What the gangs of a partition have staged: accesses and node records (R315). -/
def stagedCount (s : State) (p : Nat) : Nat :=
  (s.gangs.filter (fun x => x.part == p)).foldl (fun n x => n + x.staged.length + x.stagedPosts.length) 0
/-- The stage area of a gang's partition has no room. -/
def stageFull (s : State) (g : Gang) : Bool := decide (Config.stageCapacity (s.part g.part).stageSize.toNat ≤ s.stagedCount g.part)

/-- Stages an entry for a gang, or ends the launch when the stage area is full. -/
def stage (s : State) (gid : Nat) (e : Staged) : State :=
  match s.gang gid with
  | none => s
  | some g => if s.stageFull g then s.stopLaunch g.launch 4 else s.setGang { g with staged := g.staged ++ [e] }

/-! ### Tracking (R319, R320) -/

/-- Lines recorded in the tracking area of a partition, by launch. -/
def trackedLines (s : State) (p : Nat) : Nat :=
  ((s.launches.filter (fun l => l.part == p)).map (fun l => (l.track.map (·.1)).dedup.length)).foldl (· + ·) 0

/-- Records that a gang of a deterministic launch reads or writes a line. -/
def track (s : State) (gid line : Nat) (rd wr : Bool) : State :=
  match s.gang gid with
  | none => s
  | some g =>
    if !g.det || !(rd || wr) then s
    else match s.launch g.launch with
    | none => s
    | some l =>
      if l.deto then s
      else
        let known := l.track.any (fun t => t.1 == line)
        if !known && decide ((s.part l.part).trackSize.toNat / 16 < s.trackedLines l.part + 1) then s.setLaunch { l with deto := true }
        else
          let clash := l.track.any (fun t => t.1 == line && t.2.1 != g.index && ((wr && t.2.2.1) || (rd && t.2.2.2)))
          let mine := l.track.find? (fun t => t.1 == line && t.2.1 == g.index)
          let t' := match mine with
            | some t => (line, g.index, t.2.2.1 || rd, t.2.2.2 || wr)
            | none => (line, g.index, rd, wr)
          let rest := l.track.filter (fun t => !(t.1 == line && t.2.1 == g.index))
          s.setLaunch { l with track := rest ++ [t'], detx := l.detx || clash }
/-- The same for the lines of a list of keys. -/
def trackKeys (s : State) (gid : Nat) (keys : List Nat) (rd wr : Bool) : State :=
  (keys.map lineOf).dedup.foldl (fun s x => s.track gid x rd wr) s

/-- The 4-byte words of a place: an atomic is on one of them or on two. -/
def atomWords (l : Loc) : List Nat := (l.keys.map (· / 4)).dedup

/-- Whether an atomic of a gang on a place meets one another gang of the launch staged (R320). -/
def atomClash (s : State) (gid : Nat) (l : Loc) : Bool :=
  match s.gang gid with
  | none => false
  | some g => match s.launch g.launch with
    | none => false
    | some x => !x.deto && x.atoms.any (fun a => (atomWords l).contains a.1 && a.2 != g.index)

/-- Remembers a staged atomic. -/
def noteAtom (s : State) (gid : Nat) (l : Loc) : State :=
  match s.gang gid with
  | none => s
  | some g => match s.launch g.launch with
    | none => s
    | some x => if x.deto then s
      else s.setLaunch { x with atoms := x.atoms ++ (((atomWords l).map (fun w => (w, g.index))).filter (fun y => !x.atoms.contains y)) }

def setDeta (s : State) (gid : Nat) : State :=
  match s.gang gid with
  | none => s
  | some g => match s.launch g.launch with
    | none => s
    | some l => s.setLaunch { l with deta := true }

/-- Whether an operation is staged rather than performed (R315, R317). -/
def staging (op : AOp) : Bool :=
  match op with
  | .store .. => true
  | .rmw .. => true
  | .tags _ => true
  | .stt .. => true
  | .dec => true
  | .load _ _ .consuming => true
  | .ldt .consuming .. => true
  | _ => false

/-- Whether an operation reads, in the sense of R319: it returns a value. -/
def reading (op : AOp) : Bool :=
  match op with
  | .load .. => true
  | .ldt .. => true
  | .tagr => true
  | .rmw _ _ _ ret => ret
  | _ => false

/-- An access acts on its gang's staged view (R315 to R317). -/
def onView (s : State) (a : Access) (l : Loc) : Bool := s.staged a && !l.scratch && a.op != .layacq
/-- Memory as an access finds it. -/
def seenBy (s : State) (a : Access) (l : Loc) : Memory := if s.onView a l then s.view a.gang else s.mem

/-- Performs a ready access of a deterministic gang on global memory: its value comes from the view, and what it writes is
staged and acknowledged at once (R315, R316). -/
def actStaged (s : State) (a : Access) (l : Loc) : State :=
  let wr := staging a.op
  let s0 := (s.trackKeys a.gang l.keys (reading a.op) wr).trackKeys a.gang ((placeKeys l).drop l.keys.length) a.op.testsBit a.op.writesBit
  -- the effect on registers, from the view; nothing reaches the home
  let done := { s0 with mem := s.view a.gang }.act a l
  let fin : State := { done with mem := s0.mem, l1 := s0.l1, l2 := s0.l2, ports := s0.ports, portWait := s0.portWait, hostVisible := s0.hostVisible, fresh := s0.fresh }
  let fin1 := match fin.access a.id with
    | some x => fin.setAccess { x with phase := .performed s.time }
    | none => fin
  if !wr then fin1
  else
    let addr := match a.op with
      | .ldt .. => a.addr.toNat
      | .stt .. => a.addr.toNat
      | _ => l.first
    let s1 := fin1.stage a.gang { addr := addr, op := a.op, bytes := [], bits := [], attr := l.attr, policy := a.policy }
    match a.op with
    | .rmw .. => s1.noteAtom a.gang l
    | _ => s1

/-- Arrival of a deterministic gang's access at a global place. -/
def arriveStaged (s : State) (a0 : Access) (l : Loc) : State :=
  let a := { a0 with arrived := some (a0.arrived.getD s.time) }
  match s.lossCause a l with
  | some c => s.lossTrap a c
  | none =>
    if !s.inBudget a then s.setAccess { a with loc := some l }
    else
      match a.op with
      | .rmw .. =>
        if s.atomClash a.gang l then (s.setDeta a.gang).accessTrap a 0x17 0 a.addr else s.actStaged a l
      | _ => if a.op.ready (s.view a.gang) l then s.actStaged a l else s.wait a l

/-- An access arrives at its place, staged or not. -/
def present (s : State) (a : Access) (l : Loc) : State := if s.onView a l then s.arriveStaged a l else s.arrive a l

/-! ### Scans (R143, R230, R317) -/

/-- One pass of a scan: performs, in order, each waiter whose condition holds where it reads: at its home, or in its gang's staged
view. `rel` says that the carillon has released a gang's accesses, which makes a waiter of another gang a reader of them. -/
def scanPass (s : State) (rel : Bool) (l : Loc) : State × Loc × Bool :=
  (s.waitersOf l).foldl (fun (acc : State × Loc × Bool) w =>
    let s := acc.1
    match s.access w.id with
    | none => acc
    | some a =>
      match a.loc with
      | none => acc
      | some x => match s.lossCause a x with
        | some c => (s.lossTrap a c, acc.2.1, acc.2.2)
        | none =>
          if s.inBudget a && a.op.ready (s.seenBy a x) x then
            let s1 := if !s.onView a x then s.act a x
              else (if rel then s.trackKeys a.gang (placeKeys x) true false else s).actStaged a x
            (s1, acc.2.1.join x, true)
          else acc) (s, l, false)

/-- The scan of R143: passes until one performs nothing. -/
def scanGo (rel : Bool) : Nat → State → Loc → State
  | 0, s, _ => s
  | n + 1, s, l =>
    let r := s.scanPass rel l
    if r.2.2 then scanGo rel n r.1 r.2.1 else r.1

/-- The scan of the waiters of a place, after its data or a bit changed. -/
def scanAll (s : State) (l : Loc) : State := scanGo false (s.accesses.length + 1) s l
/-- The same where a release by the carillon made the change. -/
def scanReleased (s : State) (l : Loc) : State := scanGo true (s.accesses.length + 1) s l

/-- The places on which accesses wait. -/
def waitPlaces (s : State) : List Loc :=
  s.accesses.filterMap (fun a => match a.phase with
    | .waiting .. => a.loc
    | _ => none)

/-- The scans of every word among keys that an engine, the front or a link has written (R143). -/
def scanKeys (s : State) (keys : List Nat) : State :=
  let hit : Loc → Bool := fun l => keys.any (fun k => (placeKeys l).contains k || l.words.contains (k / 8))
  ((s.waitPlaces.filter hit).dedup).foldl (fun s l => s.scanAll l) s

end State

end Sys2Proof.Machine
end

