-- ==== Sys2Proof/Machine/Jobs.lean ====
section
/-! DEFINITION. Sys2Proof/Machine/Jobs.lean: the cards of the engines and their rules (R194 to R196, R212 to R215, R218),
tiles (R197 to R199), footprints and edges (R221 to R223), where a job's elements lie (R216) and how they are converted
(R217). -/

namespace Sys2Proof.Machine

/-- n bytes of a card from byte lo, as a number. -/
def cardN (card : List Byte) (lo n : Nat) : Nat := natOfBytes ((card.drop lo).take n)

/-! ### Addresses in cards (R194, R215) -/

/-- A fibre that stands for a job's poster, for resolving own-scratch addresses. -/
def asFibre (gang wg : Nat) : Fibre := { Fibre.blank with gang := gang, wg := wg }

namespace State

/-- The scratch key of a range named by a card; none when it is not wholly inside the gang's scratch. -/
def cardScratch (s : State) (gang : Option Nat) (wg addr len : Nat) : Option Nat :=
  match gang with
  | some g => s.scratchRange (asFibre g wg) (BitVec.ofNat 64 addr) (max len 1)
  | none => none

end State

/-- The aperture byte of an address. -/
def aperture (addr : Nat) : Nat := addr / 2 ^ 56 % 256

/-! ### The matrix command card (R194, R195) -/

structure MCard where
  op : Nat
  bank : Nat
  g : Bool
  bs : Bool
  action : Nat
  z : Bool
  kfirst : Nat
  kcount : Nat
  aBlock : Nat
  bBlock : Nat
  a : Nat
  b : Nat
  gather : Nat
  outList : Nat
  outCount : Nat
  kOrg : Nat
  nOrg : Nat
  comp : Nat
  mbz : Nat
  deriving DecidableEq, Repr

def mcard (c : List Byte) : MCard :=
  let w := BitVec.ofNat 64 (cardN c 0 8)
  { op := (w.extractLsb' 0 4).toNat, bank := (w.extractLsb' 4 3).toNat, g := w.getLsbD 7, bs := w.getLsbD 8
    action := (w.extractLsb' 9 2).toNat, z := w.getLsbD 11, kfirst := (w.extractLsb' 16 12).toNat
    kcount := (w.extractLsb' 28 12).toNat, aBlock := (w.extractLsb' 40 6).toNat, bBlock := (w.extractLsb' 46 6).toNat
    a := cardN c 8 8, b := cardN c 16 8, gather := cardN c 24 8, outList := cardN c 32 8, outCount := cardN c 40 4
    kOrg := cardN c 48 4, nOrg := cardN c 52 4, comp := cardN c 56 8
    mbz := (w.extractLsb' 12 4).toNat + (w.extractLsb' 52 12).toNat + cardN c 44 4 }

/-- A completion address that fits its action (R196): 0 exactly for action 0, aligned, scratch for action 2. A matrix command's card with
action 1 may name a global word: R196 has no rule that fails it. DESIGN CHOICE: log entry 79. -/
def completionOk (s : State) (gang : Option Nat) (wg action comp : Nat) : Bool :=
  decide (action ≤ 2) && ((comp == 0) == (action == 0)) && comp % 8 == 0
    && (comp == 0 || (if aperture comp == 0 then action == 1 else (s.cardScratch gang wg comp 8).isSome))

/-- The card rules MARM checks (R196). -/
def mcardOk (s : State) (gid wg : Nat) (c : List Byte) : Bool :=
  let m := mcard c
  let accum := match s.gang gid with
    | some g => g.accum
    | none => 0
  let inScr : Nat → Bool := fun a => (s.cardScratch (some gid) wg a 1).isSome
  m.mbz == 0 && decide (m.op ≤ 2) && decide (m.bank < accum) && decide (m.kfirst + m.kcount ≤ 256)
    && ((m.gather != 0) == m.g) && ((m.outList == 0) == (m.outCount == 0)) && decide (m.outCount ≤ 4096)
    && completionOk s (some gid) wg m.action m.comp
    && inScr m.a && (m.gather == 0 || (inScr m.gather && m.gather % 8 == 0))
    && (m.outList == 0 || (inScr m.outList && m.outList % 8 == 0))
    && (if m.op == 0 then decide (1 ≤ m.kcount) && decide (m.kfirst ≤ 255) && (m.bs || inScr m.b)
        else m.a % 64 == 0 && !m.g && !m.bs && m.kfirst == 0 && m.kcount == 0 && m.aBlock == 0 && m.bBlock == 0
          && m.b == 0 && m.outCount == 0 && m.kOrg == 0 && m.nOrg == 0 && (m.op == 1 || !m.z))

/-! ### The copy job card (R213) -/

structure CCard where
  ctl : Nat
  dims : Nat
  action : Nat
  fe : Nat
  sc : Nat
  dt : Bool
  dh : Bool
  sh : Bool
  src : Nat
  dst : Nat
  sfmt : Word
  dfmt : Word
  ext : List Nat
  sstr : List Nat
  dstr : List Nat
  chain : List Nat
  c0 : Nat
  c1 : Nat
  scale : Nat
  comp : Nat
  /-- Extra regions: base and length in bytes. -/
  extra : List (Nat × Nat)
  /-- Origins o0 to o4 of a handle side. -/
  sorg : List Nat
  dorg : List Nat
  spad : Nat
  dpad : Nat
  deriving DecidableEq, Repr

/-- DEDUCED: log entry 70. -/
def ccard (c : List Byte) : CCard :=
  let w := BitVec.ofNat 64 (cardN c 0 8)
  let org : Nat → List Nat := fun b => [cardN c b 4, cardN c (b + 4) 2, cardN c (b + 6) 2, cardN c (b + 8) 2, cardN c (b + 10) 2]
  { ctl := w.toNat, dims := (w.extractLsb' 11 3).toNat, action := (w.extractLsb' 8 2).toNat
    fe := (w.extractLsb' 6 2).toNat, sc := (w.extractLsb' 4 2).toNat, dt := w.getLsbD 2, dh := w.getLsbD 1
    sh := w.getLsbD 0, src := cardN c 8 8, dst := cardN c 16 8, sfmt := BitVec.ofNat 32 (cardN c 24 4)
    dfmt := BitVec.ofNat 32 (cardN c 28 4)
    ext := [cardN c 32 4, cardN c 36 2, cardN c 38 2, cardN c 40 2, cardN c 42 2]
    sstr := (List.range 4).map (fun i => cardN c (44 + 4 * i) 4)
    dstr := (List.range 4).map (fun i => cardN c (60 + 4 * i) 4)
    chain := (List.range 8).map (fun i => cardN c (76 + i) 1), c0 := cardN c 84 4, c1 := cardN c 88 4
    scale := cardN c 92 8, comp := cardN c 100 8
    extra := [(cardN c 108 8, cardN c 124 2 * 256), (cardN c 116 8, cardN c 126 2 * 256)]
    sorg := org 44, dorg := org 60, spad := cardN c 56 4, dpad := cardN c 72 4 }

/-- A copy-side format word: kinds of R214, or of R255 for a region's. -/
def copyFmtOk (w : Word) : Bool :=
  let k := fmtKind w
  if k == 0 then w.extractLsb' 23 9 == 0 && Narrow.legalWord w
  else (decide (k ≤ 8) || k == 15) && w.extractLsb' 0 28 == 0
/-- Bits of a copy element; kind 15 is one byte. -/
def copyBits (w : Word) : Nat := if fmtKind w == 15 then 8 else fmtBits w

def CCard.total (c : CCard) : Nat := c.ext.foldl (· * ·) 1
/-- The index of element n in each job dimension, i0 fastest. -/
def CCard.idx (c : CCard) (n : Nat) : List Nat :=
  (c.ext.foldl (fun (a : List Nat × Nat) e => (a.1 ++ [a.2 % e], a.2 / e)) ([], n)).1

/-- Steps of the chain before its end (R218). -/
def chainSteps (l : List Nat) : List Nat := l.takeWhile (fun x => x != 0)
def chainOk (l : List Nat) : Bool :=
  (l.drop (chainSteps l).length).all (fun x => x == 0) && (chainSteps l).all (fun x => decide (x ≤ 12))

/-- The offset of the element of one address side: byte offset of its first byte and its bit offset (R216). -/
def sideOff (fmt : Word) (str idx : List Nat) : Nat × Nat :=
  let row := (List.range 4).foldl (fun n j => n + idx.getD (j + 1) 0 * str.getD j 0) 0
  let i0 := idx.getD 0 0
  let w := copyBits fmt
  if fmtNarrow fmt then
    let bit := i0 % 16 * w
    (row + i0 / 16 * (2 * w) + bit / 8, bit % 8)
  else (row + i0 * (w / 8), 0)

/-- Bytes an address side reaches from its base. -/
def sideReach (fmt : Word) (str ext : List Nat) : Nat :=
  let row := (List.range 4).foldl (fun n j => n + (ext.getD (j + 1) 1 - 1) * str.getD j 0) 0
  let e0 := ext.getD 0 1
  let w := copyBits fmt
  row + (if fmtNarrow fmt then (e0 + 15) / 16 * (2 * w) else e0 * (w / 8))

/-- Bytes of the scale array of an address side. -/
def scaleReach (ext : List Nat) : Nat := (ext.getD 0 1 + 15) / 16 * (ext.drop 1).foldl (· * ·) 1

/-- Rows and K of the tile a DT job writes (R220), and its length in bytes (R198). -/
def tileRows (c : CCard) : Nat := roundUp (c.ext.getD 1 1) 64
def tileK (c : CCard) : Nat := roundUp (c.ext.getD 0 1) 16
def tileBytes (w rows k : Nat) : Nat := 32 + rows * (k / 16) * (2 * w)
/-- Where element k of row r of a tile lies: byte offset and bit offset (R198). -/
def tileOff (w kk r k : Nat) : Nat × Nat :=
  let j := k / 16
  let slot := (r % 64) ^^^ (j % 64)
  let bit := k % 16 * w
  (32 + 2 * w * (64 * (r / 64 * (kk / 16) + j) + slot) + bit / 8, bit % 8)

namespace State

/-- The format of a side, its region on a handle side. -/
def sideFmt (s : State) (ctx : Nat) (handle : Bool) (addr : Nat) (w : Word) : Word :=
  if handle then (match s.regionOf ctx (BitVec.ofNat 64 addr) with
    | some r => r.format
    | none => 0) else w

/-- The coordinates of an element on a handle side (R213): job dimension j is region dimension dims - 1 - j. -/
def sideCoords (r : Region) (org idx : List Nat) : List Nat :=
  (List.range r.dims).map (fun d => let j := r.dims - 1 - d; org.getD j 0 + idx.getD j 0)

/-- The rules of R215: whether CPYQ raises cause 4. `node` is true for a kind-1 node, whose addresses are global.
An origin entry beyond the region's dimensions must be 0. DESIGN CHOICE: log entry 79. -/
def ccardBad (s : State) (gang : Option Nat) (wg ctx : Nat) (card : List Byte) : Bool :=
  let c := ccard card
  let node := gang.isNone
  let usable : Nat → Nat → Bool := fun a n =>
    if aperture a == 0 then true else !node && (s.cardScratch gang wg a n).isSome
  let sideBad : Bool → Nat → Word → List Nat → List Nat → Nat → Bool := fun h a f str org pad =>
    if h then
      match s.regionOf ctx (BitVec.ofNat 64 a) with
      | none => true
      | some r => f != 0 || decide (r.dims < c.dims) || pad != 0 ||
          !((List.range 5).all (fun j =>
            if j < r.dims then
              decide (org.getD j 0 + (if j < c.dims then c.ext.getD j 1 else 1) ≤ r.extents.getD (r.dims - 1 - j) 1)
            else org.getD j 0 == 0))
    else
      f == 0 || !copyFmtOk f || !usable a (sideReach f str c.ext)
        || (!fmtNarrow f && (a % (copyBits f / 8) != 0 || str.any (fun x => x % (copyBits f / 8) != 0)))
  let sf := s.sideFmt ctx c.sh c.src c.sfmt
  let df := s.sideFmt ctx c.dh c.dst c.dfmt
  c.ctl / 2 ^ 14 != 0 || c.ctl / 1024 % 2 != 0 || c.ctl / 8 % 2 != 0
    || decide (c.dims < 1) || decide (5 < c.dims) || c.ext.any (fun e => e == 0) || (c.ext.drop c.dims).any (fun e => e != 1)
    || sideBad c.sh c.src c.sfmt c.sstr c.sorg c.spad
    || (if c.dt then c.dh || c.dfmt == 0 || !copyFmtOk c.dfmt || decide (3 < fmtKind c.dfmt) || decide (2 < c.dims)
          || decide (4096 < c.ext.getD 0 1) || decide (4096 < c.ext.getD 1 1) || c.dstr.any (fun x => x != 0)
          || (!fmtNarrow c.dfmt && c.dst % (copyBits c.dfmt / 8) != 0)
          || (s.cardScratch gang wg c.dst (tileBytes (copyBits c.dfmt) (tileRows c) (tileK c))).isNone
        else sideBad c.dh c.dst c.dfmt c.dstr c.dorg c.dpad)
    || ((fmtKind sf == 15) != (fmtKind df == 15)) || (fmtKind sf == 15 && (c.sc != 0 || !(chainSteps c.chain).isEmpty))
    || !chainOk c.chain || c.sc == 3 || (c.sc == 1 && c.sh) || (c.sc == 2 && c.dh)
    || (c.sc == 1 && !fmtNarrow sf) || (c.sc == 2 && !fmtNarrow df)
    || (c.scale != 0 && c.sc == 0 && !c.dt) || (c.scale != 0 && !usable c.scale (scaleReach c.ext))
    || !completionOk s gang wg c.action c.comp || (node && aperture c.comp != 0)
    || c.extra.any (fun e => e.2 != 0 && (e.1 == 0 || !usable e.1 e.2))

end State

/-! ### Footprints (R221) -/

/-- Lines (even tokens: virtual, odd: scratch), regions and banks. -/
structure Foot where
  lines : List Nat
  regions : List Nat
  banks : List Nat
  deriving DecidableEq, Repr

def Foot.meets (a b : Foot) : Bool :=
  a.lines.any (fun x => b.lines.contains x) || a.regions.any (fun x => b.regions.contains x)
    || a.banks.any (fun x => b.banks.contains x)
def Foot.and (a b : Foot) : Foot := ⟨a.lines ++ b.lines, a.regions ++ b.regions, a.banks ++ b.banks⟩
def Foot.none : Foot := ⟨[], [], []⟩

namespace State

/-- The lines of a byte range a card names. -/
def cardLines (s : State) (gang : Option Nat) (wg addr len : Nat) : List Nat :=
  if len == 0 then []
  else
    let span : Nat → Nat → List Nat := fun a t =>
      (List.range ((a + len - 1) / 64 - a / 64 + 1)).map (fun i => 2 * (a / 64 + i) + t)
    if aperture addr == 0 then span addr 0
    else match s.cardScratch gang wg addr 1 with
      | some k => span k 1
      | none => []

/-- The lines of the elements of an address side, row by row. -/
def sideLines (s : State) (gang : Option Nat) (wg base : Nat) (fmt : Word) (str ext : List Nat) : List Nat :=
  let e0 := ext.getD 0 1
  let w := copyBits fmt
  let rowLen := if fmtNarrow fmt then (e0 + 15) / 16 * (2 * w) else e0 * (w / 8)
  let rows := (ext.drop 1).foldl (· * ·) 1
  ((List.range rows).map (fun n =>
    let idx := ((ext.drop 1).foldl (fun (a : List Nat × Nat) e => (a.1 ++ [a.2 % e], a.2 / e)) ([], n)).1
    let off := (List.range 4).foldl (fun t j => t + idx.getD j 0 * str.getD j 0) 0
    s.cardLines gang wg (base + off) rowLen)).flatten.dedup

def sideFoot (s : State) (gang : Option Nat) (wg ctx : Nat) (handle : Bool) (addr : Nat) (fmt : Word) (str ext : List Nat) :
    Foot :=
  if handle then (match s.regionOf ctx (BitVec.ofNat 64 addr) with
    | some r => ⟨[], [r.id], []⟩
    | none => .none)
  else ⟨s.sideLines gang wg addr fmt str ext, [], []⟩

/-- The source and destination data footprints of a copy job. -/
def copyData (s : State) (gang : Option Nat) (wg ctx : Nat) (card : List Byte) : Foot × Foot :=
  let c := ccard card
  let sc : Foot := if c.scale != 0 && c.sc != 0 then ⟨s.cardLines gang wg c.scale (scaleReach c.ext), [], []⟩ else .none
  let src := (s.sideFoot gang wg ctx c.sh c.src c.sfmt c.sstr c.ext).and (if c.sh then .none else sc)
  let dst := if c.dt then ⟨s.cardLines gang wg c.dst (tileBytes (copyBits c.dfmt) (tileRows c) (tileK c)), [], []⟩
    else s.sideFoot gang wg ctx c.dh c.dst c.dfmt c.dstr c.ext
  (src, dst)

/-- Read and write footprints of a job. -/
def foot (s : State) (j : Job) : Foot × Foot :=
  match j.kind with
  | .copy =>
    let c := ccard j.card
    let d := s.copyData j.gang j.wg j.ctx j.card
    let sc : Foot := if c.scale != 0 then ⟨s.cardLines j.gang j.wg c.scale (scaleReach c.ext), [], []⟩ else .none
    let ex : Foot := ⟨(c.extra.map (fun e => s.cardLines j.gang j.wg e.1 e.2)).flatten, [], []⟩
    let cw : Foot := ⟨if c.comp == 0 then [] else s.cardLines j.gang j.wg c.comp 8, [], []⟩
    ((d.1.and sc).and ex, (d.2.and cw).and ex)
  | .matrix =>
    let m := mcard j.card
    let cw : Foot := ⟨if m.comp == 0 then [] else s.cardLines j.gang j.wg m.comp 8, [], []⟩
    let lines : Nat → Nat → Foot := fun a n => ⟨s.cardLines j.gang j.wg a n, [], []⟩
    let bank : Foot := ⟨[], [], [m.bank]⟩
    let tile : Nat → Foot := fun a => match s.cardScratch j.gang j.wg a 32 with
      | none => .none
      | some k =>
        let f := BitVec.ofNat 32 (s.mem.read k 4)
        let rows := s.mem.read (k + 4) 2
        let kk := s.mem.read (k + 6) 2
        let sp := s.mem.read (k + 8) 8
        (lines a (tileBytes (fmtBits f) rows kk)).and (if sp == 0 then .none else lines sp (rows * (kk / 16)))
    match m.op with
    | 0 =>
      let b : Foot := if m.bs then (match s.regionOf j.ctx (BitVec.ofNat 64 m.b) with
          | some r => ⟨[], r.id :: (if r.side == 0 then [] else ((s.regionOf j.ctx r.side).map (·.id)).toList), []⟩
          | none => .none) else tile m.b
      ((((tile m.a).and b).and bank).and ((if m.g then lines m.gather 128 else .none).and (lines m.outList (8 * m.outCount))),
        bank.and cw)
    | 1 => (bank, ((lines m.a 16384).and (if m.z then bank else .none)).and cw)
    | _ => (lines m.a 16384, bank.and cw)

/-- The completion word or barrier of a job. -/
def doneFoot (s : State) (j : Job) : Foot :=
  let comp := match j.kind with
    | .copy => (ccard j.card).comp
    | .matrix => (mcard j.card).comp
  ⟨if comp == 0 then [] else s.cardLines j.gang j.wg comp 8, [], []⟩

/-- Earlier jobs of the gang of a job, as the checker orders them (R222). -/
def earlier (s : State) (j : Job) : List Job := s.jobs.filter (fun i => i.gang == j.gang && decide (i.id < j.id))

/-- The headers of the tiles an MMA reads, which say how far its tiles and scale arrays go. -/
def headers (s : State) (j : Job) : Foot :=
  let m := mcard j.card
  if j.kind != .matrix || m.op != 0 then .none
  else ⟨s.cardLines j.gang j.wg m.a 32 ++ (if m.bs then [] else s.cardLines j.gang j.wg m.b 32), [], []⟩

/-- A job that has not started still waits for an earlier one to write a header of its tiles. -/
def unsettled (s : State) (j : Job) : Bool :=
  j.phase != .running && j.phase != .complete
    && (s.earlier j).any (fun i => i.phase != .complete && (s.foot i).2.meets (s.headers j))

/-- Job i keeps a later job j of its gang from starting: its footprints meet those of j and it has not completed; its completion
word meets them and its completion action has not run; or how far its tiles go is not known yet, and j writes scratch. -/
def edge (s : State) (i j : Job) : Bool :=
  let f := s.foot j
  let e := if i.phase == .complete then (.none, s.doneFoot i) else s.foot i
  e.2.meets f.1 || e.2.meets f.2 || e.1.meets f.2 || (f.2.lines.any (fun x => x % 2 == 1) && s.unsettled i)

/-- Every earlier job of the gang that the footprints order before a job has completed (R223). DEDUCED: log entry 80. -/
def edgesClear (s : State) (j : Job) : Bool := j.gang.isNone || (s.earlier j).all (fun i => !s.edge i j)

end State

/-! ### Conversion of elements (R217, R218) -/

def f32Of (w : Word) (v : Nat) : Nat :=
  let sx : Nat → Int := fun n => if v < 2 ^ (n - 1) then (v : Int) else (v : Int) - 2 ^ n
  match fmtKind w with
  | 0 => widen32 (.ofWord w) v
  | 1 => (fConvert .f16 .f32 .rne v).1
  | 2 => (fConvert .bf16 .f32 .rne v).1
  | 3 => v
  | 4 => (fConvert .f64 .f32 .rne v).1
  | 5 => (intToF .f32 .rne (sx 32)).1
  | 7 => (intToF .f32 .rne (sx 16)).1
  | 9 => (intToF .f32 .rne (sx 8)).1
  | 11 => (intToF .f32 .rne (sx 64)).1
  | _ => (intToF .f32 .rne (v : Int)).1

/-- Range of an integer format. -/
def intRange (w : Word) : Int × Int :=
  let n := fmtBits w
  match fmtKind w with
  | 5 => (-(2 ^ 31), 2 ^ 31 - 1)
  | 7 => (-(2 ^ 15), 2 ^ 15 - 1)
  | 9 => (-(2 ^ 7), 2 ^ 7 - 1)
  | 11 => (-(2 ^ 63), 2 ^ 63 - 1)
  | _ => (0, 2 ^ n - 1)
def isIntFmt (w : Word) : Bool := decide (5 ≤ fmtKind w) && decide (fmtKind w ≤ 12)
def intOf (w : Word) (v : Nat) : Int :=
  let r := intRange w
  if r.1 < 0 && decide (2 ^ (fmtBits w - 1) ≤ v) then (v : Int) - 2 ^ fmtBits w else v
def intCode (w : Word) (v : Int) : Nat := (v % (2 ^ fmtBits w : Nat)).toNat
def clampInt (w : Word) (v : Int) : Nat × Bool :=
  let r := intRange w
  if v < r.1 then (intCode w r.1, true) else if r.2 < v then (intCode w r.2, true) else (intCode w v, false)

/-- One step of the transform chain (R218). -/
def chainStep (c0 c1 op x : Nat) : Nat :=
  match op with
  | 1 => (fMul .f32 .rne x c0).1
  | 2 => (fAdd .f32 .rne x c0).1
  | 3 => (fMul .f32 .rne x c1).1
  | 4 => (fAdd .f32 .rne x c1).1
  | 5 => (fMinMax .f32 true x c0).1
  | 6 => (fMinMax .f32 false x c1).1
  | 7 => (fNegAbs .f32 true x).1
  | 8 => (fNegAbs .f32 false x).1
  | 9 => (fExp2 x).1
  | 10 => (fMul .f32 .rne x x).1
  | 11 => (fRcp .f32 .rne x).1
  | _ => (fFma .f32 .rne x c0 c1).1

/-- binary32 to the destination format: the code and whether it counts as saturated. -/
def f32To (w : Word) (qscale : Option Nat) (x : Nat) : Nat × Bool :=
  match fmtKind w with
  | 0 => match qscale with
    | some e => narrowScaled (.ofWord w) x e
    | none => let r := narrow32 (.ofWord w) x; (r.1, r.2.1)
  | 1 => ((fConvert .f32 .f16 .rne x).1, false)
  | 2 => ((fConvert .f32 .bf16 .rne x).1, false)
  | 3 => (if (unpack .f32 x).isNan then Fmt.f32.nanBits else x, false)
  | 4 => ((fConvert .f32 .f64 .rne x).1, false)
  | _ =>
    match unpack .f32 x with
    | .nan _ => (0, true)
    | .inf sg => (intCode w (if sg then (intRange w).1 else (intRange w).2), true)
    | .fin sg m e =>
      let r := (roundShift .rne sg m (-e) false).1
      clampInt w (if sg then -(r : Int) else r)

/-- One element of a copy: source and destination formats, dequantising and quantising scales, chain, constants. -/
def convertElem (sf df : Word) (scaled : Bool) (deq qs : Option Nat) (chain : List Nat) (c0 c1 code : Nat) : Nat × Bool :=
  let steps := chainSteps chain
  if sf == df && !scaled && steps.isEmpty then (code, false)
  else if isIntFmt sf && isIntFmt df && !scaled && steps.isEmpty then clampInt df (intOf sf code)
  else
    let x0 := f32Of sf code
    let x1 := match deq with
      | some e => if e == 255 then Fmt.f32.nanBits else (roundVal .f32 .rne ((unpack .f32 x0).scale ((e : Int) - 127))).1
      | none => x0
    f32To df qs (steps.foldl (fun x op => chainStep c0 c1 op x) x1)

/-- Whether a job quantises (R217). -/
def quantising (sf df : Word) (scaled : Bool) (chain : List Nat) : Bool :=
  !(sf == df && !scaled && (chainSteps chain).isEmpty) && (fmtNarrow df || isIntFmt df)

end Sys2Proof.Machine
end

