-- ==== Sys2Proof/Machine/Matrix.lean ====
section
/-! DEFINITION. Sys2Proof/Machine/Matrix.lean: the matrix engine (R197 to R209): tiles, the streamed operand, the check at
first grant, one pass (R61, R62), DRAIN and PRIME, the arbiter (R206, R207). -/

namespace Sys2Proof.Machine

/-! ### One block, one element (R61, R62) -/

/-- The exact sum of finite values: mantissa, exponent, and whether every term is -0. -/
def exactSum : List FVal → Int × Int × Bool
  | [] => (0, 0, true)
  | v :: t =>
    let r := exactSum t
    match v with
    | .fin s m e =>
      if m == 0 then (r.1, r.2.1, r.2.2 && s)
      else if r.1 == 0 then (signedInt s m, e, false)
      else
        let e0 := min e r.2.1
        (signedInt s (m * 2 ^ (e - e0).toNat) + r.1 * (2 ^ (r.2.1 - e0).toNat : Nat), e0, false)
    | _ => r

/-- The block result (R61 steps 1 and 2): products, exact sum, both block scales, one rounding. A block with a quiet NaN among its
products and infinities of both signs beside it raises invalid. DESIGN CHOICE: log entry 79. -/
def blockResult (a b : List FVal) (sa sb : Nat) : Nat × Flags :=
  let ps := (a.zip b).map (fun p => mulVal p.1 p.2)
  let inv := ps.any (fun p => p.2)
  let vs := ps.map (·.1)
  let pinf := vs.contains (.inf false)
  let ninf := vs.contains (.inf true)
  if inv || vs.any (fun v => v.isNan) || sa == 255 || sb == 255 || (pinf && ninf) then
    nanResult .f32 (inv || (pinf && ninf))
  else if pinf || ninf then (Fmt.f32.inf ninf, .none)
  else
    let s := exactSum vs
    roundInt .f32 .rne s.1 (s.2.1 + (sa : Int) - 127 + (sb : Int) - 127) s.2.2

/-- The dense part of a pass in one element: block results added in ascending order (R61 step 3). -/
def denseElem (acc : Nat) : List ((List FVal × Nat) × (List FVal × Nat)) → Nat × Flags
  | [] => (acc, 0)
  | (x, y) :: t =>
    let b := blockResult x.1 y.1 x.2 y.2
    let r := fAdd .f32 .rne acc b.1
    let q := denseElem r.1 t
    (q.1, b.2 ||| r.2 ||| q.2)

/-- One outlier in one element (R61 step 4): a NaN scale or product gives the canonical NaN, invalid where the product is or where
the accumulator is a signalling NaN (R47, R62). -/
def outlierElem (acc : Nat) (v b : FVal) (sb : Nat) : Nat × Flags :=
  let p := mulVal v b
  let c := unpack .f32 acc
  if sb == 255 || p.1.isNan then nanResult .f32 (p.2 || c.isSnan)
  else addVal .f32 .rne c (p.1.scale ((sb : Int) - 127))

/-! ### Operands -/

/-- A tile (R197): key, format, rows, K, and the address of its scales. -/
structure Tile where
  key : Nat
  fmt : Word
  rows : Nat
  k : Nat
  scale : Nat
  mbz : Nat
  deriving DecidableEq, Repr

/-- The value of an element's code (R54, R44). -/
def operandVal (w : Word) (code : Nat) : FVal :=
  match fmtKind w with
  | 0 => (Narrow.ofWord w).value code
  | 1 => unpack .f16 code
  | 2 => unpack .bf16 code
  | _ => unpack .f32 code

/-- The K chunk for the wider operand (R200). -/
def chunkOf (a b : Word) : Nat :=
  let c : Word → Nat := fun w => match fmtKind w with
    | 0 => if (Narrow.ofWord w).width ≤ 4 then 256 else 128
    | 3 => 16
    | _ => 64
  min (c a) (c b)

namespace State

/-- A job as a user of the homes of a page. -/
def jobUse (j : Job) (attr : Nat) : HomeUse := { part := j.part, ctx := some j.ctx, attr := attr }
/-- The first cause of lost data among keys that a job reads. -/
def lostOf (s : State) (keys : List Nat) : Option Nat := keys.findSome? s.lostAt
/-- A job that has read lost data ends with error 7 (R208, R348). -/
def lostJob (s : State) (j : Job) (cause : Nat) : State := (s.noteLoss j.cluster cause).setJob { j with error := 7 }

/-- Memory as a job's reads see it: a deterministic gang's jobs read through its staged view (R317). -/
def jobView (s : State) (j : Job) : Memory :=
  match j.gang with
  | some g => s.view g
  | none => s.mem

/-- The tile at an address of a card; none when its header does not lie in the gang's scratch. DEDUCED: log entry 62. -/
def tileAt (s : State) (j : Job) (addr : Nat) : Option Tile :=
  match s.cardScratch j.gang j.wg addr 32 with
  | none => none
  | some k => some { key := k, fmt := BitVec.ofNat 32 (s.mem.read k 4), rows := s.mem.read (k + 4) 2
                     k := s.mem.read (k + 6) 2, scale := s.mem.read (k + 8) 8, mbz := s.mem.read (k + 16) 16 }

/-- Error 1: a tile header that breaks R197, or a tile that runs past the gang's scratch. -/
def tileBad (s : State) (j : Job) (addr : Nat) (t : Tile) : Bool :=
  t.mbz != 0 || decide (3 < fmtKind t.fmt) || !copyFmtOk t.fmt || t.rows % 64 != 0 || decide (t.rows < 64)
    || decide (4096 < t.rows) || t.k % 16 != 0 || decide (t.k < 16) || decide (4096 < t.k)
    || (t.scale != 0 && !fmtNarrow t.fmt)
    || (s.cardScratch j.gang j.wg addr (tileBytes (fmtBits t.fmt) t.rows t.k)).isNone

/-- The scale array of a tile lies in the gang's scratch. -/
def scalesIn (s : State) (j : Job) (t : Tile) : Bool :=
  t.scale == 0 || (s.cardScratch j.gang j.wg t.scale (t.rows * (t.k / 16))).isSome

/-- An element of a tile. -/
def tileElem (s : State) (t : Tile) (r k : Nat) : FVal :=
  let w := fmtBits t.fmt
  let o := tileOff w t.k r k
  operandVal t.fmt (s.mem.read (t.key + o.1) ((o.2 + w + 7) / 8) / 2 ^ o.2 % 2 ^ w)

/-- The scale of a group of a tile's row (R199). -/
def tileScale (s : State) (j : Job) (t : Tile) (r g : Nat) : Nat :=
  if t.scale == 0 then 127
  else match s.cardScratch j.gang j.wg t.scale (t.rows * (t.k / 16)) with
    | some k => (s.mem.byte (k + r * (t.k / 16) + g)).toNat
    | none => 127

/-- The blocks of a tile's row in the groups [g0, g0 + n). -/
def tileBlocks (s : State) (j : Job) (t : Tile) (r g0 n : Nat) : List (List FVal × Nat) :=
  (List.range n).map (fun i =>
    ((List.range 16).map (fun e => s.tileElem t r (16 * (g0 + i) + e)), s.tileScale j t r (g0 + i)))

/-- The side tensor of a region and the coordinates of an element's scale in it (R59); none once the region that the side handle
names has been destroyed, and the scale is then 1. DESIGN CHOICE: log entry 79. -/
def sideOf (s : State) (r : Region) (x : List Nat) : Option (Region × List Nat) :=
  if r.side == 0 || !r.narrow then none
  else (s.regionOf r.ctx r.side).map (fun sr => (sr, x.set r.block (x.getD r.block 0 / 16)))

/-- The scale of an element's block: the E8M0 code, 127 without a side tensor. -/
def sideScale (s : State) (m : Memory) (r : Region) (x : List Nat) : Nat :=
  match s.sideOf r x with
  | none => 127
  | some (sr, y) => match s.elemLoc sr y .read with
    | .ok l => l.value m
    | .error _ => 127

/-- The fault of reading an element and its scale. -/
def scaledFault (s : State) (r : Region) (x : List Nat) (n : Need) : Option (Nat × Nat × Nat) :=
  match s.elemFault r x n with
  | some f => some f
  | none => match s.sideOf r x with
    | none => none
    | some (sr, y) => s.elemFault sr y .read

/-- The code and the scale of an element of the streamed operand: beyond an extent +0 with scale 1 (R203).
DEDUCED: log entry 21. -/
def streamElem (s : State) (m : Memory) (r : Region) (x : List Nat) : Nat × Nat :=
  if r.inside x then
    (match s.elemLoc r x .read with
      | .ok l => l.value m
      | .error _ => 0, s.sideScale m r x)
  else (0, 127)

/-- The region's side tensor belongs to a layer that is absent (R329). -/
def sideAbsent (s : State) (r : Region) : Bool := r.narrow && r.side != 0 && (s.regionOf r.ctx r.side).any (·.absent)

/-- The region a streaming command reads, when its handle passes the check of error 5. -/
def streamRegion (s : State) (j : Job) : Option Region :=
  let m := mcard j.card
  match s.regionOf j.ctx (BitVec.ofNat 64 m.b) with
  | none => none
  | some r =>
    if r.dims != 2 || decide (3 < fmtKind r.format) || (r.narrow && r.block != 1) || (r.narrow && m.kOrg % 16 != 0)
      || r.absent || s.sideAbsent r then none else some r

/-- The gather entries of a command. -/
def gatherOf (s : State) (j : Job) : List Nat :=
  match s.cardScratch j.gang j.wg (mcard j.card).gather 128 with
  | some k => (List.range 64).map (fun i => s.mem.read (k + 2 * i) 2)
  | none => []
/-- The outliers of a command: row, k, v. -/
def outliersOf (s : State) (j : Job) : List (Nat × Nat × Nat × Nat) :=
  let m := mcard j.card
  if m.outCount == 0 then []
  else match s.cardScratch j.gang j.wg m.outList (8 * m.outCount) with
    | some k => (List.range m.outCount).map (fun i =>
        let o := s.mem.read (k + 8 * i) 8
        (o / 2 ^ 32 % 64, o / 65536 % 65536, o % 65536, o / 2 ^ 38))
    | none => []

/-- The keys of the headers and lists that an MMA reads at its first grant. -/
def listKeys (s : State) (j : Job) : List Nat :=
  let m := mcard j.card
  let span : Nat → Nat → List Nat := fun a n => match s.cardScratch j.gang j.wg a n with
    | some k => (List.range n).map (fun i => k + i)
    | none => []
  span m.a 32 ++ (if m.bs then [] else span m.b 32) ++ (if m.g then span m.gather 128 else [])
    ++ (if m.outCount == 0 then [] else span m.outList (8 * m.outCount))

/-- The error a command meets at its first grant, 0 when none: the lowest number that applies (R204). -/
def mmaError (s : State) (j : Job) : Nat :=
  let m := mcard j.card
  let ta := s.tileAt j m.a
  let tb := s.tileAt j m.b
  let bad : Nat → Option Tile → Bool := fun a t => match t with
    | none => true
    | some t => s.tileBad j a t
  let e1 := bad m.a ta || (!m.bs && bad m.b tb)
  let past : Option Tile → Bool → Nat → Bool := fun t useBlock blk => match t with
    | none => false
    | some t => decide (t.k < 16 * (m.kfirst + m.kcount)) || (useBlock && decide (t.rows < 64 * blk + 64))
  let e2 := past ta (!m.g) m.aBlock || (!m.bs && past tb true m.bBlock)
  let e3 := m.g && (s.gatherOf j).any (fun e => e / 4096 % 8 != 0 || (match ta with
    | some t => decide (t.rows ≤ e % 4096)
    | none => false))
  let e4 := (s.outliersOf j).any (fun o => o.2.2.2 != 0 || decide (o.2.1 < 16 * m.kfirst)
    || decide (16 * (m.kfirst + m.kcount) ≤ o.2.1))
  let e5 := m.bs && (s.streamRegion j).isNone
  let lists := (s.listKeys j).any s.lostKey
  let e8 := (m.g && (s.cardScratch j.gang j.wg m.gather 128).isNone)
    || (m.outCount != 0 && (s.cardScratch j.gang j.wg m.outList (8 * m.outCount)).isNone)
    || (match ta with
      | some t => !s.scalesIn j t
      | none => false)
    || (!m.bs && (match tb with
      | some t => !s.scalesIn j t
      | none => false))
  if e1 then 1 else if e2 then 2 else if e3 then 3 else if e4 then 4 else if e5 then 5
  else if lists then 7 else if e8 then 8 else 0

/-- The error of a DRAIN or PRIME at its first grant. -/
def bankError (s : State) (j : Job) : Nat :=
  match s.cardScratch j.gang j.wg (mcard j.card).a 16384 with
  | none => 8
  | some k => if (mcard j.card).op == 2 && (List.range 2048).any (fun i => s.lostKey (k + 8 * i)) then 7 else 0

def jobCheck (s : State) (j : Job) : Nat := if (mcard j.card).op == 0 then s.mmaError j else s.bankError j

/-- The format of the B operand. -/
def bFormat (s : State) (j : Job) : Word :=
  let m := mcard j.card
  if m.bs then (match s.regionOf j.ctx (BitVec.ofNat 64 m.b) with
    | some r => r.format
    | none => 0)
  else match s.tileAt j m.b with
    | some t => t.fmt
    | none => 0

/-- K indices per pass, and the number of passes (R200). -/
def chunk (s : State) (j : Job) : Nat :=
  match s.tileAt j (mcard j.card).a with
  | some t => chunkOf t.fmt (s.bFormat j)
  | none => 16
def passes (s : State) (j : Job) : Nat :=
  let m := mcard j.card
  if m.op == 0 then (16 * m.kcount + s.chunk j - 1) / s.chunk j else 1

/-- The K range of pass p: first index and length. -/
def passRange (s : State) (j : Job) (p : Nat) : Nat × Nat :=
  let m := mcard j.card
  let lo := 16 * m.kfirst + p * s.chunk j
  (lo, min (s.chunk j) (16 * (m.kfirst + m.kcount) - lo))

/-- The coordinates of pass p's streamed operand, by ascending k and within each k by ascending n (R262). -/
def streamBox (s : State) (j : Job) (p : Nat) : List (List Nat) :=
  let m := mcard j.card
  let k := s.passRange j p
  ((List.range k.2).map (fun i => (List.range 64).map (fun n => [m.nOrg + n, m.kOrg + k.1 + i]))).flatten
/-- Those of them that the region holds. -/
def streamCoords (s : State) (j : Job) (r : Region) (p : Nat) : List (List Nat) := (s.streamBox j p).filter r.inside

/-- What a streamed fetch of pass p meets: the first fault of an element it needs, with its virtual address. -/
def streamFault (s : State) (j : Job) (p : Nat) : Option (Nat × Nat × Nat) :=
  match s.streamRegion j with
  | none => none
  | some r => (s.streamCoords j r p).findSome? (fun x => s.scaledFault r x .read)

/-- The keys of elements of a region and of their scales. -/
def scaledKeys (s : State) (r : Region) (xs : List (List Nat)) : List Nat :=
  let keys : Region → List Nat → List Nat := fun r x => match s.elemLoc r x .read with
    | .ok l => l.keys
    | .error _ => []
  (xs.map (keys r)).flatten ++ ((xs.filterMap (fun x => s.sideOf r x)).dedup.map (fun y => keys y.1 y.2)).flatten

/-- The keys a streamed pass reads. -/
def streamKeys (s : State) (j : Job) (p : Nat) : List Nat :=
  match s.streamRegion j with
  | none => []
  | some r => s.scaledKeys r (s.streamCoords j r p)

/-- The gang an engine's notices count as: the posting gang's identifier, or the job's own for a kind-1 node's job.
DEDUCED: log entry 63. -/
def noticeGang (j : Job) : Nat := j.gang.getD j.id

/-- Presents notices of an engine to a region's monitor. -/
def engineNotices (s : State) (r : Nat) (j : Job) (xs : List (List Nat)) : State :=
  match s.region r with
  | none => s
  | some rg => s.setRegion { rg with notices := rg.notices ++ xs.map (fun x => (noticeGang j, x.map (fun c => BitVec.ofNat 32 c))) }

/-- What a job of a deterministic gang has read is tracked (R319). -/
def trackReads (s : State) (j : Job) (keys : List Nat) : State :=
  match j.gang with
  | some g => s.trackKeys g (keys.filter (fun k => !isScratch k)) true false
  | none => s

/-- The arrival of a streamed pass's operand: its codes and scales as they are read now (R203, R210). -/
def streamArrives (s : State) (j : Job) (p : Nat) : State :=
  match s.streamRegion j with
  | none => s
  | some r =>
    let v := s.jobView j
    let s1 := s.setJob { j with fetched := j.fetched + 1, stream := j.stream ++ [(s.streamBox j p).map (s.streamElem v r)] }
    let keys := s.streamKeys j p
    let s2 := (s1.engineNotices r.id j (s.streamCoords j r p)).trackReads j keys
    let attr := match s.regionKey r r.base.toNat .read with
      | .ok k => k.2
      | .error _ => 0
    (s2.homeReads (jobUse j attr) keys).keepElems r .read (s.streamCoords j r p)

/-- Element k of B column n of a command, with its scale. -/
def bElem (s : State) (j : Job) (n k : Nat) : FVal × Nat :=
  let m := mcard j.card
  if m.bs then
    let e := (j.stream.headD []).getD ((k - (s.passRange j j.pos).1) * 64 + n) (0, 127)
    (operandVal (s.bFormat j) e.1, e.2)
  else match s.tileAt j m.b with
    | none => (.fin false 0 0, 127)
    | some t => (s.tileElem t (64 * m.bBlock + n) k, s.tileScale j t (64 * m.bBlock + n) (k / 16))

/-- The blocks of B column n in a pass. -/
def bBlocks (s : State) (j : Job) (n lo len : Nat) : List (List FVal × Nat) :=
  (List.range (len / 16)).map (fun i =>
    ((List.range 16).map (fun e => (s.bElem j n (lo + 16 * i + e)).1), (s.bElem j n (lo + 16 * i)).2))

/-- The blocks of output row m in a pass; none when the row is masked. -/
def aBlocks (s : State) (j : Job) (row lo len : Nat) : Option (List (List FVal × Nat)) :=
  let m := mcard j.card
  match s.tileAt j m.a with
  | none => none
  | some t =>
    if m.g then
      let e := (s.gatherOf j).getD row 0
      if e / 32768 % 2 == 1 then none else some (s.tileBlocks j t (e % 4096) (lo / 16) (len / 16))
    else some (s.tileBlocks j t (64 * m.aBlock + row) (lo / 16) (len / 16))

/-- One pass of an MMA on its bank (R201): the new bank and the flags. Tile headers, the gather vector and the outliers are read as they
stand at the pass. DESIGN CHOICE: log entry 79. -/
def mmaPass (s : State) (j : Job) (bank : List Word) : List Word × Flags :=
  let k := s.passRange j j.pos
  let cols := (List.range 64).map (fun n => s.bBlocks j n k.1 k.2)
  let dense := ((List.range 64).map (fun r =>
    match s.aBlocks j r k.1 k.2 with
    | none => (List.range 64).map (fun n => ((bank.getD (64 * r + n) 0).toNat, (0 : Flags)))
    | some ab => (List.range 64).map (fun n => denseElem (bank.getD (64 * r + n) 0).toNat (ab.zip (cols.getD n []))))).flatten
  let outs := (s.outliersOf j).filter (fun o => decide (k.1 ≤ o.2.1) && decide (o.2.1 < k.1 + k.2))
  let fin := outs.foldl (fun (acc : List (Nat × Flags)) o =>
    acc.mapIdx (fun i x =>
      if i / 64 == o.1 then
        let b := s.bElem j (i % 64) o.2.1
        let r := outlierElem x.1 (unpack .f16 o.2.2.1) b.1 b.2
        (r.1, x.2 ||| r.2)
      else x)) dense
  (fin.map (fun x => BitVec.ofNat 32 x.1), fin.foldl (fun a x => a ||| x.2) 0)

/-- A pass reads a word of a tile: an element of one of `rows` in [lo, lo + len), or one of their scales. -/
def tileReads (s : State) (j : Job) (t : Tile) (rows : List Nat) (lo len word : Nat) : Bool :=
  let w := fmtBits t.fmt
  let hit : Nat → Nat → Bool := fun a n => decide (a < 8 * word + 8) && decide (8 * word < a + n)
  rows.any (fun r => (List.range len).any (fun i =>
      let o := tileOff w t.k r (lo + i)
      hit (t.key + o.1) ((o.2 + w + 7) / 8)))
    || (t.scale != 0 && (match s.cardScratch j.gang j.wg t.scale (t.rows * (t.k / 16)) with
      | some k => rows.any (fun r => hit (k + r * (t.k / 16) + lo / 16) (len / 16))
      | none => false))

/-- The next pass reads a lost word of its tiles (R346, R348). -/
def passLost (s : State) (j : Job) : Bool :=
  let m := mcard j.card
  let k := s.passRange j j.pos
  let block : Nat → List Nat := fun b => (List.range 64).map (fun i => 64 * b + i)
  let rowsA := if m.g then (s.gatherOf j).filterMap (fun e => if e / 32768 % 2 == 1 then none else some (e % 4096)) else block m.aBlock
  let lost : Option Tile → List Nat → Bool := fun t rows => match t with
    | none => false
    | some t => s.sram.any (fun e => match e with
      | .scratch w => s.tileReads j t rows k.1 k.2 w
      | _ => false)
  lost (s.tileAt j m.a) rowsA || (!m.bs && lost (s.tileAt j m.b) (block m.bBlock))

/-- Outliers of the current pass. -/
def passOutliers (s : State) (j : Job) : Nat :=
  let k := s.passRange j j.pos
  ((s.outliersOf j).filter (fun o => decide (k.1 ≤ o.2.1) && decide (o.2.1 < k.1 + k.2))).length

/-! ### The arbiter (R206) -/

/-- A job holds its table or queue entry: until it completes (R206, R212), and not while its gang's pre-emption has withdrawn it
(R211). -/
def holdsEntry (s : State) (j : Job) : Bool :=
  j.phase == .running || (j.phase == .queued && (match j.gang with
    | none => true
    | some g => match s.gang g with
      | some g => g.phase == .resident
      | none => false))

/-- Jobs of a kind on a cluster that hold an entry. -/
def entries (s : State) (k : JobKind) (cl : Nat) : List Job :=
  s.jobs.filter (fun j => j.kind == k && j.cluster == cl && s.holdsEntry j)

/-- The time at which a job's bank is free. -/
def bankFree (s : State) (j : Job) : Nat :=
  match j.gang with
  | none => 0
  | some g => match s.gang g with
    | some g => g.bankBusy.getD (mcard j.card).bank 0
    | none => 0

/-- Whether a matrix command may be granted a pass. -/
def eligible (s : State) (j : Job) : Bool :=
  let cyc := (s.cluster j.cluster).cycle
  (j.phase == .running || (j.phase == .queued && s.holdsEntry j)) && j.error == 0 && !j.stalled && s.edgesClear j
    && (s.cluster j.cluster).present && decide (s.bankFree j ≤ cyc)
    && (if j.phase == .queued && s.jobCheck j != 0 then true
        else decide (j.pos < s.passes j)
          && ((mcard j.card).op != 0 || !(mcard j.card).bs || decide (j.pos < j.fetched)))

/-- Rank of an entry: priority, raise, order of raise, order of posting; lower goes first. -/
def rank (j : Job) : List Nat :=
  match j.raised with
  | some n => [255 - j.prio, 0, n, j.id]
  | none => [255 - j.prio, 1, 0, j.id]

/-- The first of a list of jobs by rank. -/
def firstRank : List Job → Option Job
  | [] => none
  | x :: t => some (t.foldl (fun b y => if keyLe (rank b) (rank y) then b else y) x)

/-- The entry the matrix engine of a cluster grants next. -/
def granted (s : State) (cl : Nat) : Option Job :=
  if (s.cluster cl).grantAt ≤ (s.cluster cl).cycle then
    firstRank ((s.entries .matrix cl).filter s.eligible)
  else none

/-- A job that ends with an error before moving more data. -/
def failJob (s : State) (j : Job) (e : Nat) : State := s.setJob { j with error := e, phase := .running, raised := none }

/-- The first keys of what a command's pass reaches in scratch, its scales among them: which banks it is at. -/
def operandKeys (s : State) (j : Job) : List Nat :=
  let m := mcard j.card
  let tiles := if m.op == 0 then m.a :: (if m.bs then [] else [m.b]) else []
  let scales := tiles.filterMap (fun a => (s.tileAt j a).bind (fun t => if t.scale == 0 then none else some t.scale))
  ([m.a, m.gather, m.outList] ++ (if m.bs then [] else [m.b]) ++ scales).filterMap (fun a => s.cardScratch j.gang j.wg a 1)

/-- One grant to a command of operation `op`: the check at the first grant, then `pass`. -/
def grant (s : State) (op jid : Nat) (pass : State → Job → Gang → State) : Option State :=
  match s.job jid with
  | none => none
  | some j =>
    if j.kind != .matrix || (mcard j.card).op != op || (s.granted j.cluster).map (·.id) != some jid then none
    else
      let cyc := (s.cluster j.cluster).cycle
      let s1 := s.updCluster j.cluster (fun c => { c with grantAt := cyc + 8 })
      let err0 := if j.phase == .queued then s.jobCheck j else 0
      let err := if err0 == 0 && op == 0 && s.passLost j then 7 else err0
      if err != 0 then some ((if err == 7 then s1.noteLoss j.cluster 2 else s1).failJob j err)
      else match j.gang with
        | none => none
        | some gid => (s.gang gid).map (fun g => pass (s1.engineTook j.part j.cluster 5 (s.operandKeys j)) j g)

/-- Sets a bank, and the time at which it is free. -/
def setBank (s : State) (g : Gang) (b : Nat) (bank : List Word) (busy : Nat) : State :=
  s.setGang { g with banks := g.banks.set b bank, bankBusy := g.bankBusy.set b busy }

/-- The words a bank holds; +0 where none is stored. -/
def bankOf (g : Gang) (b : Nat) : List Word := g.banks.getD b (List.replicate 4096 0)
def zeroBank : List Word := List.replicate 4096 0

/-- An engine's write of whole words in scratch, each set full: it ends their errors (R346) and starts their scans (R143). -/
def engineWrite (s : State) (key : Nat) (bytes : List Byte) : State :=
  let w0 := key / 8
  let n := bytes.length / 8
  State.scanKeys { s with mem := (s.mem.writeBytes key bytes).setFulls w0 true n
                          sram := s.sram.filter (fun e => match e with
                            | .scratch w => !(decide (w0 ≤ w) && decide (w < w0 + n))
                            | _ => true) } ((List.range n).map (fun i => key + 8 * i))

/-- A DRAIN has lines of its bank still to write. -/
def draining (j : Job) : Bool := j.kind == .matrix && j.phase == .running && (mcard j.card).op == 1 && !j.stream.isEmpty && j.error == 0

/-- A DRAIN writes one of the lines still to write: a free value says which, since a racing reader may see any of them first
(R292). -/
def drainLine (s : State) (j : Job) : State :=
  let q := s.pick j.stream.length
  let line := j.stream.getD q.1 []
  let s1 := (q.2.setJob { j with stream := j.stream.eraseIdx q.1 }).engineTook j.part j.cluster 5 (s.operandKeys j)
  match s.cardScratch j.gang j.wg (mcard j.card).a 16384 with
  | some k => s1.engineWrite (k + 4 * (line.headD (0, 0)).1) ((line.map (fun w => bytesOfNat 4 w.2)).flatten)
  | none => s1

end State

/-- MMA (R201): a granted pass accumulates its K chunk into the bank. -/
def execMma (job : Nat) (s : State) : Host.Outcome State Fault Refusal :=
  ev "MMA" (s.grant 0 job (fun s j g =>
    let b := (mcard j.card).bank
    let start := if (mcard j.card).z && j.pos == 0 then State.zeroBank else State.bankOf g b
    let r := s.mmaPass j start
    let cyc := (s.cluster j.cluster).cycle
    (s.setBank g b r.1 (cyc + 8 + (s.passOutliers j + 3) / 4)).setJob
      { j with phase := .running, pos := j.pos + 1, flags := j.flags ||| r.2, since := cyc, raised := none, stream := j.stream.drop 1 }))

/-- DRAIN (R205): its one pass takes the bank, set to +0 with Z; then the bank's lines go to scratch as full words, in an order of
their own (R292). DESIGN CHOICE: log entry 81. -/
def execDrain (job : Nat) (s : State) : Host.Outcome State Fault Refusal :=
  ev "DRAIN" (match s.job job with
    | none => none
    | some d =>
      if State.draining d then some (s.drainLine d)
      else s.grant 1 job (fun s j g =>
        let m := mcard j.card
        let cyc := (s.cluster j.cluster).cycle
        let bank := State.bankOf g m.bank
        let lines := (List.range 256).map (fun i => (List.range 16).map (fun w => (16 * i + w, (bank.getD (16 * i + w) 0).toNat)))
        (s.setBank g m.bank (if m.z then State.zeroBank else bank) (cyc + 8)).setJob
          { j with phase := .running, pos := 1, since := cyc, raised := none, stream := lines }))

/-- PRIME (R205): the bank is loaded from scratch. -/
def execPrime (job : Nat) (s : State) : Host.Outcome State Fault Refusal :=
  ev "PRIME" (s.grant 2 job (fun s j g =>
    let m := mcard j.card
    let cyc := (s.cluster j.cluster).cycle
    let bank := match s.cardScratch j.gang j.wg m.a 16384 with
      | some k => (List.range 4096).map (fun i => BitVec.ofNat 32 (s.mem.read (k + 4 * i) 4))
      | none => State.bankOf g m.bank
    (s.setBank g m.bank bank (cyc + 8)).setJob { j with phase := .running, pos := 1, since := cyc, raised := none }))

/-- STREAM_FETCH_RETURN (R203): the next streamed pass's operand arrives, up to four passes ahead, or faults and stalls
its command. -/
def execStreamFetchReturn (job : Nat) (s : State) : Host.Outcome State Fault Refusal :=
  evPort "STREAM_FETCH_RETURN" (match s.job job with
    | none => none
    | some j =>
      let m := mcard j.card
      if j.kind != .matrix || m.op != 0 || !m.bs || !(s.entries .matrix j.cluster).any (fun x => x.id == job) || j.stalled
        || j.error != 0 || decide (s.passes j ≤ j.fetched) || decide (j.pos + 4 ≤ j.fetched) || !s.edgesClear j then none
      else if j.phase == .queued && s.jobCheck j != 0 then none
      else if (s.streamRegion j).isNone then some (s.failJob j 5)
      else match s.streamFault j j.fetched with
        | none =>
          let keys := s.streamKeys j j.fetched
          if !s.engineTurn j.part j.cluster 5 keys then none
          else match s.lostOf keys with
          | some cause => some ((s.noteLoss j.cluster cause).failJob j 7)
          | none => some ((s.streamArrives j j.fetched).engineTook j.part j.cluster 5 keys)
        | some (cause, gpa, va) =>
          some ((s.setJob { j with stalled := true }).pageRequest j.ctx va cause gpa 4))

/-- ENTRY_RAISE (R206): an eligible entry ungranted for more than 4,096 cycles is raised. -/
def execEntryRaise (job : Nat) (s : State) : Host.Outcome State Fault Refusal :=
  ev "ENTRY_RAISE" (match s.job job with
    | none => none
    | some j =>
      let cyc := (s.cluster j.cluster).cycle
      let may := if j.kind == .matrix then s.eligible j else j.phase == .queued && s.holdsEntry j && s.edgesClear j
      if j.raised.isSome || !may || decide (cyc ≤ j.since + 4096) then none
      else some { s.setJob { j with raised := some s.nextId } with nextId := s.nextId + 1 })

/-- COMMAND_POST (R192, R211): a command whose count reached zero enters the reservation table once an entry is free; a job that a
pre-emption withdrew enters its table or queue again (R178). Its wait for a grant counts from now (R206). -/
def execCommandPost (id : Nat) (s : State) : Host.Outcome State Fault Refusal :=
  ev "COMMAND_POST" (match s.job id with
    | none => none
    | some j =>
      let resident := match j.gang with
        | none => true
        | some g => match s.gang g with
          | some g => g.phase == .resident
          | none => false
      let most := if j.kind == .matrix then Config.tableMax else Config.copyMax
      -- commands enter in the order in which their counts reached zero (R222)
      if j.phase == .counted && resident && decide ((s.entries j.kind j.cluster).length < most)
          && !s.jobs.any (fun x => x.kind == j.kind && x.gang == j.gang && x.phase == .counted && decide (x.id < j.id)) then
        some (s.setJob { j with phase := .queued, since := (s.cluster j.cluster).cycle, raised := none })
      else none)

end Sys2Proof.Machine
end

