-- ==== Sys2Proof/Machine/Copy.lean ====
section
/-! DEFINITION. Sys2Proof/Machine/Copy.lean: the copy engine (R212, R216 to R220): starting a job, moving one element, the
end of a job and its completion action (R208, R209). -/

namespace Sys2Proof.Machine

namespace State

/-! ### Byte addresses of a job -/

/-- Translation of a job's byte address and its page attribute: a page with T = 1 is a stage-1 permission fault (R259). -/
def jobXlat (s : State) (ctx va : Nat) (n : Need) : Except (Nat × Nat) (Nat × Nat) :=
  match s.context ctx with
  | none => .error (0, 0)
  | some c => match s.xlat c va n with
    | .ok hpa attr _ _ => if s.tensorPage c va then .error (1, 0) else .ok (hpa, attr)
    | .fault cause gpa => .error (if s.tensorPage c va then (1, 0) else (cause, gpa))
    | .lost => .error (5, 0)

/-- Keys of n bytes that a job reaches at an address: cause, guest physical and virtual address of the first fault. -/
def jobKeys (s : State) (j : Job) (addr : Nat) (n : Need) : Nat → Except (Nat × Nat × Nat) (List Nat)
  | 0 => .ok []
  | k + 1 =>
    if aperture addr != 0 then
      match s.cardScratch j.gang j.wg addr (k + 1) with
      | some key => .ok ((List.range (k + 1)).map (fun i => key + i))
      | none => .error (0, 0, addr)
    else match s.jobXlat j.ctx addr n with
      | .error e => .error (e.1, e.2, addr)
      | .ok x => match s.jobKeys j (addr + 1) n k with
        | .ok t => .ok (x.1 :: t)
        | .error e => .error e

/-- The page attribute of a job's byte address; scratch has none. -/
def jobAttr (s : State) (ctx addr : Nat) (n : Need) : Nat :=
  if aperture addr != 0 then 0
  else match s.jobXlat ctx addr n with
    | .ok x => x.2
    | .error _ => 0

/-- The words of a list of keys. -/
def wordsOf (keys : List Nat) : List Nat := (keys.map (fun k => k / 8)).dedup

/-- A place on an address side. -/
def sideLoc (s : State) (j : Job) (addr : Nat) (off : Nat × Nat) (w : Nat) (n : Need) : Except (Nat × Nat × Nat) Loc :=
  let len := (off.2 + w + 7) / 8
  match s.jobKeys j (addr + off.1) n len with
  | .error e => .error e
  | .ok keys => .ok { keys := keys, off := off.2, width := w, words := wordsOf keys, elem := none
                      attr := max (s.jobAttr j.ctx (addr + off.1) n) (s.jobAttr j.ctx (addr + off.1 + len - 1) n) }

/-- A place on a handle side. -/
def handleLoc (s : State) (r : Region) (x : List Nat) (n : Need) : Except (Nat × Nat × Nat) Loc :=
  match s.scaledFault r x n with
  | some f => .error f
  | none => match s.elemLoc r x n with
    | .ok l => .ok l
    | .error e => .error (e.1, e.2, r.base.toNat)

/-! ### One element (R216, R217) -/

/-- One side of an element's move: its place, the scale that applies with the keys it lies at, and on a handle side the region and
coordinates. -/
structure MoveSide where
  loc : Loc
  scale : Option Nat
  scaleKeys : List Nat
  elem : Option (Region × List Nat)

/-- The offset of an element's scale on an address side (R216). -/
def scaleOff (c : CCard) (idx : List Nat) : Nat :=
  let q := ((idx.drop 1).zip (c.ext.drop 1)).foldr (fun p a => p.1 + p.2 * a) 0
  q * ((c.ext.getD 0 1 + 15) / 16) + idx.getD 0 0 / 16

/-- A side of element idx: none when its handle is invalid or its layer absent (error 5); `sc` says that the address
side has scales. -/
def moveSide (s : State) (j : Job) (c : CCard) (idx : List Nat) (handle : Bool) (addr : Nat) (off : Nat × Nat) (fmt : Word)
    (org : List Nat) (sc : Bool) (n : Need) : Except (Nat × Nat × Nat) (Option MoveSide) :=
  if handle then
    match s.regionOf j.ctx (BitVec.ofNat 64 addr) with
    | none => .ok none
    | some r =>
      if r.absent || s.sideAbsent r then .ok none
      else
        let x := sideCoords r org idx
        match s.handleLoc r x n with
        | .error e => .error e
        | .ok l =>
          let keys := match s.sideOf r x with
            | some y => (match s.elemLoc y.1 y.2 .read with
              | .ok k => k.keys
              | .error _ => [])
            | none => []
          .ok (some ⟨l, (s.sideOf r x).map (fun _ => s.sideScale (s.jobView j) r x), keys, some (r, x)⟩)
  else
    match s.sideLoc j addr off (copyBits fmt) n with
    | .error e => .error e
    | .ok l =>
      if sc && c.scale != 0 then
        match s.jobKeys j (c.scale + scaleOff c idx) .read 1 with
        | .error e => .error e
        | .ok ks => .ok (some ⟨l, some ((s.jobView j).byte (ks.headD 0)).toNat, ks, none⟩)
      else .ok (some ⟨l, none, [], none⟩)

/-- Where element idx lies on the destination's address side or tile. -/
def destOff (c : CCard) (idx : List Nat) : Nat × Nat :=
  if c.dt then tileOff (copyBits c.dfmt) (tileK c) (idx.getD 1 0) (idx.getD 0 0) else sideOff c.dfmt c.dstr idx

/-- The byte range, in the card's address space, of element n on the destination's address side. -/
def destSpan (c : CCard) (n : Nat) : Nat × Nat :=
  let o := destOff c (c.idx n)
  (c.dst + o.1, c.dst + o.1 + (o.2 + copyBits c.dfmt + 7) / 8)

/-- The element whose source bit a destination word takes under policy 0 (R219): the one that lands in its lowest byte, the last of them
where several narrow elements share that byte (DESIGN CHOICE: log entry 79), else the first that lands in it. -/
def unitOwner (c : CCard) (w : Nat) : Option Nat :=
  let low := (List.range c.total).reverse.find? (fun n => let r := destSpan c n; decide (r.1 ≤ 8 * w) && decide (8 * w < r.2))
  match low with
  | some n => some n
  | none => (List.range c.total).find? (fun n => let r := destSpan c n; decide (r.1 < 8 * w + 8) && decide (8 * w < r.2))

/-- The bits element n's move sets on the destination's address side: word of the card's address space and bit. -/
def destBits (c : CCard) (n : Nat) (src : Bool) : List (Nat × Bool) :=
  let r := destSpan c n
  let ws := (List.range ((r.2 - 1) / 8 - r.1 / 8 + 1)).map (fun i => r.1 / 8 + i)
  match c.fe with
  | 0 => if c.dt then ws.map (fun w => (w, true)) else (ws.filter (fun w => unitOwner c w == some n)).map (fun w => (w, src))
  | 1 => ws.map (fun w => (w, true))
  | 2 => ws.map (fun w => (w, false))
  | _ => []

/-- The node whose work a job is part of. -/
def jobNode (s : State) (j : Job) : Option Nat :=
  match j.gang with
  | some g => s.nodeOf g
  | none => j.node

/-- A job's writes at a place are staged: those of a deterministic gang to global memory (R315). -/
def jobStages (s : State) (j : Job) (l : Loc) : Bool := j.gang.any s.isDet && !l.scratch

/-- What a job's write at a place does beside the write itself: the bytes `keys`, and the bits of `words`, at their homes; the host sees
it, its completion time joins the job's, and the waiters are scanned (R139, R143, R209, R246, R293). -/
def jobWrote (s : State) (j : Job) (l : Loc) (keys words : List Nat) : State :=
  let s1 := (s.homeWrote (jobUse j l.attr) keys words).hostSees j.fibre j.part (s.jobNode j) (placeKeys l)
  let t := if l.scratch then 0 else if l.elem.isSome then s.time else s.leasesOf l.keys
  let s2 := match s1.job j.id with
    | some x => s1.setJob { x with ctime := max x.ctime t }
    | none => s1
  (s2.healWords l).scanKeys (placeKeys l)

/-- A job's staged write (R315): it is tracked, and the waiters of the gang's view are scanned. -/
def jobStage (s : State) (j : Job) (l : Loc) (e : Staged) : State :=
  match j.gang with
  | none => s
  | some g =>
    let s1 := match s.job j.id with
      | some x => s.setJob { x with ctime := max x.ctime s.time }
      | none => s
    ((s1.trackKeys g (placeKeys l) false true).stage g { e with attr := l.attr }).scanKeys (placeKeys l)

/-- A job's write at a place of an address side, with the bits of its words. -/
def jobWrite (s : State) (j : Job) (l : Loc) (v : Nat) (bits : List (Nat × Bool)) : State :=
  if s.jobStages j l then
    let m := l.store (s.jobView j) v
    s.jobStage j l { addr := l.first, op := .tagr, bytes := l.keys.map (fun k => (k, m.byte k)), bits := bits }
  else State.jobWrote { s with mem := bits.foldl (fun m wb => m.setFull wb.1 wb.2) (l.store s.mem v) } j l l.keys (bits.map (·.1))

/-- A job's write of a tensor element. -/
def jobWriteElem (s : State) (j : Job) (handle : Nat) (x : List Nat) (l : Loc) (v : Nat) (form : Form) : State :=
  if s.jobStages j l then
    s.jobStage j l { addr := handle, op := .stt form (x.map (fun c => BitVec.ofNat 32 c)) x.length false v, bytes := [], bits := [] }
  else State.jobWrote { s with mem := setForm (l.store s.mem v) l form } j l (if form.leaves.isSome then placeKeys l else l.keys) []

/-- The pad elements after the last element of a narrow row (R216), as byte offsets and bit offsets. -/
def rowPads (c : CCard) (idx : List Nat) : List (Nat × Nat) :=
  let e0 := c.ext.getD 0 1
  if c.dh || c.dt || !fmtNarrow c.dfmt || idx.getD 0 0 + 1 != e0 then []
  else (List.range (roundUp e0 16 - e0)).map (fun i => sideOff c.dfmt c.dstr (idx.set 0 (e0 + i)))

/-- Writes a code 0 at each pad; a word in which no real element lands is set full under policy 0 (R219). -/
def writePads (s : State) (j : Job) (c : CCard) (idx : List Nat) : State :=
  (rowPads c idx).foldl (fun s off =>
    match s.sideLoc j c.dst off (copyBits c.dfmt) .write with
    | .error _ => s
    | .ok l =>
      let ws := wordsOf ((List.range ((off.2 + copyBits c.dfmt + 7) / 8)).map (fun i => c.dst + off.1 + i))
      let bits := (ws.zip l.words).filterMap (fun w => match c.fe with
        | 0 => if (unitOwner c w.1).isNone then some (w.2, true) else none
        | 1 => some (w.2, true)
        | 2 => some (w.2, false)
        | _ => none)
      s.jobWrite j l 0 bits) s

/-- The bits of destBits, on the keys of the place. -/
def keyBits (c : CCard) (n : Nat) (l : Loc) (src : Bool) : List (Nat × Bool) :=
  let base := (destSpan c n).1 / 8
  (destBits c n src).filterMap (fun wb => match l.words[wb.1 - base]? with
    | some w => some (w, wb.2)
    | none => none)

/-- A job that stalls on a translation fault (R242). -/
def jobFault (s : State) (j : Job) (f : Nat × Nat × Nat) (kind : Nat) : State :=
  (s.setJob { j with stalled := true }).pageRequest j.ctx f.2.2 f.1 f.2.1 kind

/-- A side's translations stay in the copy engine's TLB (R236). -/
def keepSide (s : State) (j : Job) (a : MoveSide) (addr : Nat) (n : Need) : State :=
  match a.elem with
  | some (rg, x) => (s.keepElems rg n [x]).engineNotices rg.id j [x]
  | none => if aperture addr == 0 then s.keepVas j.ctx n [addr] else s

/-- Writes the element that a job moves: the converted code at its place, with the bits of its words or its own bit. -/
def putMoved (s : State) (j : Job) (c : CCard) (b : MoveSide) (code : Nat) (bit : Bool) : State :=
  match b.elem with
  | some (rg, x) =>
    let form : Form := if rg.policy == 0 then .plain else match c.fe with
      | 0 => if bit then .forceFill else .forceEmpty
      | 1 => .forceFill
      | 2 => .forceEmpty
      | _ => .plain
    s.jobWriteElem j c.dst x b.loc code form
  | none => (s.jobWrite j b.loc code (keyBits c j.pos b.loc bit)).writePads j c (c.idx j.pos)

/-- Moves the next element of a running copy job, in its turn at the places it reaches; none where it is not its turn. -/
def moveElem (s : State) (j : Job) : Option State :=
  let c := ccard j.card
  let idx := c.idx j.pos
  let v := s.jobView j
  let sf := s.sideFmt j.ctx c.sh c.src c.sfmt
  let df := s.sideFmt j.ctx c.dh c.dst c.dfmt
  let raw := sf == df && c.sc == 0 && (chainSteps c.chain).isEmpty
  match s.moveSide j c idx c.sh c.src (sideOff c.sfmt c.sstr idx) c.sfmt c.sorg (c.sc == 1) .read with
  | .error f => some (s.jobFault j f 4)
  | .ok none => some (s.setJob { j with error := 5 })
  | .ok (some a) => match s.moveSide j c idx c.dh c.dst (destOff c idx) c.dfmt c.dorg (c.sc == 2) .write with
    | .error f => some (s.jobFault j f 5)
    | .ok none => some (s.setJob { j with error := 5 })
    | .ok (some b) =>
      let scales := if raw then [] else a.scaleKeys ++ b.scaleKeys
      -- the source's bit is read where the job copies it (R219)
      let src := if c.fe == 0 then placeKeys a.loc else a.loc.keys
      let keys := src ++ placeKeys b.loc ++ scales
      if !s.engineTurn j.part j.cluster 4 keys then none
      else match s.lostOf (src ++ scales) with
      | some cause => some (s.lostJob j cause)
      | none =>
        let srcBit := match a.loc.elem with
          | some _ => a.loc.full v
          | none => v.full (a.loc.first / 8)
        let deq := if c.sh || c.sc == 1 then a.scale else none
        let qs := if c.dh || c.sc == 2 then b.scale else none
        let r := convertElem sf df (c.sc != 0) deq qs c.chain c.c0 c.c1 (a.loc.value v)
        let s1 := s.setJob { j with
          pos := j.pos + 1
          sat := j.sat + (if r.2 && quantising sf df (c.sc != 0) c.chain then 1 else 0) }
        let s2 := (s1.keepSide j a (c.src + (sideOff c.sfmt c.sstr idx).1) .read).keepSide j b (c.dst + (destOff c idx).1) .write
        let s3 := ((s2.trackReads j (src ++ scales)).homeReads (jobUse j a.loc.attr) (src ++ scales)).engineTook j.part j.cluster 4 keys
        some (s3.putMoved j c b r.1 srcBit)

/-- A tile job (R220). -/
def tiling (j : Job) : Bool := j.kind == .copy && (ccard j.card).dt

/-- A copy job has a piece of its work left and may do it. -/
def canMove (s : State) (j : Job) : Bool :=
  let total := (ccard j.card).total
  j.kind == .copy && j.phase == .running && !j.stalled && j.error == 0 && (s.cluster j.cluster).present
    && (decide (j.pos < total) || (tiling j && (j.pos == total || !j.stream.isEmpty)))

/-- What a tile job writes beside its elements: the words of the header, (0, i), and the padding, (1, row times K plus k). -/
def tilePieces (c : CCard) : List (List (Nat × Nat)) :=
  let kk := tileK c
  (List.range 4).map (fun i => [(0, i)]) ++ ((List.range (tileRows c * kk)).filter (fun n =>
    !(decide (n / kk < c.ext.getD 1 1) && decide (n % kk < c.ext.getD 0 1)))).map (fun n => [(1, n)])

/-- The bytes of a tile job's header. -/
def tileHead (c : CCard) : List Byte :=
  bytesOfNat 4 c.dfmt.toNat ++ bytesOfNat 2 (tileRows c) ++ bytesOfNat 2 (tileK c) ++ bytesOfNat 8 (if c.sc == 1 then 0 else c.scale)
    ++ List.replicate 16 (0 : Byte)

/-- The place and the value of a piece of a tile at `key`. -/
def pieceLoc (c : CCard) (key : Nat) (x : Nat × Nat) : Loc × Nat :=
  if x.1 == 0 then (.ofBytes (key + 8 * x.2) 8 0, cardN (tileHead c) (8 * x.2) 8)
  else
    let w := copyBits c.dfmt
    let o := tileOff w (tileK c) (x.2 / tileK c) (x.2 % tileK c)
    let keys := (List.range ((o.2 + w + 7) / 8)).map (fun i => key + o.1 + i)
    ({ keys := keys, off := o.2, width := w, words := wordsOf keys, elem := none, attr := 0 }, 0)

/-- The next piece of a tile job's header or padding, with the bits of its words (R219, R220): a free value says which, since a racing
reader may see any of them first (R292). After the last, every word of the tile has been written. DESIGN CHOICE: log entry 81. -/
def tilePiece (s : State) (j : Job) : Option State :=
  let c := ccard j.card
  let n := tileBytes (copyBits c.dfmt) (tileRows c) (tileK c)
  match s.cardScratch j.gang j.wg c.dst n with
  | none => some (s.setJob { j with stream := [], pos := c.total + 1 })
  | some key =>
    let left := if j.pos == c.total then tilePieces c else j.stream
    let q := s.pick left.length
    let rest := left.eraseIdx q.1
    let x := pieceLoc c key ((left.getD q.1 []).headD (0, 0))
    let bits := match c.fe with
      | 3 => []
      | f => x.1.words.map (fun w => (w, f != 2))
    if !s.engineTurn j.part j.cluster 4 x.1.keys then none
    else
      let j1 := { j with stream := rest, pos := c.total + 1 }
      let s1 := ((q.2.setJob j1).engineTook j.part j.cluster 4 x.1.keys).jobWrite j1 x.1 x.2 bits
      some (if rest.isEmpty then { s1 with sram := s1.sram.filter (fun e => match e with
        | .scratch w => !(decide (key / 8 ≤ w) && decide (w < key / 8 + n / 8))
        | _ => true) } else s1)

/-- The next piece of a running copy job. -/
def moveNext (s : State) (j : Job) : Option State := if j.pos < (ccard j.card).total then s.moveElem j else s.tilePiece j

/-! ### The end of a job (R208, R209) -/

/-- A job has ended its work: it failed, or its last pass or element is done. -/
def jobDone (s : State) (j : Job) : Bool :=
  j.error != 0 || (match j.kind with
    | .matrix => j.phase == .running && decide (s.passes j ≤ j.pos) && !draining j
    | .copy => j.phase == .running && decide ((ccard j.card).total ≤ j.pos)
        && (!tiling j || (decide ((ccard j.card).total < j.pos) && j.stream.isEmpty)))

end State

/-- COPY_JOB_START (R212): the first queued job by rank whose edges are clear starts, while fewer than four run. -/
def execCopyJobStart (job : Nat) (s : State) : Host.Outcome State Fault Refusal :=
  ev "COPY_JOB_START" (match s.job job with
    | none => none
    | some j =>
      let ready := (s.entries .copy j.cluster).filter (fun x => x.phase == .queued && s.edgesClear x)
      let running := (s.entries .copy j.cluster).filter (fun x => x.phase == .running)
      if (State.firstRank ready).map (·.id) == some job && decide (running.length < Config.copyRunning)
          && (s.cluster j.cluster).present then
        some (s.setJob { j with phase := .running, since := (s.cluster j.cluster).cycle, raised := none })
      else none)

/-- JOB_COMPLETE (R209): the last write has been performed; the completion time, the status and %SATCNT are settled, and an
error goes to the context's fault queue. -/
def execJobComplete (job : Nat) (s : State) : Host.Outcome State Fault Refusal :=
  ev "JOB_COMPLETE" (match s.job job with
    | none => none
    | some j =>
      let free := j.kind == .copy || decide (s.bankFree j ≤ (s.cluster j.cluster).cycle)
      if j.phase == .complete || j.phase == .counted || !s.jobDone j || !free then none
      else
        let c := ccard j.card
        let j1 := { j with phase := .complete, stalled := false, ctime := if j.ctime == 0 then s.time else j.ctime }
        let s1 := s.setJob j1
        let sf := s.sideFmt j.ctx c.sh c.src c.sfmt
        let df := s.sideFmt j.ctx c.dh c.dst c.dfmt
        let s2 := match j.fibre with
          | some k => if j.kind == .copy && quantising sf df (c.sc != 0) c.chain then
              s1.updCtls [k] (fun _ x => { x with satcnt := BitVec.ofNat 32 j.sat }) else s1
          | none => s1
        some (if j.error == 0 then s2 else s2.noteFatal j.ctx 4 j1.status))

/-- The effect of a completion action at a place: the status force-filled, or one arrival. -/
def State.completeAt (s : State) (j : Job) (action : Nat) (l : Loc) : State :=
  if action == 1 then s.jobWrite j l j.status [(l.first / 8, true)]
  else State.scanAll { s with mem := l.store s.mem (barrierArrive (BitVec.ofNat 64 (l.value s.mem))).1.toNat } l

/-- The completion time of a job that leaves an engine stays with the fibre that posted it, for FENCE with eng (R160). -/
def State.jobsUntil (s : State) (fibre : Option Nat) (post t : Nat) : State :=
  match fibre with
  | none => s
  | some k => if (s.fibre k).live && decide ((s.fibre k).ctl.born ≤ post) then
      s.updCtls [k] (fun _ c => { c with jobsTill := max c.jobsTill t }) else s

/-- A job leaves the engine: its completion time joins its launch's, and a kind-1 node's work has ended (R303). -/
def State.jobGone (s : State) (j : Job) : State :=
  let t := match s.job j.id with
    | some x => max j.ctime x.ctime
    | none => j.ctime
  let s1 := (s.dropJob j.id).jobsUntil j.fibre j.post t
  let s2 := match j.gang with
    | some g => s1.joinLaunch g t
    | none => s1
  match j.node with
  | none => s2
  | some n => s2.updPart j.part (fun p => { p with nodes := p.nodes.map (fun x => match x.node with
      | some d => if x.n == n && d.phase == .dispatched then
          { x with node := some { d with phase := .ended (if j.error == 0 then 0 else 7) j.sat, ctime := max d.ctime t } } else x
      | none => x) })

/-- The completion action of a job and its address. -/
def Job.completion (j : Job) : Nat × Nat :=
  match j.kind with
  | .copy => ((ccard j.card).action, (ccard j.card).comp)
  | .matrix => ((mcard j.card).action, (mcard j.card).comp)
/-- The order key of a job's engine at a bank. -/
def Job.bankKey (j : Job) : Nat := if j.kind == .copy then 4 else 5

/-- COMPLETION_ACTION (R209): once device time has passed the completion time, the status is force-filled, or a barrier
arrival is made. The action of a job that an ended context leaves runs where its word can still be reached.
DESIGN CHOICE: log entry 82. -/
def execCompletionAction (job : Nat) (s : State) : Host.Outcome State Fault Refusal :=
  evPort "COMPLETION_ACTION" (match s.job job with
    | none => none
    | some j =>
      if j.phase != .complete || decide (s.time < j.ctime) || j.stalled then none
      else
        let ca := j.completion
        let alive := match s.context j.ctx with
          | some c => c.live
          | none => false
        if ca.1 == 0 || (!alive && aperture ca.2 != 0) then some (s.jobGone j)
        else match s.sideLoc j ca.2 (0, 0) 64 .write with
          | .error f => some (if alive then s.jobFault j f 5 else s.jobGone j)
          | .ok l =>
            if !s.engineTurn j.part j.cluster j.bankKey l.keys then none
            else some (((s.completeAt j ca.1 l).engineTook j.part j.cluster j.bankKey l.keys).jobGone j))

end Sys2Proof.Machine
end

