-- ==== Sys2Proof/Machine/Front.lean ====
section
/-! DEFINITION. Sys2Proof/Machine/Front.lean: the front's queues, contexts and task graph (R295 to R305): doorbells, node
records, the node table, dispatch of copy, marker and reserved nodes, completion. -/

namespace Sys2Proof.Machine

/-- What stops a read of the front or of a link engine: lost data, or a translation fault. -/
inductive ReadStop where
  | lost
  | fault (cause gpa va : Nat)
  deriving DecidableEq, Repr

namespace State

/-- A partition is served: bring-up is done and it is enabled (R249, R353). -/
def serving (s : State) (p : Nat) : Bool := s.pf.powered && s.pf.ready && (s.part p).enabled

/-! ### The front's memory accesses -/

/-- Keys of n guest physical bytes; none when stage 2 refuses one. -/
def gpKeys (s : State) (p gpa need : Nat) : Nat → Option (List Nat)
  | 0 => some []
  | n + 1 => match (s.part p).stage2 gpa need with
    | .error _ => none
    | .ok (hpa, _) => (s.gpKeys p (gpa + 1) need n).map (fun t => s.forward hpa :: t)

/-- n guest physical bytes; none when stage 2 refuses one, or one is lost (R348). -/
def gpRead (s : State) (p gpa n : Nat) : Option (List Byte) :=
  (s.gpKeys p gpa 1 n).bind (fun ks => if ks.any s.lostKey then none else some (ks.map s.mem.byte))

/-- Memory with bytes at keys. -/
def bytesAt (m : Memory) (keys : List Nat) (bytes : List Byte) : Memory := (keys.zip bytes).foldl (fun m kb => m.setByte kb.1 kb.2) m
/-- Writes bytes at keys at their homes. -/
def putAt (s : State) (u : HomeUse) (keys : List Nat) (bytes : List Byte) : State :=
  State.homeWrote { s with mem := bytesAt s.mem keys bytes } u keys []

/-- What a write of the front or of a link engine does beside the write itself: at the homes, in its turn, with the scans (R143, R229). -/
def frontWrote (s : State) (u : HomeUse) (keys words : List Nat) : State :=
  ((s.homeWrote u keys words).frontTook u.part keys).scanKeys (keys ++ words.map (8 * ·))

/-- Writes bytes at keys, as one step at their homes. -/
def putBytes (s : State) (u : HomeUse) (keys : List Nat) (bytes : List Byte) : State :=
  State.frontWrote { s with mem := bytesAt s.mem keys bytes } u keys []

/-- Keys of a virtual range of a context that the front reads; a fault names its address. -/
def frontKeys (s : State) (cid va : Nat) : Nat → Except ReadStop (List Nat)
  | 0 => .ok []
  | n + 1 => match s.jobXlat cid va .read with
    | .error f => .error (.fault f.1 f.2 va)
    | .ok k => match s.frontKeys cid (va + 1) n with
      | .error e => .error e
      | .ok t => .ok (k.1 :: t)

/-- Bytes of a virtual range of a context, read by the front at their homes. -/
def frontRead (s : State) (cid va n : Nat) : Except ReadStop (List Byte) :=
  match s.frontKeys cid va n with
  | .error e => .error e
  | .ok ks => if ks.any s.lostKey then .error .lost else .ok (ks.map s.mem.byte)

/-- What the front's reads of virtual ranges leave: the slices, the turns, and the translations that it keeps (R228, R229, R236). -/
def frontHas (s : State) (p cid : Nat) (rs : List (Nat × Nat)) : State :=
  let keys := (rs.map (fun r => match s.frontKeys cid r.1 r.2 with
    | .ok ks => ks
    | .error _ => [])).flatten
  (s.frontReads { part := p, ctx := some cid } keys).keepVas cid .read ((rs.filter (fun r => r.2 != 0)).map (fun r => [r.1, r.1 + r.2 - 1])).flatten

/-- A fault of the front's own access becomes a page request; the access is made again later (R244). -/
def frontFault (s : State) (cid : Nat) (f : Nat × Nat × Nat) (kind : Nat) : State := s.pageRequest cid f.2.2 f.1 f.2.1 kind

/-- A force-fill of the word at 8 keys, as one step (R141, R209). -/
def fillKeys (s : State) (u : HomeUse) (keys : List Nat) (v : Nat) : State :=
  State.frontWrote { s with mem := (bytesAt s.mem keys (bytesOfNat 8 v)).setFull (keys.headD 0 / 8) true } u keys [keys.headD 0 / 8]

/-- A force-fill of a global word by the front (R303). -/
def forceFill (s : State) (p cid va v : Nat) : Except (Nat × Nat × Nat) State :=
  let xs := (List.range 8).map (fun i => (va + i, s.jobXlat cid (va + i) .write))
  match xs.findSome? (fun x => match x.2 with
    | .error f => some (f.1, f.2, x.1)
    | .ok _ => none) with
  | some f => .error f
  | none =>
    let keys := xs.filterMap (fun x => match x.2 with
      | .ok k => some k.1
      | .error _ => none)
    .ok (s.fillKeys { part := p, ctx := some cid } keys v)

/-! ### Contexts (R296) -/

/-- The context a record names in a partition: an open one of the same identity, a new one, or one that is not live: a context
that has ended, or none where the record differs from the open one of its identifier. DEDUCED: log entry 56. -/
def openContext (s : State) (p : Nat) (rec : List Byte) : Option (State × Nat) :=
  let w := cardN rec 0 8
  let root := cardN rec 8 8
  let fq := cardN rec 24 8
  let size := cardN rec 20 4
  let asid := w % 65536
  let asidGen := w / 65536 % 16
  let ctxid := w / 2 ^ 20 % 2 ^ 28
  let gen := w / 2 ^ 48 % 16
  if w / 2 ^ 52 != 0 || root % 8192 != 0 || cardN rec 16 4 != 0 || fq % 64 != 0 || decide (size < 4) || decide (16 < size) then none
  else
    let fresh : Context :=
      { id := s.nextId, part := p, ctxid := ctxid, gen := gen, asid := asid, asidGen := asidGen, root := root
        fqBase := BitVec.ofNat 64 fq, fqSize := size, fqTail := 0, fatal := [], live := true, nextRequest := 0
        requests := [], checks := [] }
    match s.contexts.find? (fun c => c.part == p && c.ctxid == ctxid) with
    | none => some ({ s with contexts := s.contexts ++ [fresh] }.bump, s.nextId)
    | some c =>
      let same := c.gen == gen && c.asid == asid && c.asidGen == asidGen && c.root == root && c.fqBase.toNat == fq && c.fqSize == size
      if c.live then (if same then some (s, c.id) else some (s.bump, s.nextId))
      else if c.gen != gen then some (s, c.id)
      else
        let rest := s.contexts.filter (fun x => x.id != c.id)
        some ({ s with contexts := rest ++ [fresh] }.bump, s.nextId)

/-- Whether a context is live and, for a record, of the generation it names. -/
def liveContext (s : State) (cid : Nat) : Bool :=
  match s.context cid with
  | some c => c.live
  | none => false

end State

/-! ### Node records (R300) -/

structure NodeRec where
  kind : Nat
  prio : Nat
  deps : Nat
  id : Nat
  cq : Bool
  tag : Nat
  payload : Nat
  comp : Nat
  succ : List Nat
  mbz : Nat
  deriving DecidableEq, Repr

def nodeRec (b : List Byte) : NodeRec :=
  let w := cardN b 0 8
  { kind := w % 16, prio := w / 256 % 256, deps := w / 65536 % 4096, id := w / 2 ^ 28 % 4096, cq := w / 2 ^ 40 % 2 == 1
    tag := cardN b 24 8, payload := cardN b 32 8, comp := cardN b 40 8
    succ := (List.range 8).map (fun i => cardN b (48 + 2 * i) 2)
    mbz := w / 2 ^ 41 + w / 16 % 16 + cardN b 8 8 + cardN b 16 8 }

/-- A record that breaks R300. -/
def NodeRec.bad (r : NodeRec) : Bool :=
  r.mbz != 0 || r.comp % 8 != 0 || aperture r.comp != 0 || r.succ.any (fun x => decide (4096 ≤ x) && x != 65535)

/-- The status value of a node (R303). -/
def nodeStatus (result error det : Nat) : Nat := result % 2 ^ 32 * 2 ^ 32 + error * 2 ^ 24 + det * 256 + 32

namespace State

/-! ### The node table (R302, R304) -/

def nodeSlot (s : State) (p n : Nat) : NodeSlot :=
  ((s.part p).nodes.find? (fun x => x.n == n)).getD { n := n, counter := 0, poison := false, node := none }
def setSlot (s : State) (p : Nat) (x : NodeSlot) : State :=
  s.updPart p (fun pt => { pt with nodes := pt.nodes.filter (fun y => y.n != x.n) ++ [x] })
def node (s : State) (p n : Nat) : Option Node := (s.nodeSlot p n).node
def setNode (s : State) (p n : Nat) (d : Node) : State := s.setSlot p { s.nodeSlot p n with node := some d }

/-- A node becomes ready: a poisoned one completes with error 6, one whose context has ended with error 3 (R304). -/
def makeReady (s : State) (p n : Nat) : State :=
  let x := s.nodeSlot p n
  match x.node with
  | none => s
  | some d =>
    let ph : NodePhase := if x.poison then .ended 6 0 else if !s.liveContext d.ctx then .ended 3 0 else .ready
    s.setSlot p { x with counter := 0, node := some { d with phase := ph, readyAt := s.time, waitSince := s.time, aged := 0 } }

/-- Posts a node; none when its slot is busy. -/
def postNode (s : State) (p : Nat) (r : NodeRec) (cid : Nat) (queue : Option Nat) (prio : Nat) : Option State :=
  let x := s.nodeSlot p r.id
  match x.node with
  | some _ => none
  | none =>
    let d : Node :=
      { kind := r.kind, prio := prio, tag := BitVec.ofNat 64 r.tag, payload := BitVec.ofNat 64 r.payload
        caddr := BitVec.ofNat 64 r.comp, succ := r.succ.filter (fun y => y != 65535), cq := r.cq, queue := queue, ctx := cid
        phase := .posted, readyAt := 0, waitSince := 0, aged := 0, ctime := 0, det := 0 }
    let c := x.counter + (r.deps : Int)
    let s1 := s.setSlot p { x with counter := c, node := some d }
    some (if c ≤ 0 then s1.makeReady p r.id else s1)

/-- One successor's decrement, and its poison (R302, R304). -/
def decrement (s : State) (p : Nat) (poison : Bool) (n : Nat) : State :=
  let x := s.nodeSlot p n
  let c := max (x.counter - 1) (-4096)
  let s1 := s.setSlot p { x with counter := c, poison := x.poison || poison }
  match x.node with
  | some d => if d.phase == .posted && c == 0 then s1.makeReady p n else s1
  | none => s1

/-! ### Completion rings (R297, R303) -/

def queueOf (s : State) (p q : Nat) : Queue := (s.part p).queues.getD q .zero
def setQueue (s : State) (p q : Nat) (x : Queue) : State := s.updPart p (fun pt => { pt with queues := pt.queues.set q x })
def Queue.sqLog (q : Queue) : Nat := q.size.toNat % 16
def Queue.cqLog (q : Queue) : Nat := q.size.toNat / 256 % 16
def Queue.on (q : Queue) : Bool := q.size.getLsbD 31

/-- Room for an entry: CQTAIL + 1 ≠ CQHEAD. -/
def cqRoom (s : State) (p q : Nat) : Bool :=
  let x := s.queueOf p q
  (x.cqtail + 1) % 2 ^ Queue.cqLog x != x.cqhead

/-- Writes a completion entry at CQTAIL with the ring's phase in bit 6. -/
def cqPush (s : State) (p q status tag : Nat) : State :=
  let x := s.queueOf p q
  let entry := bytesOfNat 8 (status + (if x.phase then 64 else 0)) ++ bytesOfNat 8 tag
  let s1 := match s.gpKeys p (x.cqbase.toNat + 16 * x.cqtail) 2 16 with
    | some ks => s.putBytes { part := p } ks entry
    | none => s
  let t := (x.cqtail + 1) % 2 ^ Queue.cqLog x
  s1.setQueue p q { x with cqtail := t, phase := if t == 0 then !x.phase else x.phase }

/-! ### Posting (R297, R302, R305) -/

/-- Posts the submission entry at SQHEAD of an enabled queue; none when there is none or its refusal must wait. An entry or a context
record of lost data breaks its rules, and the tag of a lost entry is a free value. DESIGN CHOICE: log entry 79. -/
def postSubmission (s0 : State) (p q : Nat) : Option State :=
  let x := s0.queueOf p q
  if !Queue.on x || x.sqhead == x.sqtail then none
  else match s0.gpKeys p (x.base.toNat + 64 * x.sqhead) 1 64 with
    | none => none
    | some ks =>
      let cks := (s0.gpKeys p x.ctx.toNat 1 32).getD []
      let s := s0.frontReads { part := p } (ks ++ cks)
      let s1 := s.setQueue p q { x with sqhead := (x.sqhead + 1) % 2 ^ Queue.sqLog x }
      let refuse : State → Nat → Nat → Option State := fun s e tag =>
        if s.cqRoom p q then some (s.cqPush p q (nodeStatus 0 e 0) tag) else none
      if ks.any s0.lostKey then let f := s1.pick (2 ^ 64); refuse f.2.countLost 2 f.1
      else
        let r := nodeRec (ks.map s0.mem.byte)
        match (s0.gpRead p x.ctx.toNat 32).bind (s1.openContext p) with
        | none => refuse (if cks.any s0.lostKey then s1.countLost else s1) 2 r.tag
        | some (s2, cid) =>
          if r.bad then refuse s1 2 r.tag
          else match s2.postNode p r cid (some q) r.prio with
            | some s3 => some s3
            | none =>
              -- the slot is busy: error 9
              if r.cq && !s.cqRoom p q then none
              else
                let s3 := if r.cq then s2.cqPush p q (nodeStatus 0 9 0) r.tag else s2
                if r.comp == 0 then some s3
                else match s3.forceFill p cid r.comp (nodeStatus 0 9 0) with
                  | .ok s4 => some s4
                  | .error f => some (if s2.liveContext cid then s.frontFault cid f 1 else s3)

/-- TGPOST in the intake: the result its fibre receives, once the front handles it (R305). -/
def postIntake (s : State) (p : Nat) : Option State :=
  match (s.part p).intake with
  | [] => none
  | (b, aid) :: rest =>
    let s1 := s.updPart p (fun pt => { pt with intake := rest })
    match s.access aid with
    | none => some s1
    | some a => match s.gang a.gang with
      | none => some s1
      | some g =>
        let r := nodeRec b
        match s1.postNode p r g.ctx none (min r.prio g.prio) with
        | some s2 => some ((s2.dropAccess aid).returns a [(a.dst, 0)])
        | none => some ((s1.dropAccess aid).returns a [(a.dst, 1)])

/-! ### Dispatch (R301) -/

/-- The virtual ranges that the dispatch of a node reads: its payload, and what that names: a launch's kernel descriptor, groups, safe
points and their packets (R306, R39 to R41), or a reduce's member table (R370). -/
def payloadRanges (s : State) (d : Node) : List (Nat × Nat) :=
  let a := d.payload.toNat
  let rd : Nat → Nat → List Byte := fun va n => match s.frontRead d.ctx va n with
    | .ok b => b
    | .error _ => []
  match d.kind with
  | 0 =>
    let b := rd a 80
    let k := rd (cardN b 16 8) 40
    let safe := 16 * cardN k 28 4
    let es := rd (cardN b 32 8) safe
    if b.isEmpty then [(a, 80)]
    else [(a, 80), (cardN b 16 8, 40), (cardN b 16 8 + 40, 8 * cardN k 18 2), (cardN b 32 8, safe)]
      ++ (List.range (es.length / 16)).map (fun i => (cardN b 24 8 + 12 * cardN es (16 * i) 4, 12))
  | 1 => [(a, 128)]
  | 2 => [(a, 16)]
  | 3 => let b := rd a 128; (a, 128) :: (if cardN b 0 8 % 16 == 2 then [(cardN b 56 8, 64)] else [])
  | 4 => [(a, 64)]
  | _ => []

/-- A ready node of a kind, dispatched by `f` from what its payload says; one whose context has ended completes with error 3. -/
def dispatch (s : State) (p n : Nat) (kind : Nat → Bool) (f : State → Node → Option State) : Option State :=
  if !s.serving p then none
  else match s.node p n with
    | none => none
    | some d =>
      if d.phase != .ready || !kind d.kind then none
      else if !s.liveContext d.ctx then some (s.setNode p n { d with phase := .ended 3 0 })
      else (f s d).map (fun t => t.frontHas p d.ctx (s.payloadRanges d))

/-- A node's work ends. -/
def endNode (s : State) (p n error result : Nat) : State :=
  match s.node p n with
  | some d => s.setNode p n { d with phase := .ended error result }
  | none => s

/-- What stops the front's read of a node's payload: a fault is answered first; lost data end the node with `err`.
DESIGN CHOICE: log entry 79. -/
def payloadStop (s : State) (p n : Nat) (d : Node) (err kind : Nat) : ReadStop → State
  | .lost => s.countLost.endNode p n err 0
  | .fault cause gpa va => s.frontFault d.ctx (cause, gpa, va) kind

/-- Copy jobs on a cluster. -/
def copyLoad (s : State) (cl : Nat) : Nat := (s.entries .copy cl).length

/-- The partition's cluster with the fewest queued copy jobs, lowest number first. -/
def leastLoaded (s : State) (p : Nat) : Option Nat :=
  match s.clustersOf p with
  | [] => none
  | k :: t => some (t.foldl (fun b x => if s.copyLoad x < s.copyLoad b then x else b) k)

/-- A kind-1 node: its card is read and checked, and one job is posted. DEDUCED: log entry 58. -/
def dispatchCopy (s : State) (p n : Nat) (d : Node) : Option State :=
  if d.payload.toNat % 128 != 0 || aperture d.payload.toNat != 0 then some (s.endNode p n 2 0)
  else match s.frontRead d.ctx d.payload.toNat 128 with
    | .error f => some (s.payloadStop p n d 2 4 f)
    | .ok card =>
      let df := s.copyData none 0 d.ctx card
      if s.ccardBad none 0 d.ctx card || df.1.meets df.2 then some (s.endNode p n 2 0)
      else match s.leastLoaded p with
        | none => none
        | some cl =>
          if Config.copyMax ≤ s.copyLoad cl then none
          else
            let j : Job :=
              { id := s.nextId, kind := .copy, cluster := cl, part := p, ctx := d.ctx, gang := none, node := some n
                fibre := none, wg := 0, prio := d.prio, card := card, phase := .queued, pos := 0, fetched := 0
                stalled := false, sat := 0, flags := 0, error := 0, ctime := 0, since := (s.cluster cl).cycle, raised := none }
            some ({ s with jobs := s.jobs ++ [j] }.bump.setNode p n { d with phase := .dispatched })

/-! ### Completion (R303) -/

/-- Steps 2 to 4 of a node whose work has ended: not before its writes have their completion times behind them and the host sees
those to its memory. The word of an ended context's node is filled where it can still be reached. DESIGN CHOICE: log entry 82. -/
def completeNode (s : State) (p n : Nat) (d : Node) (error result : Nat) : Option State :=
  let st := nodeStatus result error d.det
  if decide (s.time < d.ctime) || !s.hostSeen p n then none
  else match d.cq, d.queue with
    | true, some q =>
      if !s.cqRoom p q then none
      else (fill st).map (fun s1 => free (s1.cqPush p q st d.tag.toNat))
    | _, _ => (fill st).map free
where
  /-- Step 3: the completion word. -/
  fill (st : Nat) : Option State :=
    if d.caddr == 0 then some s
    else match s.forceFill p d.ctx d.caddr.toNat st with
      | .ok s1 => some s1
      | .error _ => if s.liveContext d.ctx then none else some s
  /-- Step 4: successors, then the slot is free. -/
  free (s1 : State) : State :=
    let s2 := d.succ.foldl (fun s x => s.decrement p (error != 0) x) s1
    s2.setSlot p { n := n, counter := 0, poison := false, node := none }

/-- The fault a node's completion word meets, if any. -/
def completionFault (s : State) (p : Nat) (d : Node) : Option (Nat × Nat × Nat) :=
  if d.caddr == 0 || !s.liveContext d.ctx then none
  else match s.forceFill p d.ctx d.caddr.toNat 0 with
    | .ok _ => none
    | .error f => some f

end State

/-- SQTAIL (R297): the doorbell; the front then reads and posts up to the new tail. A value that is no index of the ring changes nothing, at
CQHEAD too. DESIGN CHOICE: log entry 79. -/
def execSqtail (part q : Nat) (v : DWord) (s : State) : Host.Outcome State Fault Refusal :=
  ev "SQTAIL" <| s.vfWrite (if decide (part < Config.partitions) && decide (q < 8) then
    let x := s.queueOf part q
    some (if v.toNat < 2 ^ State.Queue.sqLog x then s.setQueue part q { x with sqtail := v.toNat } else s)
  else none)

/-- CQHEAD (R297): the host frees room in the completion ring. -/
def execCqhead (part q : Nat) (v : DWord) (s : State) : Host.Outcome State Fault Refusal :=
  ev "CQHEAD" <| s.vfWrite (if decide (part < Config.partitions) && decide (q < 8) then
    let x := s.queueOf part q
    some (if v.toNat < 2 ^ State.Queue.cqLog x then s.setQueue part q { x with cqhead := v.toNat } else s)
  else none)

/-- QSIZE (R295): ring sizes and enable; an enable whose rings fail stage 2 leaves the enable bit 0. DEDUCED: log entry 36. A write
with nonzero must-be-zero bits or a ring too small while the queue is off changes nothing. DESIGN CHOICE: log entry 79. -/
def execQsize (part q : Nat) (v : DWord) (s : State) : Host.Outcome State Fault Refusal :=
  ev "QSIZE" <| s.vfWrite (if decide (part < Config.partitions) && decide (q < 8) then
    let x := s.queueOf part q
    let w := v.toNat
    let sq := w % 16
    let cq := w / 256 % 16
    let mbz := w - (sq + 256 * cq + (if v.getLsbD 31 then 2 ^ 31 else 0))
    if State.Queue.on x then
      -- only the enable bit may change while it is 1
      some (if !v.getLsbD 31 then s.setQueue part q { x with size := v &&& 0xF0F } else s)
    else if mbz != 0 || decide (sq < 4) || decide (cq < 4) then some s
    else if !v.getLsbD 31 then some (s.setQueue part q { x with size := v })
    else
      let ok := (s.gpKeys part x.base.toNat 1 (64 * 2 ^ sq)).isSome && (s.gpKeys part x.cqbase.toNat 2 (16 * 2 ^ cq)).isSome
        && x.base.toNat % 64 == 0 && x.cqbase.toNat % 16 == 0
      some (if ok then s.setQueue part q { x with size := v, sqtail := 0, sqhead := 0, cqhead := 0, cqtail := 0, phase := true }
        else s.setQueue part q { x with size := v &&& 0xF0F })
  else none)

/-- NODE_POST (R302): the next record of a queue, or of the partition's intake (q = 8), is posted or refused. -/
def execNodePost (part q : Nat) (s : State) : Host.Outcome State Fault Refusal :=
  evPort "NODE_POST" (if !s.serving part then none
    else if q < 8 then s.postSubmission part q else if q == 8 then s.postIntake part else none)

/-- NODE_COPY (R301): a ready copy node goes to the least-loaded copy engine of the partition. -/
def execNodeCopy (part node : Nat) (s : State) : Host.Outcome State Fault Refusal :=
  evPort "NODE_COPY" (s.dispatch part node (· == 1) (fun s d => s.dispatchCopy part node d))

/-- NODE_MARKER (R301): a ready marker node completes when dispatched. -/
def execNodeMarker (part node : Nat) (s : State) : Host.Outcome State Fault Refusal :=
  evPort "NODE_MARKER" (s.dispatch part node (· == 6) (fun s d => some (s.endNode part node (if d.payload == 0 then 0 else 2) 0)))

/-- NODE_RESERVED_KIND (R301): a node of a reserved kind completes at once with error 2. -/
def execNodeReservedKind (part node : Nat) (s : State) : Host.Outcome State Fault Refusal :=
  evPort "NODE_RESERVED_KIND" (s.dispatch part node (fun k => decide (7 ≤ k)) (fun s _ => some (s.endNode part node 2 0)))

/-- PRIORITY_AGING (R308): each further millisecond of waiting raises a launch node's effective priority by one. -/
def execPriorityAging (part node : Nat) (s : State) : Host.Outcome State Fault Refusal :=
  ev "PRIORITY_AGING" (match s.node part node with
    | none => none
    | some d =>
      if d.kind == 0 && d.phase == .dispatched && decide (d.waitSince + 1000000 * (d.aged + 1) ≤ s.time) && decide (d.prio + d.aged < 255) then
        some (s.setNode part node { d with aged := d.aged + 1 })
      else none)

end Sys2Proof.Machine
end

