-- ==== Sys2Proof/Machine/Layers.lean ====
section
/-! DEFINITION. Sys2Proof/Machine/Layers.lean: references valid for a context (R330), residency words (R328), the end of a
launch's holds (R332), the start of a swap-in (R333). -/

namespace Sys2Proof.Machine

namespace State

/-- A reference valid for a context (R330). -/
def refValid (s : State) (p cid : Nat) (r : DWord) : Bool :=
  let m := s.modelRec p (refModel r)
  r.extractLsb' 28 36 == 0 && r.extractLsb' 12 6 == 0 && m.enabled && m.gen == refGen r && decide (refLayer r < m.layers)
    && (match s.context cid with
      | some c => c.part == p && c.live && BitVec.ofNat 64 c.ctxidWord.toNat == m.context
      | none => false)

/-- The residency word's place, its value, and whether the layer is resident (R328). -/
def residencyLoc (s : State) (p m l : Nat) : Loc := .ofBytes (s.layerKey p m l) 8 0
def residency (s : State) (p m l : Nat) : DWord := BitVec.ofNat 64 (s.mem.read (s.layerKey p m l) 8)
def resident (s : State) (p m l : Nat) : Bool := (s.residencyLoc p m l).full s.mem

/-- Writes the residency word's data. -/
def setResidency (s : State) (p m l : Nat) (v : DWord) : State :=
  { s with mem := s.mem.write (s.layerKey p m l) 8 v.toNat }.homeWrote { part := p } ((List.range 8).map (fun i => s.layerKey p m l + i)) []

/-- What a completed launch still holds is taken back (R332, R303 step 1). -/
def dropHolds (s : State) (lid : Nat) : State :=
  match s.launch lid with
  | none => s
  | some l => (l.holds.foldl (fun s h => (List.range h.2.2).foldl (fun s _ => s.addHold l.part h.1 h.2.1 false) s) s).setLaunch
      { l with holds := [] }

/-- A swap-in of a layer begins: it takes its place in the partition's order (R333). -/
def startSwap (s : State) (p m l : Nat) (nodes : List Nat) : State :=
  let w : Swap := { id := s.nextId, model := m, layer := l, nodes := nodes, stage := 0, frames := [], ctime := 0, cause := 0 }
  (s.updPart p (fun x => { x with swaps := x.swaps ++ [w] })).bump

end State

end Sys2Proof.Machine
end

