-- ==== Sys2Proof/Machine/Launch.lean ====
section
/-! DEFINITION. Sys2Proof/Machine/Launch.lean: launches (R39 to R41, R167, R306, R307), gang placement (R308 to R310),
pre-emption and restore (R173, R178, R311 to R313), CARVE taking effect (R134), the deque (R169), deterministic rounds and
the carillon (R314, R318). -/

namespace Sys2Proof.Machine

/-! ### The launch record and the kernel descriptor (R306, R39) -/

structure LaunchRec where
  args : List Word
  handler : Nat
  safePoints : Nat
  code : Nat
  kernel : Nat
  gangs : Nat
  slots : Nat
  live : Nat
  mbz : Nat
  deriving DecidableEq, Repr

def launchRec (b : List Byte) : LaunchRec :=
  { args := (List.range 8).map (fun i => BitVec.ofNat 32 (cardN b (48 + 4 * i) 4)), handler := cardN b 40 8
    safePoints := cardN b 32 8, code := cardN b 24 8, kernel := cardN b 16 8, gangs := cardN b 12 4, slots := cardN b 10 2
    live := cardN b 8 2, mbz := cardN b 0 8 }

structure KernelDesc where
  safeCount : Nat
  groupCount : Nat
  flags : Nat
  signs : Nat
  accum : Nat
  gang : Nat
  regs : Nat
  scratch : Nat
  packets : Nat
  entry : Nat
  mbz : Nat
  deriving DecidableEq, Repr

def kernelDesc (b : List Byte) : KernelDesc :=
  { safeCount := cardN b 28 4, groupCount := cardN b 18 2, flags := cardN b 16 1, signs := cardN b 15 1, accum := cardN b 14 1
    gang := cardN b 13 1, regs := cardN b 12 1, scratch := cardN b 8 4, packets := cardN b 4 4, entry := cardN b 0 4
    mbz := cardN b 36 4 + cardN b 17 1 }

def KernelDesc.forkable (k : KernelDesc) : Bool := k.flags % 2 == 1
def KernelDesc.det (k : KernelDesc) : Bool := k.flags / 2 % 2 == 1

/-- The descriptor breaks R39, with the operand limits of R37. DEDUCED: log entry 60. -/
def KernelDesc.bad (k : KernelDesc) : Bool :=
  k.mbz != 0 || decide (4 ≤ k.flags) || decide (32 < k.signs) || decide (8 < k.accum) || decide (k.gang < 1) || decide (4 < k.gang)
    || decide (k.regs < 8) || decide (64 < k.regs) || k.regs % 8 != 0 || decide (256 < k.groupCount)
    || decide (458752 < k.scratch) || k.scratch % 256 != 0

/-- The record breaks R306, or has fewer live fibres than slots without .forkable (R307). -/
def LaunchRec.bad (r : LaunchRec) (k : KernelDesc) : Bool :=
  r.mbz != 0 || decide (r.live < 1) || decide (r.slots < r.live) || decide (1024 < r.slots) || decide (r.gangs < 1)
    || r.code % 4096 != 0 || r.safePoints % 8 != 0 || (decide (r.live < r.slots) && !k.forkable)
    || (r.handler != 0 && (decide (r.handler < r.code) || (r.handler - r.code) % 12 != 0))

/-- The first index of workgroup w's fibres (R74). -/
def wgFirst (slots w : Nat) : Nat := w * (Config.width * ((slots + Config.width - 1) / Config.width))
/-- An index that names a fibre slot of the gang. -/
def slotExists (gang slots f : Nat) : Bool :=
  (List.range gang).any (fun w => decide (wgFirst slots w ≤ f) && decide (f < wgFirst slots w + slots))
/-- Membership of a fibre in a group entry: id, first, count, stride (R167). -/
def groupHas (e : Nat × Nat × Nat × Nat) (f : Nat) : Bool :=
  decide (e.2.1 ≤ f) && (f - e.2.1) % e.2.2.2 == 0 && decide ((f - e.2.1) / e.2.2.2 < e.2.2.1)

/-- Group entries of a launch. -/
def groupEntries (b : List Byte) (n : Nat) : List (Nat × Nat × Nat × Nat) :=
  (List.range n).map (fun i => (cardN b (8 * i) 1, cardN b (8 * i + 2) 2, cardN b (8 * i + 4) 2, cardN b (8 * i + 6) 2))
/-- The entries break R167 or R40, or hold a nonzero must-be-zero byte. DESIGN CHOICE: log entry 79. -/
def groupsBad (b : List Byte) (n gang slots : Nat) : Bool :=
  let es := groupEntries b n
  (List.range n).any (fun i => cardN b (8 * i + 1) 1 != 0)
    || es.any (fun e => decide (4095 < e.2.1) || decide (e.2.2.1 < 1) || decide (4096 < e.2.2.1) || decide (e.2.2.2 < 1)
      || decide (4095 < e.2.2.2)
      || (List.range e.2.2.1).any (fun i => !slotExists gang slots (e.2.1 + i * e.2.2.2)))
    || (es.map (·.1)).dedup.length != es.length
    || (List.range (wgFirst slots gang)).any (fun f => decide (4 < (es.filter (fun e => groupHas e f)).length))

/-- Strictly ascending safe points. -/
def safeAscending : List (Nat × Nat) → Bool
  | a :: b :: t => decide (3 * a.1 + a.2 < 3 * b.1 + b.2) && safeAscending (b :: t)
  | _ => true

/-- Slot n of a packet's words holds a literal (R20). -/
def slotIsLiteral (ws : List Word) (n : Nat) : Bool :=
  let own : Nat → Bool := fun i => ownsLiteral (ws.getD i 0)
  match n with
  | 0 => false
  | 1 => own 0
  | _ => own 1 && !own 0

namespace State

/-- Safe points of a launch; an entry that breaks R41 makes the launch fail. -/
def safeBad (s : State) (cid : Nat) (b : List Byte) (n code entry packets : Nat) : Except ReadStop Bool :=
  let es := (List.range n).map (fun i => (cardN b (16 * i) 4, cardN b (16 * i + 4) 1))
  let shape := (List.range n).any (fun i => cardN b (16 * i + 5) 1 != 0 || decide (4096 ≤ cardN b (16 * i + 6) 2)
      || decide (2 < cardN b (16 * i + 4) 1))
    || !safeAscending es || es.any (fun e => decide (e.1 < entry) || decide (entry + packets ≤ e.1))
  if shape then .ok true
  else es.foldl (fun acc e => match acc with
    | .error f => .error f
    | .ok true => .ok true
    | .ok false => match s.frontRead cid (code + 12 * e.1) 12 with
      | .error f => .error f
      | .ok ws => .ok (slotIsLiteral ((List.range 3).map (fun i => BitVec.ofNat 32 (cardN ws (4 * i) 4))) e.2)) (.ok false)

/-! ### Occupancy and fit (R309) -/

/-- Every fibre of a gang has ended, its deques are empty, and its accesses, side-log entries and jobs are gone
(R303 step 1). -/
def gangDone (s : State) (g : Gang) : Bool :=
  (g.phase == .ended || (g.phase == .resident && (s.liveOf g.id).isEmpty
    && (!g.forkable || (List.range g.size).all (fun w => (s.core (g.core w)).dqCount == 0))
    && !s.accesses.any (fun a => a.gang == g.id) && !s.sideLog.any (fun e => e.acc.gang == g.id)))
  && !s.jobs.any (fun j => j.gang == some g.id) && !s.linkJobs.any (fun j => j.gang == some g.id)

/-- A launch's gang that still waits for a place. -/
def stillWaits (s : State) (w : Nat × Nat) : Bool :=
  s.launches.any (fun l => l.id == w.1 && (l.error == 0 || l.error == 8) && (decide (l.next ≤ w.2)
    || s.gangs.any (fun g => g.launch == l.id && g.index == w.2 && g.phase == .saved)))
/-- What a gang freed is still reserved for a gang other than `me` (R311). -/
def reservedFrom (s : State) (me : Nat × Nat) (g : Gang) : Bool := g.reservedFor.any (fun w => w != me && s.stillWaits w)

/-- Gangs that occupy a place: resident ones, and those whose place is reserved for another than `me`, where they were before they
were placed again too (R311). -/
def occupying (s : State) (me : Nat × Nat) : List Gang :=
  s.gangs.filter (fun g => match g.phase with
    | .waiting => false
    | .ended => false
    | .saved => s.reservedFrom me g
    | .resident => !s.gangDone g
    | _ => true) ++ (s.reserves.map (·.gang)).filter (s.reservedFrom me)

/-- A gang that is done gives its place away, so that a gang placed there is the only one (R169, R309). -/
def retireDone (s : State) : State :=
  { s with gangs := s.gangs.map (fun g => if g.phase == .resident && s.gangDone g then { g with phase := .ended } else g) }

/-- Gangs of a list with a workgroup on a core, and that workgroup. -/
def onCore (gs : List Gang) (c : Nat) : List (Gang × Nat) :=
  gs.filterMap (fun g => if g.cluster == c / 4 && decide (g.base ≤ c % 4) && decide (c % 4 < g.base + g.size)
    then some (g, c % 4 - g.base) else none)

/-- The lowest base of a free gap of `len` in [0, limit), beside allocations (base, length). DESIGN CHOICE: log entry 61. -/
def gap (limit len : Nat) (as : List (Nat × Nat)) : Option Nat :=
  let ok : Nat → Bool := fun b => decide (b + len ≤ limit) && as.all (fun a => decide (b + len ≤ a.1) || decide (a.1 + a.2 ≤ b) || a.2 == 0)
  if len == 0 then some 0
  else ((0 :: as.map (fun a => a.1 + a.2)).filter ok).foldl (fun m b => match m with
    | none => some b
    | some x => some (min x b)) none

/-- The scratch base a workgroup of g gets on a core. -/
def scratchGap (s : State) (g : Gang) (gs : List Gang) (c : Nat) : Option Nat :=
  gap ((s.core c).carve * 65536) g.scratch ((onCore gs c).map (fun x => (x.1.scratchBase.getD x.2 0, x.1.scratch)))

/-- Whether a workgroup of g fits on core c beside the gangs `gs`. -/
def coreFits (s : State) (g : Gang) (gs : List Gang) (c : Nat) : Bool :=
  let here := (onCore gs c).map (·.1)
  decide (here.foldl (fun n x => n + x.slots) 0 + g.slots ≤ Config.coreFibres)
    && decide (here.foldl (fun n x => n + x.slots * x.regs) 0 + g.slots * g.regs ≤ Config.coreRegs)
    && (s.core c).pendCarve.isNone && (s.scratchGap g gs c).isSome && (!g.forkable || here.all (fun x => !x.forkable))

/-- Whether g fits at base core b of cluster k beside `gs`. -/
def fitsAt (s : State) (g : Gang) (gs : List Gang) (k b : Nat) : Bool :=
  let here := gs.filter (fun x => x.cluster == k)
  decide (b + g.size ≤ 4) && (List.range g.size).all (fun w => s.coreFits g gs (4 * k + b + w))
    && decide (here.foldl (fun n x => n + x.accum) 0 + g.accum ≤ 8)
    && decide (here.foldl (fun n x => n + x.signCount) 0 + g.signCount ≤ 32)

/-- The lowest fitting base of a cluster. -/
def fitsOn (s : State) (g : Gang) (gs : List Gang) (k : Nat) : Option Nat := (List.range 4).find? (fun b => s.fitsAt g gs k b)

/-- A gang would fit on a cluster that is empty (a pending CARVE takes effect there). -/
def fitsEmpty (s : State) (g : Gang) (k : Nat) : Bool :=
  let clear : CoreSt → CoreSt := fun x => { x with carve := x.pendCarve.getD x.carve, pendCarve := none }
  let cs := s.cores.mapIdx (fun c x => if c / 4 == k then clear x else x)
  (State.fitsOn { s with cores := cs } g [] k).isSome

/-- The first fitting place of a partition outside the clusters `out`: cluster, base. -/
def placeFor (s : State) (p : Nat) (g : Gang) (me : Nat × Nat) (out : List Nat) : Option (Nat × Nat) :=
  let gs := s.occupying me
  ((s.clustersOf p).filter (fun k => !out.contains k)).findSome? (fun k => (s.fitsOn g gs k).map (fun b => (k, b)))

/-! ### Ready order (R308, R310) -/

/-- What waits for a place: node, its launch, and the gang: a saved one, or the next unplaced. -/
structure Waiting where
  node : Nat
  launch : Launch
  gang : Gang

/-- The launch and the index of the gang: whom a reservation is for. -/
def Waiting.me (w : Waiting) : Nat × Nat := (w.launch.id, w.gang.index)

/-- The effective priority of a node that waits: one more for every millisecond of waiting (R308). -/
def effective (s : State) (d : Node) : Nat := min 255 (d.prio + max d.aged ((s.time - d.waitSince) / 1000000))

/-- The first gang of a launch that waits for a place. -/
def firstWaiting (s : State) (l : Launch) : Option Gang :=
  let saved := s.gangs.filter (fun g => g.launch == l.id && g.phase == .saved)
  let low := saved.foldl (fun (m : Option Gang) g => match m with
    | none => some g
    | some x => some (if g.index < x.index then g else x)) none
  match low with
  | some g => if g.index < l.next || l.next == l.gangCount then some g else some { l.proto with index := l.next }
  | none => if l.next < l.gangCount then some { l.proto with index := l.next } else none

/-- The waiting gangs of a partition in ready order. -/
def waiting (s : State) (p : Nat) : List Waiting :=
  let all := (s.part p).nodes.filterMap (fun x => match x.node with
    | none => none
    | some d =>
      if d.kind == 0 && d.phase == .dispatched then
        match s.launches.find? (fun l => l.part == p && l.node == x.n) with
        | none => none
        | some l => if l.error != 0 && l.error != 8 then none
          else (s.firstWaiting l).map (fun g => (([255 - s.effective d, d.readyAt, d.queue.getD 8, x.n] : List Nat), (⟨x.n, l, g⟩ : Waiting)))
      else none)
  let ins : (List Nat × Waiting) → List (List Nat × Waiting) → List (List Nat × Waiting) := fun a l =>
    (l.takeWhile (fun b => !keyLe a.1 b.1)) ++ [a] ++ (l.dropWhile (fun b => !keyLe a.1 b.1))
  (all.foldr ins []).map (·.2)

/-- The clusters on which a gang would fit if they were empty (R310). -/
def clusterSet (s : State) (p : Nat) (g : Gang) : List Nat := (s.clustersOf p).filter (fun k => s.fitsEmpty g k)

/-- The next placement of a partition: what is placed, cluster, base. -/
def nextPlacement (s : State) (p : Nat) : Option (Waiting × Nat × Nat) :=
  match s.waiting p with
  | [] => none
  | w :: rest =>
    match s.placeFor p w.gang w.me [] with
    | some kb => some (w, kb.1, kb.2)
    | none =>
      let out := s.clusterSet p w.gang
      rest.findSome? (fun x => (s.placeFor p x.gang x.me out).map (fun kb => (x, kb.1, kb.2)))

/-! ### Placing a gang -/

/-- The register-file base that a workgroup of a gang has. -/
def basesOf (s : State) (gid wg : Nat) : Nat :=
  ((s.fibres.filter (fun f => f.gang == gid && f.wg == wg)).map (fun f => f.ctl.wbase)).foldl min Config.coreRegs

/-- The register-file base of a workgroup's windows on a core. -/
def windowBase (s : State) (g : Gang) (gs : List Gang) (c : Nat) : Nat :=
  (gap Config.coreRegs (g.slots * g.regs) ((onCore gs c).map (fun x =>
    (match s.reserves.find? (fun r => r.gang.id == x.1.id) with
      | some r => r.bases.getD x.2 0
      | none => s.basesOf x.1.id x.2, x.1.slots * x.1.regs)))).getD 0

/-- What every place gives a gang: its cores, scratch, banks and sign registers. -/
def seat (s : State) (g : Gang) (gs : List Gang) (k b : Nat) : Gang :=
  { g with
    phase := .resident, cluster := k, base := b, placedAt := s.time
    scratchBase := (List.range g.size).map (fun w => (s.scratchGap g gs (4 * k + b + w)).getD 0)
    bankBusy := List.replicate g.accum 0, reservedFor := none }

/-- The front clears a gang's scratch to zero with every word full (R136). -/
def clearScratch (s : State) (g : Gang) : State :=
  (List.range g.size).foldl (fun s w =>
    let lo := scratchKey (g.core w) (g.scratchBase.getD w 0)
    let hi := lo + g.scratch
    { s with mem := s.mem.clearRange lo hi
             sram := s.sram.filter (fun e => match e with
               | .scratch x => decide (x < lo / 8) || decide (hi / 8 ≤ x)
               | _ => true) }) s

/-- Bands of a gang's fibres: one per crew (R75). -/
def bandCrews (s : State) (ks : List Nat) : State :=
  ((ks.map (fun k => (s.fibre k).crew)).dedup).foldl (fun s cr => s.bandsByPc (ks.filter (fun k => (s.fibre k).crew == cr)) .none) s

/-- The fibres of a gang that is placed for the first time: slot j of workgroup wg (R68, R74, R306). -/
def newFibres (s : State) (g : Gang) (gs : List Gang) (entry born : Nat) : List Fibre :=
  ((List.range g.size).map (fun wg =>
    let wb := s.windowBase g gs (g.core wg)
    (List.range g.slots).map (fun j =>
      let live := decide (j < g.liveCount)
      { gang := g.id, idx := wgFirst g.slots wg + j, wg := wg, live := live, used := live
        regs := (if live then g.args else List.replicate 8 0) ++ List.replicate (g.regs - 8) 0, preds := 0
        ctl := .created (g.codeBase + BitVec.ofNat 64 (12 * entry)) 0 (wb + j * g.regs) (born + wg * g.slots + j) }))).flatten

/-- The rotation pointer of each core of a deterministic gang names the last band of its turn order (R322). -/
def pointTurns (s : State) (g : Gang) (live : List Fibre) : State :=
  if !g.det then s
  else (List.range g.size).foldl (fun s w =>
    let here := live.filter (fun f => f.wg == w)
    let crew := here.foldl (fun m f => max m f.crew) 0
    let lane := ((here.filter (fun f => f.crew == crew)).map (·.lane)).foldl min 63
    s.updCore (g.core w) (fun x => { x with rotCrew := crew, rotLane := lane })) s

/-- The gangs and reservations once a gang takes the place that others left for it; what the gang itself left stays reserved for the
gang it was pre-empted for (R311). -/
def takePlace (s0 : State) (w : Waiting) : State :=
  let s := s0.retireDone
  let mine : Gang → Bool := fun g => g.reservedFor == some w.me
  let left : List Reserve := if s.reservedFrom w.me w.gang then
      [{ gang := { w.gang with id := s.nextId, banks := [], signs := [], staged := [], stagedPosts := [] }
         bases := (List.range w.gang.size).map (s.basesOf w.gang.id) }]
    else []
  let rs := s.reserves.filter (fun r => !mine r.gang && r.gang.reservedFor.any s.stillWaits) ++ left
  { s with gangs := s.gangs.map (fun g => if mine g then { g with reservedFor := none } else g), reserves := rs, nextId := s.nextId + left.length }

/-- Places a gang for the first time (R68, R169, R210, R306). -/
def placeNew (s0 : State) (w : Waiting) (k b : Nat) : State :=
  let gs := s0.occupying w.me
  let s := s0.takePlace w
  let l := w.launch
  let g0 := s0.seat { w.gang with id := s.nextId, launch := l.id } gs k b
  let g := { g0 with banks := List.replicate g0.accum (List.replicate 4096 0)
                     signs := List.replicate g0.signCount SignReg.zero
                     turns := (List.range g0.size).map g0.core }
  let fs := s0.newFibres g gs l.entry s.nextId
  let first := s.fibres.length
  let s1 := { s with gangs := s.gangs ++ [g], fibres := s.fibres ++ fs, nextId := s.nextId + fs.length + 1 }
  let s2 := s1.setLaunch { l with next := l.next + 1 }
  let s3 := (s2.clearDeques g).pointTurns g (fs.filter (·.live))
  (s3.clearScratch g).bandCrews ((List.range fs.length).filterMap (fun i => if (s3.fibre (first + i)).live then some (first + i) else none))

/-- The state in which a saved fibre starts the restore routine (R178); in a deterministic launch %TADDR holds the save
block (R322). -/
def restoreFibre (entry block : DWord) (wbase : Nat) (f : Fibre) : Fibre :=
  let c : Ctl := .created entry 0 wbase f.ctl.born
  { f with live := true, regs := f.regs.map (fun _ => 0), preds := 0
           ctl := { c with h := true, v := true, restoring := true, taddr := block, pendAt := f.ctl.pendAt, jobsTill := f.ctl.jobsTill } }

/-- Places a saved gang again (R178, R210, R211); its queued jobs are posted again, as if their commands had just been issued. -/
def placeSaved (s0 : State) (w : Waiting) (k b : Nat) : State :=
  let gs := s0.occupying w.me
  let s := s0.takePlace w
  let g := { s0.seat w.gang gs k b with phase := .restoring, turns := (List.range w.gang.size).map (fun i => 4 * k + b + i) }
  let p := s.part g.part
  let entry := p.syscode + 12 * p.restoreEntry
  let ks := (List.range s.fibres.length).filter (fun i => (s.fibre i).gang == g.id && g.savedLive.contains (s.fibre i).idx)
  let gangs := s.gangs.map (fun x => if x.id == g.id then g else x)
  let bases := (List.range g.size).map (fun wg => s0.windowBase g gs (g.core wg))
  let moveA : Access → Access := fun a => if a.gang == g.id then { a with core := g.core (s.fibre a.fibre).wg } else a
  let moveJ : Job → Job := fun j => if j.gang == some g.id then { j with
    cluster := k, since := (s.cluster k).cycle, phase := if j.phase == .queued then .counted else j.phase
    raised := if j.phase == .queued then none else j.raised } else j
  let s1 : State := { s with gangs := gangs, accesses := s.accesses.map moveA, jobs := s.jobs.map moveJ }
  let wb : Fibre → Nat := fun f => bases.getD f.wg 0 + (f.idx - wgFirst g.slots f.wg) * g.regs
  let all := (List.range s.fibres.length).filter (fun i => (s.fibre i).gang == g.id)
  let s2 := (s1.updFibres all (fun _ f => { f with ctl := { f.ctl with wbase := wb f } })).updFibres ks (fun _ f =>
    restoreFibre entry (if g.det then (s.handlers g.id).saveBlock else 0) (wb f) f)
  let s3 := (s2.clearDeques g).pointTurns g (ks.map s2.fibre)
  -- a gang with no live fibre resumes at once
  ((s3.clearScratch g).bandCrews ks).tryResume g.id

/-! ### Launching (R307) -/

/-- What a launch node's payload says; what stops the front's read, or a launch error. -/
inductive Launched where
  | stop (f : ReadStop)
  | error
  | ok (l : Launch)

/-- Reads and checks a launch. -/
def readLaunch (s : State) (p n : Nat) (d : Node) : Launched :=
  let rd := fun va len => s.frontRead d.ctx va len
  let a := d.payload.toNat
  if a % 16 != 0 || aperture a != 0 then .error
  else match rd a 80 with
    | .error f => .stop f
    | .ok rb =>
      let r := launchRec rb
      if r.kernel % 8 != 0 then .error
      else match rd r.kernel 40 with
        | .error f => .stop f
        | .ok kb =>
          let k := kernelDesc kb
          if k.bad || r.bad k || !Config.signaturePolicy p (BitVec.ofNat 64 r.kernel) then .error
          else match rd (r.kernel + 40) (8 * k.groupCount), rd r.safePoints (16 * k.safeCount) with
            | .error f, _ => .stop f
            | _, .error f => .stop f
            | .ok gb, .ok sb =>
              if groupsBad gb k.groupCount k.gang r.slots then .error
              else match s.safeBad d.ctx sb k.safeCount r.code k.entry k.packets with
                | .error f => .stop f
                | .ok true => .error
                | .ok false =>
                  let g : Gang :=
                    { id := 0, part := p, ctx := d.ctx, launch := s.nextId, index := 0, gangs := r.gangs, prio := d.prio
                      det := k.det, forkable := k.forkable, size := k.gang, regs := k.regs, scratch := k.scratch
                      accum := k.accum, signCount := k.signs, slots := r.slots, liveCount := r.live
                      codeBase := BitVec.ofNat 64 r.code, packets := k.packets, handler := BitVec.ofNat 64 r.handler
                      safePoints := (List.range k.safeCount).map (fun i => (cardN sb (16 * i) 4, cardN sb (16 * i + 4) 1))
                      groups := groupEntries gb k.groupCount, args := r.args, phase := .waiting, cluster := 0, base := 0
                      scratchBase := [], placedAt := 0, waitSince := s.time, saveBlock := none, banks := [], bankBusy := []
                      signs := [], savedLive := [], staged := [], stagedPosts := [], released := false, round := 0, turns := [] }
                  if !(s.clustersOf p).any (fun c => s.fitsEmpty g c) then .error
                  else .ok { id := s.nextId, part := p, node := n, ctx := d.ctx, gangCount := r.gangs, det := k.det
                             holds := [], detx := false, deta := false, deto := false, error := 0, track := [], atoms := []
                             next := 0, proto := g, entry := k.entry, ctime := 0 }

/-! ### Pre-emption (R173, R311) -/

/-- Insertion by a key. -/
def insertKey (key : Gang → List Nat) (g : Gang) (l : List Gang) : List Gang :=
  l.takeWhile (fun b => !keyLe (key g) (key b)) ++ [g] ++ l.dropWhile (fun b => !keyLe (key g) (key b))

/-- The victims on a cluster: the shortest leading part of the list whose removal lets G fit (R311). -/
def victimsOn (s : State) (w : Waiting) (p k : Nat) (eff : Nat) : Option (List Gang) :=
  let gs := s.occupying w.me
  let cand := gs.filter (fun g => g.part == p && g.cluster == k && (g.phase == .resident || g.phase == .restoring)
    && decide (g.prio + 16 ≤ eff))
  let sorted := cand.foldr (insertKey (fun g => [g.prio, 2 ^ 64 - g.placedAt, 2 ^ 32 - g.index])) []
  (List.range sorted.length).findSome? (fun n =>
    let take := sorted.take (n + 1)
    let left := gs.filter (fun g => !take.any (fun x => x.id == g.id))
    if (s.fitsOn w.gang left k).isSome then some take else none)

/-- The decision of R311 for the first waiting gang: the victims. -/
def decision (s : State) (p : Nat) : Option (Waiting × List Gang) :=
  match s.waiting p with
  | [] => none
  | w :: _ =>
    let me := w.me
    let eff := match s.node p w.node with
      | some d => s.effective d
      | none => 0
    if (s.placeFor p w.gang me []).isSome then none
    else if s.gangs.any (fun g => g.reservedFor == some me && (g.phase == .preempting || g.phase == .draining || g.phase == .saving)) then none
    else
      let best := (s.clusterSet p w.gang).foldl (fun (b : Option (List Gang)) k => match s.victimsOn w p k eff with
        | none => b
        | some v => match b with
          | none => some v
          | some x => some (if v.length < x.length then v else x)) none
      best.map (fun v => (w, v))

/-- The lowest save blocks of a partition that no gang holds (R312). -/
def freeBlocks (s : State) (p n : Nat) : List Nat :=
  let used := s.gangs.filterMap (fun g => if g.part == p then g.saveBlock else none)
  let pt := s.part p
  -- the save area holds floor(SAVESIZE / SAVEBLK) blocks (R359)
  ((List.range (min (used.length + n) (pt.saveSize.toNat / pt.saveBlk.toNat))).filter (fun i => !used.contains i)).take n

/-! ### The deque (R169) -/

/-- The forkable gang that runs on a core and its workgroup there. -/
def forkGang (s : State) (c : Nat) : Option (Gang × Nat) :=
  (onCore (s.gangs.filter (fun g => g.phase == .resident && g.forkable)) c).head?

/-- The lowest-indexed free slot of a workgroup. -/
def freeSlot (s : State) (g : Gang) (wg : Nat) : Option Nat :=
  let ks := (List.range s.fibres.length).filter (fun k => (s.fibre k).gang == g.id && (s.fibre k).wg == wg)
  let allEnded := ks.all (fun k => !(s.fibre k).live)
  ks.find? (fun k => !(s.fibre k).live && (!(s.fibre k).used || allEnded))

/-- A free slot takes a deque entry and becomes a fibre (R68, R169). -/
def takeEntry (s : State) (g : Gang) (k : Nat) (e : DequeEntry) : State :=
  let born := s.nextId
  let s1 := (s.updFibres [k] (fun _ f =>
    let c : Ctl := .created e.entry 0 f.ctl.wbase born
    let f1 := { f with live := true, used := true, regs := List.replicate g.regs 0, preds := 0, ctl := c.goto g.codeBase e.entry }
    f1.setRegs (pairWrites 0 e.arg ++ pairWrites 1 e.join))).bump
  s1.newBand [k] .none

/-- Removes the head (newest) or the tail (oldest) entry. -/
def popEntry (c : CoreSt) (tail : Bool) : DequeEntry × CoreSt :=
  if tail then (c.entry 0, { c with dq := c.dq.drop 1, dqCount := c.dqCount - 1 })
  else (c.entry (c.dqCount - 1), { c with dqCount := c.dqCount - 1 })

/-! ### The carillon (R318) -/

/-- The element a staged access is on, where its region still exists. -/
def stagedElem (s : State) (ctx : Nat) (e : Staged) : Option (Region × List Nat) :=
  let on : List Word → Option (Region × List Nat) := fun cs =>
    (s.regionOf ctx (BitVec.ofNat 64 e.addr)).map (fun r => (r, cs.map (·.toNat)))
  match e.op with
  | .stt _ cs _ _ _ => on cs
  | .ldt .consuming cs _ _ => on cs
  | _ => none

/-- The place a staged access is performed at. -/
def stagedLoc (s : State) (ctx : Nat) (e : Staged) : Option Loc :=
  match e.op with
  | .store n _ _ => some (.ofBytes e.addr n e.attr)
  | .rmw n _ _ _ => some (.ofBytes e.addr n e.attr)
  | .load n _ _ => some (.ofBytes e.addr n e.attr)
  | .tags _ => some (.ofBytes e.addr 8 e.attr)
  | .dec => some (.ofBytes e.addr 8 e.attr)
  | .tagr => some { keys := e.bytes.map (·.1), off := 0, width := 8 * e.bytes.length, words := e.bits.map (·.1), elem := none, attr := e.attr }
  | _ => match s.stagedElem ctx e with
    | none => none
    | some (r, x) => match s.elemLoc r x .write with
      | .ok l => some l
      | .error _ => none

/-- Presents one staged access of a gang at its home: a write performed there now (R294, R318). -/
def presentStaged (s : State) (g : Gang) (e : Staged) : State :=
  match s.stagedLoc g.ctx e with
  | none => s
  | some l =>
    let keys := placeKeys l
    let u : HomeUse := { part := g.part, ctx := some g.ctx, attr := l.attr, policy := enterPolicy l.attr e.policy }
    let engine := e.op == .tagr
    let s0 := if e.op.needsData && !engine then s.homeReads u keys else s
    let s1 := ({ s0 with mem := s0.applyStaged g.ctx s0.mem e }.placeWrote u l (engine || e.op.writesData)
      (engine || e.op.writesBit)).hostSees none g.part (s.nodeOf g.id) keys
    let s2 := (s1.frontTook g.part keys).joinLaunch g.id (if l.elem.isSome then s.time else s.leasesOf l.keys)
    let locs := (s2.accesses.filterMap (fun a => match a.phase, a.loc with
      | .waiting .., some x => if x.meets l || x.words.any (fun w => l.keys.any (fun k => k / 8 == w)) then some x else none
      | _, _ => none)).dedup
    locs.foldl (fun s x => s.scanReleased x) s2

/-- The fault that an element of a gang's staged accesses meets, which its release waits for. -/
def releaseFault (s : State) (g : Gang) : Option (Nat × Nat × Nat) :=
  g.staged.findSome? (fun e => (s.stagedElem g.ctx e).bind (fun x => s.elemFault x.1 x.2 .write))

/-- The gang the carillon releases next: the lowest index not yet released, once it has ended. -/
def nextRelease (s : State) (l : Launch) : Option Gang :=
  let left := s.gangs.filter (fun g => g.launch == l.id && !g.released)
  match left.foldl (fun (m : Option Gang) g => match m with
    | none => some g
    | some x => some (if g.index < x.index then g else x)) none with
  | some g => if s.gangDone g then some g else none
  | none => none

/-- Releases a gang: its staged accesses in staging order, then its TGPOSTs. -/
def releaseGang (s : State) (l : Launch) (g : Gang) : State :=
  let s1 := g.staged.foldl (fun s e => s.presentStaged g e) s
  let s2 := g.stagedPosts.foldl (fun s b =>
    let r := nodeRec b
    match s.postNode g.part r g.ctx none (min r.prio g.prio) with
    | some s' => s'
    | none => match s.launch l.id with
      | some x => s.setLaunch { x with error := if x.error == 0 then 8 else x.error }
      | none => s) s1
  s2.setGang { g with staged := [], stagedPosts := [], released := true }

end State

/-- NODE_LAUNCH (R307): a ready launch node is checked, and its gangs wait for placement. -/
def execNodeLaunch (part node : Nat) (s : State) : Host.Outcome State Fault Refusal :=
  evPort "NODE_LAUNCH" (s.dispatch part node (· == 0) (fun s d =>
    match s.readLaunch part node d with
    | .stop f => some (s.payloadStop part node d 1 0 f)
    | .error => some (s.endNode part node 1 0)
    | .ok l =>
      let s1 := { s with launches := s.launches ++ [l] }
      some (s1.bump.setNode part node { d with phase := .dispatched })))

/-- GANG_PLACEMENT (R309): the front places the first waiting gang that may be placed, at the lowest fitting position. -/
def execGangPlacement (part : Nat) (s : State) : Host.Outcome State Fault Refusal :=
  ev "GANG_PLACEMENT" (if !s.serving part then none
    else match s.nextPlacement part with
      | some (w, k, b) => if w.gang.phase == .waiting then some (s.placeNew w k b) else none
      | none => none)

/-- RESTORE_PLACEMENT (R178): the saved gang is the one to place; its fibres enter the restore routine. -/
def execRestorePlacement (gang : Nat) (s : State) : Host.Outcome State Fault Refusal :=
  ev "RESTORE_PLACEMENT" (match s.gang gang with
    | none => none
    | some g =>
      if !s.serving g.part then none
      else match s.nextPlacement g.part with
        | some (w, k, b) => if w.gang.phase == .saved && w.gang.id == gang then some (s.placeSaved w k b) else none
        | none => none)

/-- PREEMPT_DECISION (R311): the front chooses victims for the first waiting gang and reserves what they free. -/
def execPreemptDecision (part : Nat) (s : State) : Host.Outcome State Fault Refusal :=
  ev "PREEMPT_DECISION" (if !s.serving part then none
    else match s.decision part with
      | none => none
      | some (w, v) =>
        let ids := v.map (·.id)
        let blocks := s.freeBlocks part ids.length
        if blocks.length < ids.length then none
        else some { s with gangs := s.gangs.map (fun g => if ids.contains g.id then
          { g with phase := .preempting, reservedFor := some w.me
                   saveBlock := some (g.saveBlock.getD (blocks.getD (ids.idxOf g.id) 0)) } else g) })

/-- CARVE_APPLY (R134): a pending scratch size takes effect once no resident workgroup's scratch lies above it; a smaller L1 gives
up its highest ways. -/
def execCarveApply (core : Nat) (s : State) : Host.Outcome State Fault Refusal :=
  ev "CARVE_APPLY" (match (s.core core).pendCarve with
    | none => none
    | some k =>
      let gs := State.onCore ((s.occupying (s.nextId, 0)).filter (fun g => g.phase != .saved)) core
      if decide (core < Config.cores) && gs.all (fun x => decide (x.1.scratch = 0) || decide (x.1.scratchBase.getD x.2 0 + x.1.scratch ≤ 65536 * k)) then
        let s1 := s.updCore core (fun c => { c with carve := k, pendCarve := none })
        some { s1 with l1 := s1.l1.filter (fun x => x.core != core || decide (x.way < 8 - k)) }
      else none)

/-- DEQUE_TAKE (R169): a free slot of the core takes the newest entry, in deterministic mode the oldest. -/
def execDequeTake (core : Nat) (s : State) : Host.Outcome State Fault Refusal :=
  ev "DEQUE_TAKE" (match s.forkGang core with
    | none => none
    | some (g, wg) =>
      if (s.core core).dqCount == 0 then none
      else match s.freeSlot g wg with
        | none => none
        | some k =>
          let r := State.popEntry (s.core core) g.det
          some ((s.updCore core (fun _ => r.2)).takeEntry g k r.1))

/-- DEQUE_STEAL (R169): a core with an empty deque takes the oldest entry of the next core of the gang that has one. -/
def execDequeSteal (core : Nat) (s : State) : Host.Outcome State Fault Refusal :=
  ev "DEQUE_STEAL" (match s.forkGang core with
    | none => none
    | some (g, wg) =>
      if g.det || (s.core core).dqCount != 0 then none
      else match s.freeSlot g wg with
        | none => none
        | some k =>
          let cores := ((List.range g.size).map g.core).filter (fun c => c != core)
          let last := (s.core core).stole
          let order := cores.filter (fun c => decide (last < c)) ++ cores.filter (fun c => decide (c ≤ last))
          match order.find? (fun c => (s.core c).dqCount != 0) with
          | none => none
          | some c =>
            let r := State.popEntry (s.core c) true
            some ((((s.updCore c (fun _ => r.2)).updCore core (fun x => { x with stole := c })).count core 0x18 1).takeEntry g k r.1))

/-- CARILLON_RELEASE (R318): the next finished gang's staged accesses and TGPOSTs are presented, once its elements translate. -/
def execCarillonRelease (part node : Nat) (s : State) : Host.Outcome State Fault Refusal :=
  evPort "CARILLON_RELEASE" (match s.launches.find? (fun l => l.part == part && l.node == node) with
    | none => none
    | some l => if !l.det || (l.error != 0 && l.error != 8) then none
      else (s.nextRelease l).map (fun g => match s.releaseFault g with
        | some f => s.frontFault g.ctx f 1
        | none => s.releaseGang l g))

end Sys2Proof.Machine
end

