-- ==== Sys2Proof/Machine/Regions.lean ====
section
/-! DEFINITION. Sys2Proof/Machine/Regions.lean: creating and destroying tensor regions (R254, R258), the monitor's stream
(R262 to R264), Drift (R266 to R268). -/

namespace Sys2Proof.Machine

/-- A tensor descriptor (R254). -/
structure TensorDesc where
  side : Nat
  base : Nat
  extents : List Nat
  format : Word
  size : Nat
  block : Nat
  order : BitVec 15
  io : Bool
  policy : Nat
  dims : Nat
  mbz : Nat
  deriving DecidableEq, Repr

def tensorDesc (b : List Byte) : TensorDesc :=
  let w := cardN b 0 8
  { side := cardN b 48 8, base := cardN b 40 8, extents := (List.range 5).map (fun d => cardN b (20 + 4 * d) 4)
    format := BitVec.ofNat 32 (cardN b 16 4), size := cardN b 8 8, block := w / 2 ^ 21 % 8, order := BitVec.ofNat 15 (w / 64)
    io := w / 32 % 2 == 1, policy := w / 8 % 4, dims := w % 8, mbz := w / 2 ^ 24 + cardN b 56 8 }

/-- The region a descriptor describes, in its initial layout. -/
def TensorDesc.region (t : TensorDesc) (id part ctx idx check : Nat) : Region :=
  let r : Region :=
    { id := id, part := part, ctx := ctx, index := idx, check := check, side := BitVec.ofNat 64 t.side
      base := BitVec.ofNat 64 t.base, size := BitVec.ofNat 64 t.size, extents := t.extents, format := t.format, block := t.block
      policy := t.policy, dims := t.dims, copy := 0, cur := ⟨[], [], []⟩, target := none, pending := none, tileK := 0
      state := .settled, count := 0, h := 0, left := 0, endState := .settled, endLeft := 0, pinned := false, entries := []
      scores := List.replicate t.dims 0, wcount := 0, window := 0, nextWindow := 0, refusedAdvice := 0, notices := []
      pooled := false, frames := [] }
  let o := if t.io then (orderOf t.dims t.order).getD (declaredOrder t.dims) else declaredOrder t.dims
  { r with cur := r.layoutOf o o, window := r.defaultWindow, nextWindow := r.defaultWindow }

/-- A descriptor that breaks R254 to R256. -/
def TensorDesc.bad (t : TensorDesc) : Bool :=
  t.mbz != 0 || decide (t.dims < 1) || decide (5 < t.dims) || t.policy == 3 || !fmtOk t.format
    || (if fmtNarrow t.format then decide (t.dims ≤ t.block) else t.block != 0 || t.side != 0)
    || (if t.io then (orderOf t.dims t.order).isNone else t.order != 0)
    || (t.extents.take t.dims).any (fun e => e == 0) || (t.extents.drop t.dims).any (fun e => e != 1)
    || t.base % 0x200000 != 0 || t.size % 0x200000 != 0 || decide (2 ^ 56 < t.base + t.size) || t.size == 0
    || decide (t.size < (t.region 0 0 0 0 0).needBytes)

namespace State

/-- Every page of a range is a valid leaf of 2 MiB or larger with T = 1 (R258). -/
def tensorPages (s : State) (c : Context) (base size : Nat) : Bool :=
  (List.range (size / 0x200000)).all (fun i => match s.walk c (base + i * 0x200000) 0 [46, 36, 26, 16] c.root with
    | .ok _ _ t e => t && decide (0x200000 ≤ e.size)
    | _ => false)

/-- A side handle names a region of kind 10 with the shape of R59. -/
def sideOk (s : State) (cid : Nat) (t : TensorDesc) : Bool :=
  t.side == 0 || (match s.regionOf cid (BitVec.ofNat 64 t.side) with
    | none => false
    | some r => fmtKind r.format == 10 && r.dims == t.dims && (List.range t.dims).all (fun d =>
        r.extents.getD d 1 == (if d == t.block then (t.extents.getD d 1 + 15) / 16 else t.extents.getD d 1)))

/-- The lowest free index of a context's region table. -/
def freeRegionIndex (s : State) (cid : Nat) : Option Nat :=
  (List.range 4096).find? (fun i => !s.regions.any (fun r => r.ctx == cid && r.index == i))

/-- The host physical addresses of the 64 KiB frames of n frames of a region's range from frame i. -/
def rangeFrames (s : State) (r : Region) (i : Nat) : Nat → Except (Nat × Nat × Nat) (List Nat)
  | 0 => .ok []
  | n + 1 => match s.regionKey r (r.base.toNat + 65536 * i) .write with
    | .error e => .error (e.1, e.2, r.base.toNat + 65536 * i)
    | .ok k => match s.rangeFrames r (i + 1) n with
      | .error e => .error e
      | .ok t => .ok (k.1 :: t)

/-- The key of a byte of a range that lies in a list of frames. -/
def frameKey (frames : List Nat) (off : Nat) : Nat := frames.getD (off / 65536) 0 + off % 65536

/-- What a change of data or bits over whole frames does beside the change itself: the bits of the lines that slices hold, a
migration's bitmap, the frames' last context, the turn of the front, and the scans (R143, R229, R246, R349). No other line enters a
slice. DESIGN CHOICE: log entry 11. -/
def framesWrote (s : State) (p : Nat) (ctx : Option Nat) (frames : List Nat) : State :=
  let on : Nat → Bool := fun a => frames.contains (a / 65536 * 65536)
  let lines := if s.migrations.isEmpty then [] else (frames.map (fun f => (List.range 1024).map (fun i => f + 64 * i))).flatten
  let waits := s.waitPlaces.map (fun l => (placeKeys l).filter on)
  let upd : L2Line → L2Line := fun x =>
    if on (64 * x.line) && isDevMem (64 * x.line) then { x with feDirty := List.replicate 8 true, ctx := ctx } else x
  let s1 := (({ s with l2 := s.l2.map upd }.markBitmap lines).noteFrames { part := p, ctx := ctx } frames).frontTook p frames
  s1.scanKeys waits.flatten

/-- The completion time of a write over whole frames (R139). -/
def framesTime (s : State) (frames : List Nat) : Nat :=
  (s.leases.filter (fun x => frames.contains (64 * x.1 / 65536 * 65536))).foldl (fun t x => max t x.2) s.time

/-- Both copies of a new region hold code 0 in every slot, pads included (R55, R258), with the bit of the policy in the current one;
the full/empty bits of every word of the range are full (R256). A sector or a word written whole is in error no more (R346, R348). -/
def clearRegion (s : State) (frames : List Nat) (r : Region) : State :=
  let own : Nat → Bool := fun a => frames.zipIdx.any (fun f =>
    decide (f.1 ≤ a) && decide (a < f.1 + 65536) && decide (65536 * f.2 + (a - f.1) < 2 * (r.copyBytes + r.bitBytes)))
  let m := (s.mem.zeroed own).filled (fun a => frames.contains (a / 65536 * 65536))
  let bits := if r.policy == 1 then (List.range r.bitBytes).map (fun i => frameKey frames (r.copyBytes + i)) else []
  let all := List.replicate 64 true
  let upd : L2Line → L2Line := fun x => if own (64 * x.line) then { x with valid := all, dirty := all } else x
  let sram : SramWord → Bool := fun e => match e with
    | .l2 w => own (8 * w)
    | _ => false
  State.framesWrote { s with
    mem := bits.foldl (fun m k => m.setByte k 0xFF) m, l2 := s.l2.map upd, sram := s.sram.filter (fun e => !sram e)
    badSectors := s.badSectors.filter (fun e => !(own (32 * e.1) && own (32 * e.1 + 31))) } r.part (some r.ctx) frames

/-- Region creation (R258): the region, or that it fails. -/
def createRegion (s : State) (p n : Nat) (d : Node) (b : List Byte) : State :=
  let t := tensorDesc b
  match s.context d.ctx, s.freeRegionIndex d.ctx with
  | some c, some i =>
    let overlap := s.regions.any (fun r => r.ctx == d.ctx && decide (r.base.toNat < t.base + t.size)
      && decide (t.base < r.base.toNat + r.size.toNat))
    if t.bad || overlap || !s.sideOk d.ctx t || !s.tensorPages c t.base t.size then s.endNode p n 5 0
    else
      let check := ((c.checks.lookup i).getD 0 + 1) % 4096
      let r := t.region s.nextId p d.ctx i check
      match s.rangeFrames r 0 (t.size / 65536) with
      | .error f => s.frontFault d.ctx f 1
      | .ok frames =>
        let rs := s.regions ++ [r]
        let cs := (i, check) :: c.checks.filter (fun x => x.1 != i)
        let s1 := ({ s with regions := rs }.bump.setContext { c with checks := cs }).clearRegion frames r
        let s2 := s1.hostSees none p (some n) frames
        (s2.setNode p n { d with ctime := max d.ctime (s.framesTime frames) }).endNode p n 0 r.handle.toNat
  | _, _ => s.endNode p n 5 0

/-- A job names a handle. -/
def jobNames (s : State) (j : Job) (r : Region) : Bool :=
  j.ctx == r.ctx && (match j.kind with
    | .matrix => (mcard j.card).bs && s.regionOf j.ctx (BitVec.ofNat 64 (mcard j.card).b) == some r
    | .copy =>
      let c := ccard j.card
      (c.sh && s.regionOf j.ctx (BitVec.ofNat 64 c.src) == some r) || (c.dh && s.regionOf j.ctx (BitVec.ofNat 64 c.dst) == some r))

/-- A region ends: its parked accesses, refused ones among them, take the tensor-access trap, and jobs that name it end with
error 5. -/
def destroyRegion (s : State) (r : Region) : State :=
  let parked := s.accesses.filter (fun a => match a.phase, a.loc with
    | .waiting .., some l => (match l.elem with
      | some (id, _, _) => id == r.id
      | none => false)
    | .refused, some l => (match l.elem with
      | some (id, _, _) => id == r.id
      | none => false)
    | _, _ => false)
  let s1 := parked.foldl (fun s a => s.accessTrap a 0x14 0 a.addr) s
  let upd : Job → Job := fun j => if j.phase != .complete && s.jobNames j r then { j with error := 5, phase := .running, stalled := false } else j
  let rest := s1.regions.filter (fun x => x.id != r.id)
  { s1 with jobs := s1.jobs.map upd, regions := rest }

/-! ### Drift (R266 to R268) -/

/-- The elements of a tile of a layout. -/
def tileElems (r : Region) (t : Layout) (k : Nat) : List (List Nat) :=
  ((List.range r.elements).map r.coords).filter (fun x => r.tileNo t x == k)

/-- The pad elements of a region: beyond the extent of the block dimension, up to a multiple of 16 (R55). -/
def pads (r : Region) : List (List Nat) :=
  let e := r.extents.getD r.block 1
  if !r.narrow || e % 16 == 0 then []
  else
    let wide := { r with extents := r.extents.set r.block (roundUp e 16) }
    ((List.range wide.elements).map wide.coords).filter (fun x => decide (e ≤ x.getD r.block 0))
/-- Those of a tile of a layout. -/
def tilePads (r : Region) (t : Layout) (k : Nat) : List (List Nat) := (pads r).filter (fun x => r.tileNo t x == k)

/-- Drift as a user of the homes of a region. -/
def driftUse (r : Region) : HomeUse := { part := r.part, ctx := some r.ctx }

/-- Moves one element to its slot in the target copy, with its bit and its waiters, those refused by a full slice among them.
Data in error move with the value they hold. DESIGN CHOICE: log entry 79. -/
def driftElem (s0 : State) (r : Region) (t : Layout) (x : List Nat) : State :=
  let s := match s0.slotLoc r r.copy (r.slot r.cur x) (r.linear x) .read with
    | .ok a => s0.homeReads (driftUse r) (placeKeys a)
    | .error _ => s0
  match s.slotLoc r r.copy (r.slot r.cur x) (r.linear x) .read, s.slotLoc r (1 - r.copy) (r.slot t x) (r.linear x) .write with
  | .ok a, .ok b =>
    let m1 := b.store s.mem (a.value s.mem)
    let m2 := if r.policy == 0 then m1 else b.setFull m1 (a.full s.mem)
    let refused : Access → Access := fun w => if w.phase == .refused && w.loc.any (fun l => l.meets a) then { w with loc := some b } else w
    let s1 := (State.placeWrote { s with mem := m2, accesses := s.accesses.map refused } (driftUse r) b true (r.policy != 0)).frontTook r.part (placeKeys b)
    -- waiters go to the new home in stamp order and are stamped again
    (s.waitersOf a).foldl (fun s w =>
      let sl := s.sliceOf (s.partOf w.gang) b
      let st := s.stamps.getD sl 0
      match w.phase with
      | .waiting _ pk => { s with stamps := s.stamps.set sl (st + 1) }.setAccess { w with loc := some b, phase := .waiting st pk }
      | _ => s) s1
  | _, _ => s

/-- Writes code 0 at a pad element of a copy in a layout. -/
def putPad (s : State) (r : Region) (copy : Nat) (t : Layout) (x : List Nat) : State :=
  match s.slotLoc r copy (r.slot t x) (r.linear x) .write with
  | .ok b => (State.placeWrote { s with mem := b.store s.mem 0 } (driftUse r) b true false).frontTook r.part b.keys
  | .error _ => s

/-- The first fault Drift meets in a tile. -/
def driftFault (s : State) (r : Region) (t : Layout) (k : Nat) : Option (Nat × Nat × Nat) :=
  (tileElems r t k).findSome? (fun x =>
    match s.vaFault r .read (slotVas r r.copy (r.slot r.cur x)) with
    | some f => some f
    | none => s.vaFault r .write (slotVas r (1 - r.copy) (r.slot t x)))

/-- Moves one tile of a region. -/
def driftTile (s : State) (r : Region) (t : Layout) : State :=
  let absent := r.pooled && r.frames.isEmpty
  let s1 := if absent then s
    else (tileElems r t r.tileK).foldl (fun s x => s.driftElem r t x) ((tilePads r t r.tileK).foldl (fun s x => s.putPad r (1 - r.copy) t x) s)
  let r1 := { r with tileK := r.tileK + 1 }
  s1.setRegion (if r.tiles t ≤ r.tileK + 1 then r1.endMove else r1)

end State

/-- REGION_CREATE (R258): the front creates a region from a descriptor; the handle is the node's result. -/
def execRegionCreate (part node : Nat) (s : State) : Host.Outcome State Fault Refusal :=
  evPort "REGION_CREATE" (s.dispatch part node (· == 4) (fun s d =>
    match s.frontRead d.ctx d.payload.toNat 64 with
    | .error f => some (s.payloadStop part node d 5 0 f)
    | .ok b => some (s.createRegion part node d b)))

/-- REGION_DESTROY (R258): the front ends a region, unless a layer of an enabled model names it. -/
def execRegionDestroy (part node : Nat) (s : State) : Host.Outcome State Fault Refusal :=
  evPort "REGION_DESTROY" (s.dispatch part node (· == 5) (fun s d =>
    match s.regionOf d.ctx d.payload with
    | none => some (s.endNode part node 5 0)
    | some r =>
      if r.pooled || s.regions.any (fun x => x.ctx == r.ctx && x.pooled && x.side == r.handle) then some (s.endNode part node 5 0)
      else some ((s.destroyRegion r).endNode part node 0 0)))

/-- MONITOR_NOTICE (R263): the monitor scores the next notice of the stream. -/
def execMonitorNotice (region : Nat) (s : State) : Host.Outcome State Fault Refusal :=
  ev "MONITOR_NOTICE" (match s.region region with
    | none => none
    | some r => match r.notices with
      | [] => none
      | n :: rest => if r.window ≤ r.wcount then none else some (s.setRegion ({ r with notices := rest }.notice n.1 n.2)))

/-- WINDOW_END (R264): after the last notice of a window the monitor decides, updates its holds and resets the scores. -/
def execWindowEnd (region : Nat) (s : State) : Host.Outcome State Fault Refusal :=
  ev "WINDOW_END" (match s.region region with
    | none => none
    | some r => if r.wcount < r.window then none else some (s.setRegion r.windowDone))

/-- DRIFT_TILE (R266): one target tile is copied with its bits and waiters. -/
def execDriftTile (region : Nat) (s : State) : Host.Outcome State Fault Refusal :=
  evPort "DRIFT_TILE" (match s.region region with
    | none => none
    | some r => match r.target with
      | none => none
      | some t => match (if r.pooled && r.frames.isEmpty then none else s.driftFault r t r.tileK) with
        | some f => some (s.frontFault r.ctx f 5)
        | none => some (s.driftTile r t))

end Sys2Proof.Machine
end

