-- ==== Sys2Proof/Machine/Order.lean ====
section
/-! DEFINITION. Sys2Proof/Machine/Order.lean: which of a fibre's accesses may be performed, and when (R143, R149, R151,
R155, R160, R166, R243, R262, R284, R285, R314, R332, R339). -/

namespace Sys2Proof.Machine

namespace Access

/-- Withdrawn by a pre-emption: the save and the restore routine go ahead of it (R173, R178). -/
def isKept (a : Access) : Bool :=
  match a.phase with
  | .kept _ => true
  | _ => false
/-- Under way and not performed. -/
def unperformed (a : Access) : Bool :=
  match a.phase with
  | .performed _ => false
  | _ => !a.isKept
/-- An access to scratch, or the reading of a card that lies there and has not been read (R151, R191, R212, R369). -/
def onScratch (a : Access) : Bool :=
  a.inScratch || (a.card.isNone && a.addr.extractLsb' 56 8 != 0 && (match a.op with
    | .cpyq => true
    | .lnkq => true
    | .marm .. => true
    | _ => false))
/-- A FENCE with eng waits for engine jobs (R160). -/
def engFence (a : Access) : Bool :=
  match a.op with
  | .fence e _ _ => e
  | _ => false
/-- Accesses a pre-emption withdraws: F/E waits, BARW, LAYACQ, SIGN waiting for arming, and held loads (R145, R173, R192,
R242, R332). -/
def withdrawable (a : Access) : Bool :=
  match a.phase with
  | .waiting .. => true
  | .refused => true
  | .held => true
  | .issued => match a.op with
    | .sign _ => a.arrived.isSome
    | _ => false
  | .performed _ => false
  | .kept _ => false
/-- A wait of R314 in which a round does not hold an access: an F/E or barrier list, a LAYACQ, a sign register. -/
def roundWait (a : Access) : Bool := a.withdrawable && a.phase != .held || a.engFence || (match a.op with
  | .marm .. => !a.released
  | _ => false)
/-- A filling store or STT (R151). -/
def fills (a : Access) : Bool :=
  match a.op with
  | .store _ .filling _ => true
  | .stt .filling .. => true
  | _ => false

end Access

namespace State

/-- An access belongs to the fibre that now holds its slot. -/
def owns (s : State) (k : Nat) (a : Access) : Bool := a.fibre == k && decide ((s.fibre k).ctl.born ≤ a.id)

/-- What an access names: whether in scratch, and its first bit and the bit after its last: of the scratch bytes, whichever
aperture names them (R136), of virtual addresses, or of an element's slot (R261). -/
def span (s : State) (a : Access) : Option (Bool × Nat × Nat) :=
  match a.op.tensor with
  | some (_, cs, _, _) =>
    match s.gang a.gang with
    | none => none
    | some g => match s.regionOf g.ctx a.addr with
      | none => none
      | some r =>
        let p := r.place ((cs.take r.dims).map (·.toNat))
        let v := slotVa r p.1 p.2
        some (false, 8 * v.1 + v.2, 8 * v.1 + v.2 + fmtBits r.format)
  | none => a.op.size.map (fun n =>
      let lo := if a.inScratch then (match s.scratchOf (s.fibre a.fibre) a.addr with
        | .ok (some key) => key
        | _ => a.addr.toNat) else a.addr.toNat
      (a.inScratch, 8 * lo, 8 * (lo + n)))
/-- The same, grown to whole 8-byte words for a filling store or STT (R151). -/
def reach (s : State) (a : Access) : Option (Bool × Nat × Nat) :=
  (s.span a).map (fun x => if a.fills then (x.1, x.2.1 / 64 * 64, (x.2.2 + 63) / 64 * 64) else x)
/-- Two ranges have a bit in common. -/
def meetsSpan (x y : Bool × Nat × Nat) : Bool := x.1 == y.1 && decide (x.2.1 < y.2.2) && decide (y.2.1 < x.2.2)
/-- A later access b of a fibre names a byte or an element that an earlier one, a, covers (R151). -/
def overlaps (s : State) (a b : Access) : Bool :=
  match s.reach a, s.span b with
  | some x, some y => meetsSpan x y
  | _, _ => false
/-- Two accesses name one 8-byte word, or one element. -/
def sameWord (s : State) (a b : Access) : Bool :=
  match s.span a, s.span b with
  | some x, some y =>
    let up : Access → Bool × Nat × Nat → Bool × Nat × Nat := fun c z =>
      if c.op.tensor.isSome then z else (z.1, z.2.1 / 64 * 64, (z.2.2 + 63) / 64 * 64)
    a.op.tensor.isSome == b.op.tensor.isSome && meetsSpan (up a x) (up b y)
  | _, _ => false

/-- The core whose bank an access in scratch, or the reading of a card there, reaches. -/
def bankCore (s : State) (a : Access) : Option Nat :=
  if !a.onScratch then none
  else match s.scratchOf (s.fibre a.fibre) a.addr with
    | .ok (some key) => some ((key - 2 ^ 52) / 2 ^ 19)
    | _ => none

/-- An unperformed earlier access b of the same fibre holds a back. -/
def holds (s : State) (b a : Access) : Bool :=
  b.op.acquires || (match b.op with
    | .fence .. => true
    | _ => false) || (b.onScratch && a.onScratch) || s.overlaps b a || (b.op.posting && a.op.posting) || a.op == .layrel

/-- Side-log entries for the 64 KiB range of an access: of its own fibre, and of its core (R243). -/
def logOf (s : State) (a : Access) (own : Bool) : Bool :=
  match s.accVa a with
  | none => false
  | some v => s.sideLog.any (fun e => some e.ctx == (s.gang a.gang).map (·.ctx) && (if own then e.acc.fibre == a.fibre else e.acc.core == a.core)
      && ((s.accVa e.acc).map (· / 65536)) == some (v / 65536))

/-- A command posted by an earlier SIGN of the fibre has not entered the reservation table (R339). -/
def signPending (s : State) (k : Nat) : Bool := s.jobs.any (fun j => j.signer == some k && j.phase == .counted)

/-- The release condition of a fibre as access a sees it (R149). -/
def releaseMet (s : State) (a : Access) : Bool :=
  decide ((s.fibre a.fibre).ctl.horizon.toNat ≤ s.time)
    && s.sideLog.all (fun e => !s.owns a.fibre e.acc)
    && s.accesses.all (fun b => !(s.owns a.fibre b && decide (b.id < a.id) && b.op.storeClass && !b.isKept))

/-- Whether an earlier access of its fibre holds an access back (R151, R160, R243, R284, R332, R339); an atomic that returns a value
goes behind its fibre's log entry as every store-class access does (R243). -/
def fibreHolds (s : State) (a : Access) : Bool :=
  s.accesses.any (fun b => b.fibre == a.fibre && decide (b.id < a.id) && b.unperformed && s.holds b a)
    || (a.op.loadClass && !a.op.storeClass && s.logOf a true)
    || (a.op == .layrel && s.sideLog.any (fun e => e.acc.fibre == a.fibre))
    || (a.op.posting && s.signPending a.fibre)

/-- An access stands ready to go to its place, its core's order apart. -/
def sendable (s : State) (a : Access) : Bool := a.phase == .issued && !s.fibreHolds a && (!a.op.releases || a.released)

/-- A lower lane b of one word goes before a: where the lanes act one by one, and on one word (R143, R151); lanes that are
performed together on one word do not wait for one another (R155). -/
def laneBlocks (s : State) (b a : Access) : Bool :=
  (a.op.laneByLane && b.op.laneByLane) || (s.sameWord b a && !(a.op.together && b.op.together))

/-- Lower lanes of the same word that go first, those held by a translation fault among them. -/
def laneHolds (s : State) (a : Access) : Bool :=
  s.accesses.any (fun b => b.batch == a.batch && decide (b.id < a.id) && (b.phase == .issued || b.phase == .held)
    && (match b.op with
      | .sign _ => b.arrived.isNone
      | _ => true)
    && s.laneBlocks b a)

/-- The accesses performed together with one of the atomic class (R155). DEDUCED: log entry 13. -/
def groupOf (s : State) (a : Access) : List Access :=
  if a.op.together then s.accesses.filter (fun b => b.batch == a.batch && b.phase == .issued && b.op.together && s.sameWord b a)
  else [a]

/-- At a scratch bank the lanes of one request go in ascending order (R137), those performed together at the place of the first of
them (R155), and the messages of one core to another's bank in the order in which they were issued (R189). -/
def bankHolds (s : State) (a : Access) : Bool :=
  match s.bankCore a with
  | none => false
  | some k =>
    let first := (((s.groupOf a).head?).getD a).id
    s.accesses.any (fun b => b.core == a.core && decide (b.id < first) && s.bankCore b == some k && s.sendable b
      && (b.batch == a.batch || k != a.core))

/-! ### Finding the place of an access -/

/-- Where an access leads: a place, a trap, or a translation fault (cause, guest physical and virtual address). -/
inductive Found where
  | place (l : Loc) (e : Option TlbEntry)
  | trap (cls cause : Nat) (addr : DWord)
  | fault (cause gpa va : Nat)

/-- n bytes at a virtual address inside one page, for a fibre's word; a page with T = 1 traps whatever it allows (R235). -/
def findBytes (s : State) (c : Context) (addr : DWord) (n : Nat) (need : Need) : Found :=
  if s.tensorPage c addr.toNat then .trap 0x13 0 addr
  else match s.xlat c addr.toNat need with
  | .ok hpa attr _ e => .place (.ofBytes hpa n attr) (some e)
  | .fault cause gpa => .fault cause gpa addr.toNat
  | .lost => .fault 5 0 addr.toNat

/-- The element an LDT or STT names. -/
def findElem (s : State) (cid : Nat) (addr : DWord) (f : Form) (cs : List Word) (w : Nat) (odd : Bool) (need : Need) : Found :=
  match s.tensorTrap cid addr f cs w odd with
  | .error (cls, cause, x) => .trap cls cause x
  | .ok r =>
    let x := (cs.take r.dims).map (·.toNat)
    match s.elemFault r x need with
    | some (cause, gpa, va) => .fault cause gpa va
    | none => match s.elemLoc r x need with
      | .ok l => .place l none
      | .error e => .fault e.1 e.2 r.base.toNat

/-- Where an access leads if its translation must allow `n`. -/
def findFor (s : State) (c : Context) (a : Access) (n : Need) : Found :=
  match a.op.tensor with
  | some (f, cs, w, odd) => s.findElem c.id a.addr f cs w odd n
  | none => s.findBytes c a.addr (a.op.size.getD 8) n
def find (s : State) (c : Context) (a : Access) : Found := s.findFor c a a.op.need

/-- An access goes to its region's monitor: an element's notice, or LAYQ, LAYADV and LAYPIN (R262). -/
def inStream (b : Access) : Bool := b.op.tensor.isSome || (match b.op with
  | .layq => true
  | .layadv _ => true
  | .laypin _ => true
  | _ => false)

/-- Earlier accesses of the core of `a` in its region's stream, which the core may present and whose notice it has not sent. -/
def streamAhead (s : State) (a : Access) : List Access :=
  if !inStream a then [] else s.accesses.filter (fun b => b.core == a.core && decide (b.id < a.id) && inStream b && b.addr == a.addr
    && !b.noticed && s.sendable b)

/-- A LAYQ, LAYADV or LAYPIN that one core issued earlier is taken at its place in the stream before a later access sends its notice
(R262); notices order nothing else. DEDUCED: log entry 83. -/
def streamHolds (s : State) (a : Access) : Bool := !a.noticed && (s.streamAhead a).any (fun b => b.op.tensor.isNone)

/-- An earlier access of a fibre, or a lower lane of one word, holds another back for as long as it stands. -/
def blocks (s : State) (b a : Access) : Bool :=
  decide (b.id < a.id) && ((b.fibre == a.fibre && (s.holds b a || (a.op.releases && b.op.storeClass))) || (b.batch == a.batch && s.laneBlocks b a))

/-- The accesses of a gang that stand: those of `seed`, and those not performed that stand behind one of them. -/
def standing (s : State) (gid : Nat) (seed : Access → Bool) : List Access :=
  ((sortBy id (s.accesses.map (·.id))).filterMap s.access).foldl (fun l a =>
    if a.gang == gid && (seed a || (a.phase == .issued && l.any (fun b => s.blocks b a))) then l ++ [a] else l) []

/-- The words of the place of an access, as far as its address translates now. -/
def placeWords (s : State) (a : Access) : List Nat :=
  if !(a.op.size.isSome || a.op.tensor.isSome) then []
  else if a.inScratch then (match s.scratchOf (s.fibre a.fibre) a.addr with
    | .ok (some key) => (Loc.ofBytes key (a.op.size.getD 8) 0).words
    | _ => [])
  else match (s.gang a.gang).bind (fun g => s.context g.ctx) with
    | none => []
    | some c => match s.find c a with
      | .place l _ => ((placeKeys l).map (· / 8)).dedup
      | _ => []

/-- Two accesses reach one place, by the addresses they name or by where those lead. -/
def samePlaceAs (s : State) (a b : Access) : Bool :=
  s.sameWord a b || (let w := s.placeWords a; (s.placeWords b).any (fun x => w.contains x))

/-- An access of a lower core of a gang goes first at the place of a (R314): one on its way, held, or in a side log. -/
def lowerHolds (s : State) (a : Access) : Bool :=
  let low : Access → Bool := fun b => b.gang == a.gang && !b.sys && decide (b.core < a.core)
  let bs := s.accesses.filter (fun b => low b && (b.phase == .issued || b.phase == .held))
  let es := (s.sideLog.map (·.acc)).filter low
  es.any (fun b => s.samePlaceAs b a)
    || (!bs.isEmpty && (let st := s.standing a.gang Access.roundWait
        bs.any (fun b => !st.any (fun x => x.id == b.id) && s.samePlaceAs b a)))

/-- A deterministic gang's accesses are performed once every core has taken its turn of the round, those of lower cores
first at one place (R314). -/
def roundHolds (s : State) (a : Access) : Bool :=
  match s.gang a.gang with
  | none => false
  | some g =>
    g.det && !a.sys && (g.phase == .resident || g.phase == .preempting)
      && (!(List.range g.size).all (fun w => g.turns.contains (g.core w)) || s.lowerHolds a)

/-- The access may be presented now, the release condition apart. -/
def mayPresent (s : State) (a : Access) : Bool :=
  !s.fibreHolds a && !s.laneHolds a && !s.bankHolds a && !s.streamHolds a && !s.roundHolds a

/-- The access may be performed now. -/
def ready (s : State) (a : Access) : Bool :=
  a.phase == .issued && (!a.op.releases || a.released) && s.mayPresent a

end State

end Sys2Proof.Machine
end

