-- ==== Sys2Proof/Machine/LinkCard.lean ====
section
/-! DEFINITION. Sys2Proof/Machine/LinkCard.lean: the link job card and its rules (R369, R370), sessions (R365). -/

namespace Sys2Proof.Machine

/-- A link job card (R370). -/
structure LCard where
  kind : Nat
  session : Nat
  loc : Nat
  remote : Nat
  n : Nat
  desc : Word
  scales : Nat
  result : Nat
  mask : Nat
  members : Nat
  staging : Nat
  deadline : Nat
  coll : Nat
  flag : Nat
  mbz : Nat
  deriving DecidableEq, Repr

def lcard (b : List Byte) : LCard :=
  let w := cardN b 0 8
  { kind := w % 16, session := w / 256 % 64, loc := cardN b 8 8, remote := cardN b 16 8, n := cardN b 24 4
    desc := BitVec.ofNat 32 (cardN b 28 4), scales := cardN b 32 8, result := cardN b 40 8, mask := cardN b 48 8
    members := cardN b 56 8, staging := cardN b 64 8, deadline := cardN b 72 4, coll := cardN b 76 4, flag := cardN b 80 8
    mbz := w / 2 ^ 14 + w / 16 % 16 + cardN b 88 40 }

/-- The remote flag's value that names none. -/
def noFlag : Nat := 2 ^ 64 - 1
/-- Ranks of a mask. -/
def ranksOf (mask : Nat) : List Nat := (List.range 64).filter (fun r => mask / 2 ^ r % 2 == 1)
/-- The session byte of a rank in a member table. -/
def memberOf (t : List Byte) (r : Nat) : Nat := (t.getD r 0xFF).toNat
/-- The rank that is self. -/
def selfRank (t : List Byte) : Nat := ((List.range 64).find? (fun r => memberOf t r == 0xFE)).getD 64

/-- A member table agrees with its mask, exactly one member being self. -/
def membersOk (mask : Nat) (t : List Byte) : Bool :=
  (List.range 64).all (fun r => (memberOf t r != 0xFF) == (mask / 2 ^ r % 2 == 1))
    && ((List.range 64).filter (fun r => memberOf t r == 0xFE)).length == 1
    && (List.range 64).all (fun r => decide (memberOf t r < 64) || memberOf t r == 0xFE || memberOf t r == 0xFF)

/-- Bytes of one contribution: codes and scales, or binary32 values (R372). -/
def slotBytes (c : LCard) : Nat × Nat :=
  if c.desc == 0 then (4 * c.n, 0)
  else let g := (c.n + 15) / 16; (g * (2 * (Narrow.ofWord c.desc).width), g)
/-- The stride of a slot in the staging area: slots lie one after another, codes before scales.
DESIGN CHOICE: log entry 19. -/
def slotStride (c : LCard) : Nat := (slotBytes c).1 + (slotBytes c).2

namespace State

/-- An open session of a partition. -/
def session (s : State) (p n : Nat) : Option Session := (s.part p).sessions.find? (fun x => x.n == n && x.isOpen)
def setSession (s : State) (p : Nat) (x : Session) : State :=
  s.updPart p (fun pt => { pt with sessions := pt.sessions.map (fun y => if y.n == x.n then x else y) })

/-- An address of a card: global, or in the gang's scratch. -/
def cardAddr (s : State) (gang : Option Nat) (wg a : Nat) : Bool :=
  aperture a == 0 || (gang.isSome && (s.cardScratch gang wg a 1).isSome)

/-- A card that breaks R370, names no open session, or whose put or get range lies outside the peer's window. `t` is the
member table of a reduce. DEDUCED: log entry 41. -/
def lcardBad (s : State) (p : Nat) (gang : Option Nat) (wg : Nat) (b t : List Byte) : Bool :=
  let c := lcard b
  let ok := s.cardAddr gang wg
  c.mbz != 0 || decide (2 < c.kind) || c.n == 0 || !ok c.loc || c.result % 16 != 0 || !ok c.result
    || (if c.kind == 2 then
          c.session != 0 || c.remote != 0 || c.flag != 0 || decide (c.deadline < 1) || decide (60000 < c.deadline)
            || c.staging % 64 != 0 || aperture c.staging != 0 || c.members % 8 != 0 || !ok c.members
            || !membersOk c.mask t || (c.desc != 0 && !Narrow.legalWord c.desc) || (c.desc == 0 && c.scales != 0)
            || (c.scales != 0 && !ok c.scales)
            || (ranksOf c.mask).any (fun r => memberOf t r != 0xFE && (s.session p (memberOf t r)).isNone)
        else
          c.desc != 0 || c.scales != 0 || c.mask != 0 || c.members != 0 || c.staging != 0 || c.deadline != 0 || c.coll != 0
            || (if c.kind == 0 then c.flag != noFlag && c.flag % 8 != 0 else c.flag != 0)
            || (match s.session p c.session with
              | none => true
              | some x => decide (x.peerLen < c.remote + c.n) || (c.kind == 0 && c.flag != noFlag && decide (x.peerLen < c.flag + 8))))

/-- Jobs in a partition's link queue. -/
def linkLoad (s : State) (p : Nat) : Nat := (s.linkJobs.filter (fun j => j.part == p && !j.checkpoint)).length

/-- Posts a link job. -/
def postLink (s : State) (p cid : Nat) (gang fibre node : Option Nat) (wg post : Nat) (b t : List Byte) : State :=
  let c := lcard b
  let j : LinkJob :=
    { id := s.nextId, part := p, ctx := cid, gang := gang, fibre := fibre, node := node
      kind := match c.kind with
        | 0 => .put
        | 1 => .get
        | _ => .reduce
      session := c.session, card := b, members := t, deadline := if c.kind == 2 then s.time + 1000000 * c.deadline else 0
      stage := 0, arrived := [], excluded := [], error := 0, sat := 0, mask := 0, ctime := 0, wg := wg
      post := post }
  { s with linkJobs := s.linkJobs ++ [j] }.bump

end State

end Sys2Proof.Machine
end

