-- ==== Sys2Proof/Machine/Ports.lean ====
section
/-! DEFINITION. Sys2Proof/Machine/Ports.lean: the lines a core's access needs in its slice (R228, R342 to R344), the L1 copies and leases of a core (R138, R139, R278, R279). -/

namespace Sys2Proof.Machine

namespace State

/-! ### Lines a core's access needs (R228, R342, R344) -/

/-- A byte of device memory that an access must find in its slice and does not. -/
def missing (s : State) (keys : List Nat) : Option Nat := keys.find? s.lacks

/-- The request that brings byte `k` in: its sector where the slice holds the line's other sector whole, else its line; none
while a read of the line is under way. DESIGN CHOICE: log entry 11. -/
def fetchLine (s : State) (k policy : Nat) : Option State :=
  let other := if k % 64 < 32 then 64 * lineOf k + 32 else 64 * lineOf k
  let held := match s.l2Line k with
    | some x => ((x.valid.drop (other % 64)).take 32).all (· == true)
    | none => false
  if s.lineComing (lineOf k) then none
  else some (s.sendPort (if held then k else 64 * lineOf k) { kind := if held then .readSector else .readLine, policy := policy })

/-! ### L1 -/

/-- The ways of a core's L1: one per 64 KiB not given to scratch (R133). -/
def l1Ways (s : State) (core : Nat) : Nat := 8 - (s.core core).carve
/-- A line of a core that lies in the L1 set of line `ln`. -/
def inL1Set (core ln : Nat) (x : L1Line) : Bool :=
  x.core == core && Config.l1Set x.line % Config.l1Sets == Config.l1Set ln % Config.l1Sets

/-- The ways that a line may take in its set: a free one where there is one, else any, its line given up. -/
def l1Choices (s : State) (core ln : Nat) : List Nat :=
  let ws := List.range (s.l1Ways core)
  let free := ws.filter (fun w => !s.l1.any (fun x => inL1Set core ln x && x.way == w))
  if free.isEmpty then ws else free

/-- Puts a line into its set of a core's L1; a free value says which of the ways it may take. DESIGN CHOICE: log entry 10. -/
def installL1 (s : State) (core ln expiry : Nat) : State :=
  let d := s.lineData ln
  let rest : State := { s with l1 := s.l1.filter (fun x => !(x.core == core && x.line == ln)) }
  let ws := rest.l1Choices core ln
  let q := rest.pick ws.length
  let w := ws.getD q.1 0
  let line : L1Line := { core := core, line := ln, way := w, data := d.1, full := d.2, expiry := expiry }
  { q.2 with l1 := line :: q.2.l1.filter (fun x => !(inL1Set core ln x && x.way == w)) }

/-- The home returns a line with a lease (R138): the slice may shorten the lease, down to none; the data replace a copy that the
core holds (R279), and with a lease the line is installed; a line with an uncorrectable sector gets none (R348).
DESIGN CHOICE: log entry 10. -/
def grantLease (s : State) (core p ln : Nat) : State :=
  let r := s.pick ((s.part p).lease + 1)
  let till := s.time + r.1
  if till ≤ s.time || s.badSector (64 * ln) || s.badSector (64 * ln + 32) then r.2.refreshL1 core ln
  else
    let old := (r.2.leases.lookup ln).getD 0
    let s1 := r.2.installL1 core ln till
    { s1 with leases := (ln, max old till) :: s1.leases.filter (fun x => x.1 != ln) }

end State

end Sys2Proof.Machine
end

