-- ==== Sys2Proof/Machine/Posting.lean ====
section
/-! DEFINITION. Sys2Proof/Machine/Posting.lean: what happens to a held operation once its condition is met: FENCE (R160), MARM
and SIGN (R191, R192), CPYQ, LNKQ and TGPOST once their card is read (R212, R305, R369), FORK (R168), ICINV (R179),
TLBINV (R240). -/

namespace Sys2Proof.Machine

namespace State

/-- The trap of an engine word (R193). -/
def engineTrap (s : State) (a : Access) (cause : Nat) : State := s.accessTrap a 0x16 cause a.addr

/-! ### FENCE -/

/-- Whether a fence's condition holds, and %HORIZON with the completion times of the fibre's jobs (R160). -/
def fenceMet (s : State) (a : Access) (eng : Bool) (kind scope : Nat) : Option DWord :=
  let k := a.fibre
  let earlier := s.accesses.filter (fun b => s.owns k b && decide (b.id < a.id))
  let own : Option Nat → Nat → Bool := fun f post => f == some k && decide ((s.fibre k).ctl.born ≤ post) && decide (post < a.id)
  let mine := s.jobs.filter (fun j => own j.fibre j.post)
  let links := s.linkJobs.filter (fun j => own j.fibre j.post)
  -- a command armed earlier is awaited from its signatures on (R224)
  let armed := match s.gang a.gang with
    | some g => g.signs.any (fun r => r.armed && r.arming == k && decide ((s.fibre k).ctl.born ≤ r.armId) && decide (r.armId < a.id))
    | none => false
  let h0 := (s.fibre k).ctl.horizon.toNat
  -- jobs that have completed and left the engines join it too
  let h := if eng then (mine.map (·.ctime) ++ links.map (·.ctime)).foldl max (max h0 (s.fibre k).ctl.jobsTill) else h0
  let loads := earlier.all (fun b => !(b.op.loadClass && b.unperformed))
    && s.sideLog.all (fun e => !(s.owns k e.acc && decide (e.acc.id < a.id) && e.acc.op.loadClass))
  let stores := earlier.all (fun b => !b.op.storeClass || b.isKept) && s.sideLog.all (fun e => !(s.owns k e.acc && decide (e.acc.id < a.id)))
  let wide := decide (scope < 2) || (decide (h ≤ s.time) && s.sideLog.all (fun e => !s.owns k e.acc))
  let host := decide (scope < 4) || s.hostVisible.all (fun v => v.fibre != some k || decide (v.till ≤ s.time))
  let engines := !eng || (mine.all (fun j => j.phase == .complete) && links.all (fun j => decide (3 ≤ j.stage))
    && earlier.all (fun b => !b.op.posting || b.isKept) && !armed)
  if (kind == 1 || loads) && (kind == 0 || (stores && wide && host)) && engines then some (BitVec.ofNat 64 h) else none

/-! ### MARM and SIGN -/

/-- One signature on an armed register: at 0 the register is unarmed and its command counted (R192). -/
def signOne (s : State) (a : Access) (k : Nat) : State :=
  match s.gang a.gang with
  | none => s
  | some g =>
    let r := g.signs.getD k SignReg.zero
    if r.remaining ≤ 1 then
      let j : Job :=
        { id := s.nextId, kind := .matrix, cluster := g.cluster, part := g.part, ctx := g.ctx, gang := some g.id, node := none
          fibre := some r.arming, wg := (s.fibre r.arming).wg, prio := g.prio, card := r.card, phase := .counted, pos := 0
          fetched := 0, stalled := false, sat := 0, flags := 0, error := 0, ctime := 0, since := (s.cluster g.cluster).cycle
          raised := none, signer := some a.fibre, post := r.armId }
      ({ s with jobs := s.jobs ++ [j] }.bump.setGang { g with signs := g.signs.set k { r with armed := false, remaining := 0 } }).dropAccess a.id
    else (s.setGang { g with signs := g.signs.set k { r with remaining := r.remaining - 1 } }).dropAccess a.id

/-- Whether a gang's sign register is armed. -/
def armed (s : State) (gid k : Nat) : Bool :=
  match s.gang gid with
  | some g => (g.signs.getD k SignReg.zero).armed
  | none => false

/-- Waiting SIGNs of a register, served in the order in which they were issued while it is armed, whatever the launch's mode.
DESIGN CHOICE: log entry 79. -/
def serveSigns (s : State) (gid k : Nat) : State :=
  (s.accesses.filter (fun a => a.gang == gid && a.op == .sign k && a.arrived.isSome)).foldl (fun s a =>
    if s.armed gid k && s.inBudget a then s.signOne a k else s) s

/-- SIGN, once the release condition holds. -/
def doSign (s : State) (a : Access) (k : Nat) : State :=
  match s.gang a.gang with
  | none => s
  | some g =>
    if g.signCount ≤ k then s.engineTrap a 0
    else if s.armed a.gang k then s.signOne a k
    else s.setAccess { a with released := true, arrived := some s.time }

/-- MARM, once the release condition holds. -/
def doMarm (s : State) (a : Access) (k : Nat) (count : Word) : State :=
  match s.gang a.gang with
  | none => s
  | some g =>
    if g.signCount ≤ k then s.accessTrap a 0x16 0 (BitVec.ofNat 64 k)
    else if s.armed a.gang k then s.engineTrap a 1
    else if count.toNat < 1 || decide (4096 < count.toNat) then s.engineTrap a 2
    else match (if a.addr.toNat % 64 == 0 then s.scratchRange (s.fibre a.fibre) a.addr 64 else none) with
      | none => s.engineTrap a 3
      | some key =>
        let card := s.mem.readBytes key 64
        if (List.range 8).any (fun i => s.lostKey (key + 8 * i)) then s.lossTrap a 2
        else if !mcardOk s a.gang (s.fibre a.fibre).wg card then s.engineTrap a 4
        else ((s.setGang { g with signs := g.signs.set k ⟨true, count.toNat, card, a.fibre, a.id⟩ }).dropAccess a.id).serveSigns a.gang k

/-! ### CPYQ, LNKQ, TGPOST -/

/-- CPYQ with its card read: the trap, or the job once the copy queue has room; the card is read once (R212). -/
def doCpyq (s : State) (a : Access) (card : List Byte) : Option State :=
  match s.gang a.gang with
  | none => none
  | some g =>
    let wg := (s.fibre a.fibre).wg
    if s.ccardBad (some a.gang) wg g.ctx card then some (s.engineTrap a 4)
    else
      let df := s.copyData (some a.gang) wg g.ctx card
      if df.1.meets df.2 then some (s.engineTrap a 5)
      else if Config.copyMax ≤ s.copyLoad g.cluster || s.jobs.any (fun j => j.kind == .copy && j.gang == some g.id && j.phase == .counted) then
        (if a.card.isSome then none else some (s.setAccess { a with card := some card }))
      else
        let j : Job :=
          { id := s.nextId, kind := .copy, cluster := g.cluster, part := g.part, ctx := g.ctx, gang := some g.id, node := none
            fibre := some a.fibre, wg := wg, prio := g.prio, card := card, phase := .queued, pos := 0, fetched := 0
            stalled := false, sat := 0, flags := 0, error := 0, ctime := 0, since := (s.cluster g.cluster).cycle, raised := none
            post := a.id }
        some ({ s with jobs := s.jobs ++ [j] }.bump.dropAccess a.id)

/-- LNKQ with its card and member table read, once (R369): the trap, or the job once the link queue has room. -/
def doLnkq (s : State) (a : Access) (card table : List Byte) : Option State :=
  match s.gang a.gang with
  | none => none
  | some g =>
    if s.lcardBad g.part (some a.gang) (s.fibre a.fibre).wg card table then some (s.engineTrap a 4)
    else if 64 ≤ s.linkLoad g.part then
      (if a.card.isSome then none else some (s.setAccess { a with card := some (card ++ table) }))
    else some ((s.postLink g.part g.ctx (some a.gang) (some a.fibre) none (s.fibre a.fibre).wg a.id card table).dropAccess a.id)

/-- TGPOST with its record read (R305): refused, staged, or handed to the front's intake. DEDUCED: log entry 17. -/
def doTgpost (s : State) (a : Access) (b : List Byte) : Option State :=
  match s.gang a.gang with
  | none => none
  | some g =>
    let r := nodeRec b
    if r.bad || r.cq then some ((s.dropAccess a.id).returns a [(a.dst, 2)])
    else if g.det && !a.sys then
      some (if s.stageFull g then s.stopLaunch g.launch 4
        else ((s.setGang { g with stagedPosts := g.stagedPosts ++ [b] }).dropAccess a.id).returns a [(a.dst, 0)])
    else if 64 ≤ (s.part g.part).intake.length then none
    else some ((s.updPart g.part (fun p => { p with intake := p.intake ++ [(b, a.id)] })).setAccess
      { a with arrived := some s.time })

/-! ### FORK, ICINV, TLBINV -/

/-- FORK's push at the head of the core's deque. -/
def doFork (s : State) (a : Access) (entry arg : DWord) : State :=
  ((s.updCore a.core (fun c => { c.setEntry c.dqCount ⟨entry, arg, a.addr⟩ with dqCount := c.dqCount + 1 })).count a.core 0x17 1).dropAccess
    a.id

/-- ICINV's invalidation over its scope. -/
def doIcinv (s : State) (a : Access) (scope : Nat) : State :=
  let inScope : Nat → Bool := fun c => match s.gang a.gang with
    | none => c == a.core
    | some g => if scope < 2 then c == a.core
      else if scope == 2 then (List.range g.size).any (fun w => g.core w == c)
      else s.clusterOwner (c / 4) == some g.part
  let drop : CoreSt → CoreSt := fun c => { c with fetch := [] }
  { s with cores := s.cores.mapIdx (fun i c => if inScope i then drop c else c) }.dropAccess a.id

/-- TLBINV selects a cached translation of an address space and a virtual range (R240). -/
def tlbSelects (p : Nat) (va : DWord) (w : Word) (part asid gen base size : Nat) : Bool :=
  part == p && (match (w.extractLsb' 20 3).toNat with
    | 0 => asid == (w.extractLsb' 0 16).toNat && gen == (w.extractLsb' 16 4).toNat && decide (base ≤ va.toNat)
        && decide (va.toNat < base + size)
    | 1 => asid == (w.extractLsb' 0 16).toNat && gen == (w.extractLsb' 16 4).toNat
    | 2 => asid == (w.extractLsb' 0 16).toNat
    | _ => true)
/-- The TLB entries, and the table pointers of walk caches, that TLBINV removes. -/
def tlbSelected (p : Nat) (va : DWord) (w : Word) (e : TlbEntry) : Bool := tlbSelects p va w e.part e.asid e.gen e.va e.size
def walkSelected (p : Nat) (va : DWord) (w : Word) (e : WalkEntry) : Bool := tlbSelects p va w e.part e.asid e.gen e.va e.size

/-- The virtual addresses that an access translates: its bytes, and for an element the byte of its bit (R256). -/
def accVas (s : State) (a : Access) : List Nat :=
  match a.op.tensor with
  | some (_, cs, _, _) => match (s.gang a.gang).bind (fun g => s.regionOf g.ctx a.addr) with
    | some r => elemVas r ((cs.take r.dims).map (·.toNat))
    | none => []
  | none => (s.accVa a).toList

/-- TLBINV's first step: the selected entries are removed, and it remembers the waiting accesses translated with them. -/
def doTlbinv (s : State) (a : Access) (w : Word) : State :=
  let p := s.partOf a.gang
  let gone := s.tlb.filter (tlbSelected p a.addr w)
  let uses : Access → Bool := fun b => match b.loc with
    | some l => (match b.phase with
        | .waiting .. => true
        | .refused => true
        | _ => false) && !l.scratch && (match (s.gang b.gang).bind (fun g => s.context g.ctx) with
      | some c => (s.accVas b).any (fun va => gone.any (fun e => e.serves c va))
      | none => false)
    | none => false
  let us := (s.accesses.filter uses).map (·.id)
  let s1 := { s with tlb := s.tlb.filter (fun e => !tlbSelected p a.addr w e)
                     walks := s.walks.filter (fun e => !walkSelected p a.addr w e) }
  if us.isEmpty then s1.dropAccess a.id else s1.setAccess { a with released := true, users := us }

/-- Whether the accesses TLBINV waits for have been performed. -/
def tlbinvDone (s : State) (a : Access) : Bool :=
  a.users.all (fun u => match s.access u with
    | some b => match b.phase with
      | .waiting .. => false
      | .refused => false
      | _ => true
    | none => true)

/-- What a held operation does once its condition is met. -/
def release (s : State) (a : Access) : Option State :=
  if a.phase != .issued then none
  else match a.op with
    | .fence e k sc => (s.fenceMet a e k sc).map (fun h => (s.updCtls [a.fibre] (fun _ c => { c with horizon := h })).dropAccess a.id)
    | .tlbinv w =>
      if a.released then (if s.tlbinvDone a then some (s.dropAccess a.id) else none)
      else if s.mayPresent a && s.releaseMet a then some (s.doTlbinv a w) else none
    | op =>
      if a.released || !op.releases || !s.mayPresent a || !s.releaseMet a then none
      else match op with
        | .marm k n => (match s.bankCore a with
          | some bank => if s.bankTurn bank (a.core % 4) then some ((s.tookBank bank (a.core % 4)).doMarm a k n) else none
          | none => some (s.doMarm a k n))
        | .sign k => some (s.doSign a k)
        | .fork e x => some (s.doFork a e x)
        | .icinv sc => some (s.doIcinv a sc)
        | _ => some (s.setAccess { a with released := true })

end State

end Sys2Proof.Machine
end

