-- ==== Sys2Proof/Machine/Home.lean ====
section
/-! DEFINITION. Sys2Proof/Machine/Home.lean: accesses at their places: home slices (R227 to R232, R240 to R244), scratch banks
(R137, R189), L1 (R138, R279), acknowledgements (R139), budgets (R144), the side log (R243), fault answers (R245, R247), layer
words (R332), monitor words (R270 to R273), trace records (R183). -/

namespace Sys2Proof.Machine

namespace State

/-- The notice an element access sends when the core presents it, one that then traps among them (R262). A coordinate register
beyond the window counts as coordinate 0. DESIGN CHOICE: log entry 83. -/
def notify (s : State) (cid : Nat) (a : Access) : State :=
  match a.op.tensor, a.noticed with
  | some (_, cs, _, _), false =>
    match s.regionOf cid a.addr with
    | some r => s.setRegion { r with notices := r.notices ++ [(a.gang, cs.take r.dims)] }
    | none => s
  | _, _ => s
/-- The core presents the element accesses that go before `a` in its region's stream: their notices go first (R262), whenever they
are performed. -/
def notifyAhead (s : State) (cid : Nat) (a : Access) : State :=
  (s.streamAhead a).foldl (fun s b => if b.op.tensor.isSome then (s.notify cid b).setAccess { b with noticed := true } else s) s

/-- The addresses an access translates, kept in the TLBs with what caches the next translations use chosen anew (R236). -/
def keepAccess (s : State) (c : Context) (a : Access) : State :=
  match a.op.tensor, s.regionOf c.id a.addr with
  | some (_, cs, _, _), some r => s.keepElems r a.op.need [(cs.take r.dims).map (·.toNat)]
  | some _, none => s
  | none, _ => s.keepVas c.id a.op.need [a.addr.toNat]

/-- The side log of a core has no room for n entries more (R243). -/
def logLacks (s : State) (core n : Nat) : Bool :=
  decide (Config.sideLogMax < (s.sideLog.filter (fun e => e.acc.core == core)).length + n)

/-- Accesses that are performed together enter the side log together (R155, R243); none while it has no room for them. -/
def logAccess (s : State) (xs : List Access) (c : Context) (answered : Bool) : Option State :=
  match xs with
  | [] => none
  | a :: _ =>
    if s.logLacks a.core xs.length then none
    else
      let log := s.sideLog ++ xs.map (fun x => { acc := x, ctx := c.id, asid := c.asid, answered := answered })
      some ((xs.foldl (fun (s : State) x => s.dropAccess x.id) { s with sideLog := log }).count a.core 0x19 xs.length)

/-- A translation fault of a fibre's access, and of those performed together with it (R155, R242, R244). -/
def accessFault (s : State) (a : Access) (xs : List Access) (c : Context) (cause gpa va : Nat) : Option State :=
  if a.op.logs then (s.logAccess xs c false).map (fun s => s.pageRequest c.id va cause gpa a.op.need.kind)
  else some ((xs.foldl (fun s x => s.setAccess { x with phase := .held, noticed := true }) s).pageRequest c.id va cause gpa a.op.need.kind)

/-! ### Performing at a home -/

/-- The access will be performed on arrival. -/
def willAct (s : State) (a : Access) (l : Loc) : Bool :=
  (s.lossCause a l).isNone && s.inBudget { a with arrived := some (a.arrived.getD s.time) } && a.op.ready (s.seenBy a l) l

/-- What the core's L1 gets from a plain load performed at the home (R138, R140). A load with P = 1, which allocates no line of L1, is
granted no lease. DESIGN CHOICE: log entry 10. -/
def l1After (s : State) (a : Access) (l : Loc) : State :=
  match a.op with
  | .load _ _ .plain =>
    if l.elem.isSome || s.onView a l || l.attr != 0 || a.policy == 3 then s
    else
      let s1 := s.count a.core 0x14 1
      if a.policy % 2 == 0 && isDevMem l.first then s1.grantLease a.core (s.partOf a.gang) (lineOf l.first) else s1
  | _ => s

/-- What the slice must read from memory before it can perform an access (R342), as a request. -/
def lineFirst (s : State) (a : Access) (l : Loc) : Option (Option State) :=
  if a.op.needsData || l.elem.isSome || s.staged a then
    (s.missing (placeKeys l)).map (fun k => s.fetchLine k (enterPolicy l.attr a.policy))
  else none

/-- An access of a core may reach a slice now (R229, R248). -/
def coreTurnAt (s : State) (p core sl : Nat) : Bool := s.inTurn sl core && s.reaches p core sl
/-- The same for every slice of a list of keys, and the turns it takes there. -/
def coreTurns (s : State) (p core : Nat) (keys : List Nat) : Bool := (s.slicesOf p keys).all (s.coreTurnAt p core)
def coreTook (s : State) (p core : Nat) (keys : List Nat) : State := (s.slicesOf p keys).foldl (fun s sl => s.tookTurn sl core) s

/-- One access at its home slice, its line there: it is performed, waits, or traps. -/
def atHome (s : State) (a : Access) (l : Loc) : Option State :=
  let p := s.partOf a.gang
  let sl := s.sliceOf p l
  if !s.coreTurnAt p a.core sl then none
  else
    let s1 := s.present a l
    some (((if s.willAct a l then s1.l1After a l else s1).touchLines (s.useOf a l) (placeKeys l)).tookTurn sl a.core)

/-- The accesses of one request at their homes, in order; each place lies in lines that the slices hold. -/
def atHomes (s : State) (c : Context) (xs : List Access) : Option State :=
  (xs.map (fun x => (x, s.find c x))).foldl (fun (acc : Option State) x => acc.bind (fun s => match x.2 with
    | .place l _ => (s.notify c.id x.1).atHome { x.1 with noticed := true } l
    | _ => none)) (some s)

/-! ### Words with a card or record in memory -/

/-- What reading n aligned bytes for a posting word gives. -/
inductive CardRead where
  /-- The bytes, their keys, and the attribute of their page. -/
  | ok (b : List Byte) (keys : List Nat) (attr : Nat)
  /-- The address is not aligned, or names no place for a card. -/
  | misplaced
  | tensor
  | lost (cause : Nat)
  | fault (cause gpa va : Nat)

/-- A card whose bytes lie at keys, read as the access sees memory. -/
def cardAt (s : State) (a : Access) (keys : List Nat) (attr : Nat) : CardRead :=
  let cs := keys.filterMap s.lostAt
  match [2, 1, 4, 0].find? (fun c => cs.contains c) with
  | some c => .lost c
  | none => .ok (keys.map (if s.staged a && !keys.any isScratch then s.view a.gang else s.mem).byte) keys attr

/-- DEDUCED: log entry 18. -/
def readCard (s : State) (a : Access) (c : Context) (addr : DWord) (n align : Nat) (scratch : Bool) : CardRead :=
  if addr.toNat % align != 0 then .misplaced
  else if addr.extractLsb' 56 8 != 0 then
    match (if scratch then s.scratchRange (s.fibre a.fibre) addr n else none) with
    | none => .misplaced
    | some key => s.cardAt a ((List.range n).map (key + ·)) 0
  else match s.vaKeys c addr.toNat .read n with
    | .error f => .fault f.1 f.2.1 f.2.2
    | .ok (_, true) => .tensor
    | .ok (keys, false) => s.cardAt a keys (match s.xlat c addr.toNat .read with
      | .ok _ attr _ _ => attr
      | _ => 0)

/-- The core's turn at the homes or the bank of a card's keys, which it has read: the data replace an L1 copy (R279), the translation
stays (R236), and a staged view's reads are tracked (R319). -/
def readAt (s : State) (a : Access) (c : Context) (addr : DWord) (keys : List Nat) (attr : Nat) : Option State :=
  let p := s.partOf a.gang
  match banksOf keys with
  | bank :: _ => if s.bankTurn bank (a.core % 4) then some (s.tookBank bank (a.core % 4)) else none
  | [] =>
    if !s.coreTurns p a.core keys then none
    else
      let s1 := (s.homeReads { part := p, ctx := some c.id, attr := attr, policy := enterPolicy attr a.policy } keys).keepVas c.id .read [addr.toNat]
      let s2 := if s.staged a then s1.trackKeys a.gang keys true false
        else ((keys.map lineOf).dedup).foldl (fun s ln => s.refreshL1 a.core ln) s1
      some (s2.coreTook p a.core keys)

/-- What stops the reading of a card: a trap at the address read, or a fault. -/
def cardStop (s : State) (a : Access) (c : Context) (addr : DWord) : CardRead → Option State
  | .misplaced => some (s.accessTrap a 0x16 3 addr)
  | .tensor => some (s.accessTrap a 0x13 0 addr)
  | .lost cause => some ((s.noteLoss (a.core / 4) cause).accessTrap a 0x1A cause addr)
  | .fault cause gpa va => s.accessFault a [a] c cause gpa va
  | .ok .. => none

/-- CPYQ, TGPOST and LNKQ read their card where it lies; one that waits for room in its queue keeps what it has read (R212, R369). A LNKQ
of a deterministic launch traps before it reads (R369). -/
def atCard (s : State) (a : Access) (c : Context) : Option State :=
  let size := if a.op == .tgpost then 64 else 128
  match a.card with
  | some b => if a.op == .lnkq then s.doLnkq a (b.take 128) (b.drop 128) else s.doCpyq a b
  | none => match s.readCard a c a.addr size size (a.op != .tgpost) with
    | .misplaced => some (s.accessTrap a 0x16 3 a.addr)
    | r =>
      if a.op == .lnkq && s.isDet a.gang then some (s.engineTrap a 6)
      else match r with
      | .ok b ks attr => (s.readAt a c a.addr ks attr).bind (fun s =>
        match a.op with
        | .cpyq => s.doCpyq a b
        | .tgpost => s.doTgpost a b
        | _ =>
          if (lcard b).kind != 2 then s.doLnkq a b []
          else
            let t := BitVec.ofNat 64 (lcard b).members
            match s.readCard a c t 64 8 true with
            | .misplaced => some (s.engineTrap a 4)
            | .ok x kt at2 => (s.readAt a c t kt at2).bind (fun s => s.doLnkq a b x)
            | r2 => s.cardStop a c t r2)
      | r => s.cardStop a c a.addr r

/-! ### Monitor and layer words -/

/-- LAYQ, LAYADV, LAYPIN at their place in a region's notice stream (R270 to R273): the notices of elements accessed before them go
first. DEDUCED: log entry 16. -/
def atMonitor (s : State) (a : Access) (c : Context) : Option State :=
  if !(s.streamAhead a).isEmpty then some (s.notifyAhead c.id a)
  else match s.regionOf c.id a.addr with
  | none => some (s.accessTrap a 0x14 0 a.addr)
  | some r =>
    if !r.notices.isEmpty || decide (r.window ≤ r.wcount) then none
    else match a.op with
      | .layq => some ((s.dropAccess a.id).returns a (pairWrites (a.dst / 2) r.record))
      | .layadv w => let x := r.advise w; some (((s.setRegion x.2).dropAccess a.id).returns a [(a.dst, BitVec.ofNat 32 x.1)])
      | .laypin w => let x := r.pin w; some (((s.setRegion x.2).dropAccess a.id).returns a [(a.dst, BitVec.ofNat 32 x.1)])
      | _ => none

/-- LAYACQ and LAYREL at the layer entry's home, in their turn there. -/
def layerTurn (s : State) (a : Access) (p : Nat) (f : State → State) : Option State :=
  let keys := (List.range 12).map (s.layerKey p (refModel a.addr) (refLayer a.addr) + ·)
  if s.coreTurns p a.core keys then some ((f (s.homeReads { part := p } keys)).coreTook p a.core keys) else none

/-- LAYACQ and LAYREL at the layer entry's home (R332); lost data of the entry trap them with no effect (R348). -/
def atLayer (s : State) (a : Access) (c : Context) (p : Nat) : State :=
  let m := refModel a.addr
  let ly := refLayer a.addr
  match s.gang a.gang with
  | none => s
  | some g => match s.launch g.launch with
    | none => s
    | some l =>
      if !s.refValid p c.id a.addr then s.accessTrap a 0x18 0 a.addr
      else match (List.range 12).findSome? (fun i => s.lostAt (s.layerKey p m ly + i)) with
      | some cause => s.lossTrap a cause
      | none => match a.op with
        | .layacq =>
          if !Launch.roomFor l m ly then s.accessTrap a 0x18 2 a.addr
          else
            let s1 := s.holdFor a.gang a.addr true
            let w := s1.residency p m ly
            let s2 := if s1.resident p m ly || w.getLsbD 40 then s1
              else (s1.setResidency p m ly (w ||| 0x10000000000)).startSwap p m ly []
            s2.present a (s2.residencyLoc p m ly)
        | _ =>
          if Launch.held l m ly == 0 then s.accessTrap a 0x18 1 a.addr
          else (s.holdFor a.gang a.addr false).dropAccess a.id

/-- PREF (R158): the line may come into L1, in the core's turn at its home; an address that would fault is dropped. -/
def atPref (s : State) (a : Access) (c : Context) : Option State :=
  let gone : State := s.dropAccess a.id
  if a.addr.extractLsb' 56 8 != 0 then some gone
  else match s.findBytes c (a.addr &&& ~~~63) 64 .read with
    | .place l _ =>
      let p := s.partOf a.gang
      if !s.coreTurns p a.core l.keys then none
      else match s.missing l.keys with
      | some k => s.fetchLine k (enterPolicy l.attr a.policy)
      | none =>
        let s1 := ((gone.touchLines (s.useOf a l) l.keys).coreTook p a.core l.keys).keepVas c.id .read [a.addr.toNat]
        some (if a.policy % 2 == 0 && l.attr == 0 && isDevMem l.first && !s.staged a && !l.keys.any s.lostKey then
          s1.grantLease a.core p (lineOf l.first) else s1)
    | _ => some gone

/-- A byte-addressed or element access at its home, with those performed together with it (R155): it enters the side log, traps, faults,
waits for its line, or is performed. -/
def memAccess (s : State) (a : Access) (c : Context) : Option State :=
  let xs := s.groupOf a
  let s1 := s.notifyAhead c.id a
  let s0 := s1.notify c.id a
  if !xs.all s.ready || (xs.head?.map (·.id)) != some a.id then none
  else if a.op.storeClass && s.logOf a false then s0.logAccess xs c true
  else match s.find c a with
    | .trap cls cause x => some (s0.accessTrap a cls cause x)
    | .fault cause gpa va => s0.accessFault a xs c cause gpa va
    | .place l _ =>
      let s2 := s1.cleanL2 (placeKeys l)
      match s2.lineFirst a l with
      | some r => r
      | none => (s2.atHomes c xs).map (fun s => (s.scanAll l).keepAccess c a)

/-- A global access, or a word carried out in memory, reaches its home. -/
def homeAccess (s : State) (a : Access) : Option State :=
  match s.gang a.gang with
  | none => none
  | some g => match s.context g.ctx with
    | none => none
    | some c =>
      if !s.ready a || a.inScratch then none
      else match a.op with
        | .layq => s.atMonitor a c
        | .layadv _ => s.atMonitor a c
        | .laypin _ => s.atMonitor a c
        | .layacq => s.layerTurn a g.part (fun s => s.atLayer a c g.part)
        | .layrel => s.layerTurn a g.part (fun s => s.atLayer a c g.part)
        | .pref => s.atPref a c
        | .cpyq => if a.addr.extractLsb' 56 8 == 0 then s.atCard a c else none
        | .lnkq => if a.addr.extractLsb' 56 8 == 0 then s.atCard a c else none
        | .tgpost => if a.arrived.isSome then none else s.atCard a c
        | op => if op.size.isSome || op.tensor.isSome then s.memAccess a c else none

/-- The access would enter the side log, which has no room (R243, R184). -/
def logFull (s : State) (a : Access) : Bool :=
  s.ready a && a.op.storeClass && !a.inScratch && s.logLacks a.core (s.groupOf a).length
    && (match (s.gang a.gang).bind (fun g => s.context g.ctx) with
      | none => false
      | some c => s.logOf a false || (a.op.logs && (match s.find c a with
        | .fault .. => true
        | _ => false)))

/-! ### Scratch banks -/

/-- Cycles a band's access loses to bank conflicts: the most distinct rows in one bank, less one (R137).
DEDUCED: log entry 12. -/
def conflicts (keys : List Nat) : Nat :=
  ((List.range 32).map (fun b => ((keys.filter (fun k => k / 8 % 32 == b)).map (· / 256)).dedup.length)).foldl max 1 - 1

/-- A scratch access, or a posting word whose card lies in scratch, reaches its bank. -/
def bankAccess (s : State) (a : Access) : Option State :=
  match s.gang a.gang with
  | none => none
  | some g => match s.context g.ctx with
    | none => none
    | some c =>
      if !s.ready a then none
      else if a.op == .cpyq || a.op == .lnkq then (if a.addr.extractLsb' 56 8 != 0 then s.atCard a c else none)
      else if !a.inScratch then none
      else match s.scratchOf (s.fibre a.fibre) a.addr with
        | .error cause => some (s.accessTrap a 0x11 cause a.addr)
        | .ok none => none
        | .ok (some key) =>
          let bank := (key - 2 ^ 52) / 2 ^ 19
          let all := s.groupOf a
          -- the lanes of one BARW that may be performed now form one request at the row (R137)
          let xs := match a.op with
            | .barw _ => all.filter s.ready
            | _ => all
          if !xs.all s.ready || (xs.head?.map (·.id)) != some a.id || !s.bankTurn bank (a.core % 4) then none
          else
            let keyOf : Access → Option Nat := fun b => match s.scratchOf (s.fibre b.fibre) b.addr with
              | .ok k => k
              | .error _ => none
            let own := (s.accesses.filter (fun b => b.batch == a.batch && b.inScratch)).filterMap keyOf
            let s0 := if a.id == a.batch then s.count a.core 0x15 (conflicts (own.filter (fun k => (k - 2 ^ 52) / 2 ^ 19 == a.core))) else s
            let s1 := xs.foldl (fun s b => match keyOf b with
              | some k => s.present b (.ofBytes k (b.op.size.getD 8) 0)
              | none => s) s0
            some ((s1.tookBank bank (a.core % 4)).scanAll (.ofBytes key (a.op.size.getD 8) 0))

/-! ### L1 -/

/-- An unacknowledged store-class access of a core, wherever it stands, is to a line (R279), by where its address leads now: one whose
translation does not allow the store leads where a load of the address leads. -/
def storesTo (s : State) (b : Access) (ln : Nat) : Bool :=
  let on : Loc → Bool := fun l => !l.scratch && (placeKeys l).any (fun k => lineOf k == ln)
  b.op.storeClass && !b.inScratch && (match b.phase with
    | .kept _ => false
    | _ => match b.loc with
      | some l => on l
      | none => match (s.gang b.gang).bind (fun g => s.context g.ctx) with
        | none => false
        | some c => match s.find c b, s.findFor c b .read with
          | .place l _, _ => on l
          | .fault .., .place l _ => on l
          | _, _ => false)

/-- The copy of an address's line that serves a core's plain loads: its lease has not run out, and none of the core's store-class
accesses to the line is unacknowledged (R138, R279). -/
def l1Hit (s : State) (core a : Nat) : Option L1Line :=
  let ln := lineOf a
  if s.accesses.any (fun b => b.core == core && s.storesTo b ln) || s.sideLog.any (fun e => e.acc.core == core && s.storesTo e.acc ln) then none
  else s.l1.find? (fun x => x.core == core && x.line == ln && decide (s.time < x.expiry))

/-- A plain load that finds its line in L1 is performed there (R138). -/
def l1Access (s : State) (a : Access) : Option State :=
  match a.op, s.gang a.gang with
  | .load n sx .plain, some g =>
    match s.context g.ctx with
    | none => none
    | some c =>
      if !s.ready a || a.inScratch || a.policy == 3 || s.staged a then none
      else match s.find c a with
        | .place l _ =>
          if l.attr != 0 then none
          else match s.l1Hit a.core l.first with
            | none => none
            | some x =>
              let v := natOfBytes ((List.range n).map (fun i => x.data.getD (l.first % 64 + i) 0))
              some ((((s.dropAccess a.id).returns a (loadWrites a.dst n sx v)).count a.core 0x13 1).keepAccess c a)
        | _ => none
  | _, _ => none

/-- Whether a load must be performed in L1. -/
def hitsL1 (s : State) (a : Access) : Bool := (s.l1Access a).isSome

/-! ### Acknowledgements, budgets, the side log -/

/-- A home's acknowledgement arrives (R139): %HORIZON, and the launch's own latest completion time. -/
def acknowledge (s : State) (a : Access) (t : Nat) : State :=
  let s1 := if s.owns a.fibre a && (s.fibre a.fibre).live then
    s.updCtls [a.fibre] (fun _ c => { c with horizon := BitVec.ofNat 64 (max c.horizon.toNat t) }) else s
  (s1.joinLaunch a.gang t).dropAccess a.id

/-- The cause of the timeout trap (R148). -/
def timeoutCause : AOp → Nat
  | .load _ _ .consuming => 2
  | .ldt .consuming .. => 2
  | .store .. => 3
  | .stt .. => 3
  | .sign _ => 8
  | .layacq => 9
  | .barw _ => 10
  | _ => 1

/-- The entries of the side log that are performed together with an entry (R155). -/
def logGroup (s : State) (e : LogEntry) : List LogEntry :=
  if e.acc.op.together then s.sideLog.filter (fun x => x.acc.batch == e.acc.batch && x.acc.op.together && s.sameWord x.acc e.acc) else [e]

/-- A side-log entry, with those performed together with it, is translated again and performed (R243), in its core's place in a round
(R314). -/
def replay (s : State) (e : LogEntry) : Option State :=
  match s.context e.ctx with
  | none => none
  | some c =>
    let xs := s.logGroup e
    let ids := xs.map (·.acc.id)
    let as := xs.map (fun x => { x.acc with phase := .issued, released := true })
    let a := { e.acc with phase := .issued, released := true }
    if ids.head? != some a.id || s.roundHolds a then none
    else match s.find c a with
    | .trap cls cause x => some ({ s with sideLog := s.sideLog.filter (fun x => x.acc.id != a.id) }.accessTrap a cls cause x)
    | .fault cause gpa va =>
      let upd : LogEntry → LogEntry := fun x => if ids.contains x.acc.id then { x with answered := false } else x
      some ({ s with sideLog := s.sideLog.map upd }.pageRequest c.id va cause gpa a.op.need.kind)
    | .place l _ =>
      let s1 := s.cleanL2 (placeKeys l)
      match s1.lineFirst a l with
      | some r => r
      | none => (({ s1 with sideLog := s.sideLog.filter (fun x => !ids.contains x.acc.id), accesses := as ++ s.accesses } : State).atHomes c as).map (fun s2 =>
          (s2.scanAll l).keepAccess c a)

/-- Entries that must go before an entry of a core's log. -/
def logTurn (s : State) (e : LogEntry) : Bool :=
  (s.sideLog.takeWhile (fun x => x.acc.id != e.acc.id)).all (fun x =>
    x.acc.core != e.acc.core || (!x.answered && ((s.accVa x.acc).map (· / 65536)) != ((s.accVa e.acc).map (· / 65536))))

/-! ### Trace records (R183) -/

/-- A trace record is written at its home, in its core's turn there (R183, R229). One whose address stage 2 refuses is not written, and
TRHEAD passes it. DESIGN CHOICE: log entry 79. -/
def writeTrace (s : State) (id : Nat) : Option State :=
  (List.range Config.cores).findSome? (fun core =>
    let c := s.core core
    match c.trq.find? (fun r => r.ctime.isNone) with
    | none => none
    | some r =>
      if r.id != id then none
      else
        let p := (s.clusterOwner (core / 4)).getD 0
        let done : Nat → CoreSt → CoreSt := fun t x => { x with trq := x.trq.map (fun y => if y.id == id then { y with ctime := some t } else y) }
        match s.gpKeys p (c.trbase.toNat + 32 * r.index) 2 32 with
        | some ks =>
          if s.coreTurns p core ks then
            some ((((s.putAt { part := p } ks r.data).coreTook p core ks).scanKeys ks).updCore core (done (max s.time (s.leasesOf ks))))
          else none
        | none => some (s.updCore core (done s.time)))

/-- TRHEAD passes the oldest record once its write is acknowledged and its completion time has passed. -/
def ackTrace (s : State) (id : Nat) : Option State :=
  (List.range Config.cores).findSome? (fun core =>
    let c := s.core core
    match c.trq with
    | [] => none
    | r :: rest => match r.ctime with
      | none => none
      | some t => if r.id == id && decide (t ≤ s.time) then
          some (s.updCore core (fun x => { x with trq := rest, trhead := (x.trhead + 1) % 2 ^ (x.trsize.toNat % 32) })) else none)

/-! ### Fault answers (R245, R247) -/

/-- The 64 KiB frames of the page of a context that holds an address, whatever its permissions: their numbers in the page and their
host physical addresses, through each stage-2 range (R237). -/
def pageFrames (s : State) (c : Context) (va : Nat) : List (Nat × Nat) :=
  match s.walk c va 0 levelShifts c.root with
  | .ok _ _ _ e => (List.range (e.size / 65536)).filterMap (fun i =>
      ((s.part c.part).range (e.gpa + 65536 * i)).map (fun x => (i, s.forward ((e.gpa + 65536 * i + x.offset.toNat) % 2 ^ 52))))
  | _ => []

/-- The bits of a page just filled: from the tag area, or all full. DEDUCED: log entry 20. -/
def loadTags (s : State) (c : Context) (va tag : Nat) : State :=
  let fs := s.pageFrames c va
  let frames := fs.map (·.2)
  let area := if tag == 0 then [] else (fs.map (fun f => (List.range 32).map (fun i => tag + 1024 * f.1 + 32 * i))).flatten
  let m :=
    if tag == 0 then s.mem.filled (fun a => frames.contains (a / 65536 * 65536))
    else fs.foldl (fun m f => (List.range 8192).foldl (fun m i =>
      m.setFull (f.2 / 8 + i) ((s.mem.byte (tag + 1024 * f.1 + i / 8)).getLsbD (i % 8))) m) s.mem
  State.framesWrote { s.frontReads { part := c.part } area with mem := m } c.part (some c.id) frames

/-- A mapped answer: held accesses are presented again, replay starts, stalled jobs and swap-ins go on. -/
def answerMapped (s : State) (c : Context) : State :=
  let inCtx : Nat → Bool := fun gid => match s.gang gid with
    | some g => g.ctx == c.id
    | none => false
  let acc : Access → Access := fun a => if a.phase == .held && inCtx a.gang then { a with phase := .issued } else a
  let log : LogEntry → LogEntry := fun e => if e.ctx == c.id then { e with answered := true } else e
  let job : Job → Job := fun j => if j.ctx == c.id then { j with stalled := false } else j
  let band : Band → Band := fun b => if b.park == .fetch && inCtx b.gang then { b with park := .none } else b
  let swap : Swap → Swap := fun w => if w.stallRange.any (fun x => x.1 == c.id) then { w with stallRange := none } else w
  State.updPart { s with accesses := s.accesses.map acc, sideLog := s.sideLog.map log, jobs := s.jobs.map job, bands := s.bands.map band }
    c.part (fun pt => { pt with swaps := pt.swaps.map swap })

/-- The front takes an answer: a status code other than 0 counts as failed, and nonzero bits [63:16] of the status are ignored.
DESIGN CHOICE: log entry 79. -/
def answer (s : State) (p : Nat) (tag status area : DWord) : State :=
  let number := (tag.extractLsb' 32 32).toNat
  match s.contexts.find? (fun c => c.part == p && c.live && c.ctxidWord == tag.extractLsb' 0 32) with
  | none => s
  | some c => match c.requests.find? (fun r => r.number == number) with
    | none => s
    | some r =>
      let s1 := s.setContext { c with requests := c.requests.filter (fun x => x.number != number) }
      if status.extractLsb' 0 8 == 0 then
        -- the tag area or the default is loaded for the range of the request
        (s1.loadTags c (r.range * 65536) area.toNat).answerMapped c
      else
        let cause := (status.extractLsb' 8 8).toNat
        -- a swap-in's own read fails it and ends nothing else (R333); other accesses to the range are tried again
        let reads := (s.part p).swaps.filter (fun w => w.stage == 1 && w.cause == 0 && w.stallRange == some (c.id, r.range))
        if reads.isEmpty then s1.endContext c.id 2 cause
        else (s1.updPart p (fun pt => { pt with swaps := pt.swaps.map (fun w =>
          if w.stallRange == some (c.id, r.range) then { w with cause := 1, stallRange := none } else w) })).answerMapped c

end State

/-- HOME_REQUEST (R229): a home slice performs a request, or first reads its line. -/
def execHomeRequest (id : Nat) (s : State) : Host.Outcome State Fault Refusal :=
  evPort "HOME_REQUEST" (match s.access id with
    | some a => if s.hitsL1 a then none else s.homeAccess a
    | none => s.writeTrace id)

/-- BANK_ACCESS (R137): a scratch bank performs a request. -/
def execBankAccess (id : Nat) (s : State) : Host.Outcome State Fault Refusal :=
  evPort "BANK_ACCESS" ((s.access id).bind s.bankAccess)

/-- WAIT_REPRESENT (R231): a refused waiting access is presented again in its core's turn at the slice. -/
def execWaitRepresent (id : Nat) (s : State) : Host.Outcome State Fault Refusal :=
  evPort "WAIT_REPRESENT" (match s.access id with
    | none => none
    | some a => match a.phase, a.loc with
      | .refused, some l =>
        let p := s.partOf a.gang
        let sl := s.sliceOf p l
        let s1 := s.cleanL2 (State.placeKeys l)
        if !s.coreTurnAt p a.core sl then none
        else match s1.lineFirst a l with
          | some r => r
          | none => some ((((s1.present a l).touchLines (s.useOf a l) (State.placeKeys l)).tookTurn sl a.core).scanAll l)
      | _, _ => none)

/-- STORE_ACKNOWLEDGEMENT (R139): an acknowledgement arrives and raises %HORIZON. -/
def execStoreAcknowledgement (id : Nat) (s : State) : Host.Outcome State Fault Refusal :=
  ev "STORE_ACKNOWLEDGEMENT" (match s.access id with
    | some a => match a.phase with
      | .performed t => some (s.acknowledge a t)
      | _ => none
    | none => s.ackTrace id)

/-- L1_LEASE_EXPIRY (R138): a copy whose lease has run out leaves L1. -/
def execL1LeaseExpiry (core line : Nat) (s : State) : Host.Outcome State Fault Refusal :=
  ev "L1_LEASE_EXPIRY" (if s.l1.any (fun x => x.core == core && x.line == line && decide (x.expiry ≤ s.time)) then
    some { s with l1 := s.l1.filter (fun x => !(x.core == core && x.line == line)) } else none)

/-- RELEASE_CONDITION_MET (R149): a held operation goes on. -/
def execReleaseConditionMet (id : Nat) (s : State) : Host.Outcome State Fault Refusal :=
  evPort "RELEASE_CONDITION_MET" ((s.access id).bind s.release)

/-- FE_TIMEOUT (R144): a waiting access's budget has run out. -/
def execFeTimeout (id : Nat) (s : State) : Host.Outcome State Fault Refusal :=
  evPort "FE_TIMEOUT" (match s.access id with
    | none => none
    | some a => match a.arrived with
      | none => none
      | some t =>
        if a.op.waits && a.budget != 0 && decide (t + a.budget ≤ s.time) && a.unperformed && a.phase != .held then
          some ((s.dropAcquire a).accessTrap a 0x12 (State.timeoutCause a.op) a.addr)
        else none)

/-- SIDE_LOG_REPLAY (R243): an answered side-log entry is translated again and performed at its home. -/
def execSideLogReplay (id : Nat) (s : State) : Host.Outcome State Fault Refusal :=
  evPort "SIDE_LOG_REPLAY" (match s.sideLog.find? (fun e => e.acc.id == id) with
    | none => none
    | some e => if e.answered && s.logTurn e then s.replay e else none)

/-- FAULT_ANSWER (R245): the front takes an answer record. -/
def execFaultAnswer (part : Nat) (tag status tagArea : DWord) (s : State) : Host.Outcome State Fault Refusal :=
  evPort "FAULT_ANSWER" (if s.serving part then some (s.answer part tag status tagArea) else none)

/-- Writes a result into its fibre (R25, R103). -/
def Fibre.receive (r : Result) (f : Fibre) : Fibre :=
  let f1 := f.setRegs r.writes
  let f2 := r.preds.foldl (fun f p => f.setPred p.1 p.2.1 p.2.2) f1
  let en := r.flags &&& f.ctl.trapen
  { f2 with ctl := { f2.ctl with
      exc := f.ctl.exc ||| r.flags
      due := f.ctl.due ++ r.trap.toList ++ (if en != 0 then [{ cls := 4, cause := en.toNat, pc := r.pc, addr := 0, flags := en }] else []) } }

/-- An XU word issued earlier by the band of a result, with which it shares a lane, has not delivered yet (R126).
DEDUCED: log entry 83. -/
def State.xuBehind (s : State) (r : Result) : Bool :=
  r.xu && s.results.any (fun x => x.xu && decide (x.batch < r.batch) && x.lanes.any (fun k => r.lanes.contains k))

/-- VARIABLE_RESULT_RETURN (R25): a result arrives in its register or predicate; XU results of a band arrive in issue order
(R126). A plain load that hits in L1 is performed there and its value goes on its way (R138). -/
def execVariableResultReturn (id : Nat) (s : State) : Host.Outcome State Fault Refusal :=
  evPort "VARIABLE_RESULT_RETURN" (match s.results.find? (fun r => r.id == id) with
    | some r =>
      if s.xuBehind r then none
      else
        let rest := s.results.filter (fun x => x.id != id)
        some ({ s with results := rest }.updFibre r.fibre (Fibre.receive r))
    | none => (s.access id).bind s.l1Access)

end Sys2Proof.Machine
end

