-- ==== Sys2Proof/Machine/Preempt.lean ====
section
/-! DEFINITION. Sys2Proof/Machine/Preempt.lean: what stands waiting behind what, pre-emption (R145, R173, R322) and
deterministic rounds (R314). -/

namespace Sys2Proof.Machine
namespace State

/-! ### Deterministic rounds (R314) -/

/-- A band of a deterministic gang waits in an F/E or barrier list, on a LAYACQ, at a meeting or on a sign register. -/
def bandWaits (s : State) (b : Band) : Bool :=
  let waits : Nat → Bool := fun k => s.outstanding k && !s.results.any (fun r => r.fibre == k)
    && s.accesses.all (fun a => a.fibre != k || !a.outstanding || a.splits || (s.standing b.gang Access.roundWait).any (fun x => x.id == a.id))
  b.park == .meeting || (b.park == .marker && b.members.all waits)
    || (b.park == .gather && b.members.any waits && b.members.all (fun k => waits k || !s.outstanding k))

/-- Turn order: crew, lowest live lane. -/
def turnKey (s : State) (b : Band) : Nat := 64 * b.crew + ((b.members.map (fun k => (s.fibre k).lane)).foldl min 63)

/-- The bands of a core of a gang that take turns, in turn order from the one after the rotation pointer (R314, R322). -/
def turnOrder (s : State) (g : Gang) (c : Nat) : List Band :=
  let bs := s.bands.filter (fun b => b.gang == g.id && (match b.members with
    | k :: _ => s.coreOf k == c && !(s.fibre k).ctl.v
    | [] => false))
  let ptr := 64 * (s.core c).rotCrew + (s.core c).rotLane
  let srt := (sortBy (fun i => s.turnKey (bs.getD i ⟨0, 0, 0, [], .none⟩)) (List.range bs.length)).filterMap (fun i => bs[i]?)
  srt.filter (fun b => decide (ptr < s.turnKey b)) ++ srt.filter (fun b => decide (s.turnKey b ≤ ptr))

/-- The current round of a gang has ended: every core has taken its turn, and every access of the gang has been performed,
staged, or waits in a list, on a register or behind one that does. -/
def roundEnded (s : State) (g : Gang) : Bool :=
  let st := s.standing g.id Access.roundWait
  (List.range g.size).all (fun w => g.turns.contains (g.core w)) && s.issue.gang != g.id
    && s.accesses.all (fun a => a.gang != g.id || a.sys || st.any (fun x => x.id == a.id) || (match a.phase with
      | .performed _ => true
      | .kept _ => true
      | _ => match a.op with
        | .fence .. => true
        | _ => false))
    && s.sideLog.all (fun e => e.acc.gang != g.id || e.acc.sys)

/-! ### Pre-emption (R173) -/

/-- Step 1 of R173 is done: no group is in progress, the system handlers have returned, and the round of a deterministic
gang has ended (R322). -/
def issueStopped (s : State) (g : Gang) : Bool :=
  (s.liveOf g.id).all (fun k => !(s.fibre k).ctl.v && !(s.fibre k).ctl.restored) && s.issue.gang != g.id && (!g.det || s.roundEnded g)

/-- Step 3 of R173 is done: nothing of the gang is under way but what is withdrawn or stands behind it, or behind a command of a SIGN
that is posted again (R192, R339), and no band that has its results is left at a switch marker. -/
def drained (s : State) (g : Gang) : Bool :=
  let ks := s.liveOf g.id
  let st := s.standing g.id (fun a => a.withdrawable || a.engFence || a.isKept || (a.op.posting && s.signPending a.fibre))
  !s.results.any (fun r => ks.contains r.fibre)
    && s.accesses.all (fun a => a.gang != g.id || st.any (fun x => x.id == a.id))
    && !s.sideLog.any (fun e => e.acc.gang == g.id)
    && !s.jobs.any (fun j => j.gang == some g.id && (j.phase == .running || j.phase == .complete))
    && s.bands.all (fun b => b.gang != g.id || (s.leavers b).isEmpty)

/-- The pending-access record of a withdrawn access (R175). DESIGN CHOICE: log entry 55. -/
def pendRecord (s : State) (a : Access) (c : Ctl) : Ctl :=
  let ctx := match s.gang a.gang with
    | some g => g.ctx
    | none => 0
  let lin : List Word → Nat := fun cs => match s.regionOf ctx a.addr with
    | some r => r.linear (cs.map (·.toNat))
    | none => 0
  let sv := a.op.saved lin
  { c with pendAcc := true, accWord := a.word, accAddr := a.addr, accExtra := BitVec.ofNat 32 sv.1
           accData := (List.range 4).map (fun i => BitVec.ofNat 32 (sv.2 / 2 ^ (32 * i))) }

/-- Withdraws the waits of a gang with no effect (R173 step 2): the first of a fibre goes into its record, and the others are
kept. DESIGN CHOICE: log entry 55. -/
def withdraw (s : State) (g : Gang) : State :=
  let ks := s.liveOf g.id
  let now := s.accesses.filter (fun a => a.gang == g.id && a.withdrawable)
  let firsts : List Access := ks.filterMap (fun k => if s.withdrawn k then none else now.find? (fun (a : Access) => a.fibre == k))
  let s1 := now.foldl (fun s a => s.dropAcquire a) s
  let keep : Access → Access := fun a => if now.any (fun x => x.id == a.id) then
      { a with phase := .kept (firsts.any (fun x => x.id == a.id)), arrived := none, loc := none, noticed := false, released := false }
    else a
  State.updCtls { s1 with accesses := s1.accesses.map keep } (firsts.map (fun (a : Access) => a.fibre)) (fun k c =>
    match firsts.find? (fun (a : Access) => a.fibre == k) with
    | some a => s.pendRecord a c
    | none => c)

/-- Steps 1 and 2 of R173 are done. -/
def startDrain (s : State) (g : Gang) : State :=
  let g1 := { g with phase := .draining }
  ((s.updCtls (s.liveOf g.id) (fun _ c => { c with pendAcc := false })).setGang g1).withdraw g1

/-- Step 4 of R173: a trap due at a switch marker not yet passed is pending (P, index 71, R176); the model keeps its PC and address,
with which an uninterrupted run would take it (R178). DEDUCED: log entry 55. -/
def pendTraps (c : Ctl) : Ctl :=
  match c.due with
  | [] => c
  | x :: rest =>
    let t := rest.foldl (fun b y => if y.pc.toNat < b.pc.toNat then y else b) x
    if c.pendTrap then { c with due := [] }
    else { c with due := [], pendTrap := true, pendCause := tcauseWord t.cls t.cause t.orig, pendAt := some (t.pc, t.addr) }

/-- Steps 4 and 5 of R173 for a drained gang; a gang with no live fibre is saved at once. A fibre stopped at its END.J issues
it again. -/
def enterSave (s0 : State) (g : Gang) : State :=
  let s := s0.withdraw g
  let ks := s.liveOf g.id
  let ending := ks.filter (fun k => (s.fibre k).ctl.after == .endF)
  let rest := s.accesses.filter (fun a => a.gang != g.id || !(a.phase == .kept true || (ending.contains a.fibre && a.op == .dec)))
  let s3 : State := { s with accesses := rest.map (fun a => if a.gang == g.id then { a with phase := .kept false } else a) }
  let s4 := s3.updCtls ks (fun _ c =>
    let c2 := pendTraps c
    match c.after with
    | .rett pc _ => { c2 with pkt := pc - BitVec.ofNat 64 (4 * ((pc - g.codeBase).toNat % 12 / 4)), slot := (pc - g.codeBase).toNat % 12 / 4, after := .next }
    | _ => { c2 with after := .next })
  let s5 := s4.setGang { g with phase := .saving }
  match ks with
  | [] => s5.gangSaved g.id
  | _ :: _ => (ks.map (fun k => (s4.fibre k).crew)).dedup.foldl (fun s cr =>
      let band := ks.filter (fun k => (s4.fibre k).crew == cr)
      let pcs := (band.map (fun k => (s4.fibre k).ctl.pc)).dedup
      pcs.foldl (fun s pc =>
        let m := sortBy (fun k => (s4.fibre k).idx) (band.filter (fun k => (s4.fibre k).ctl.pc == pc))
        s.takeTrap (m.map (fun k => (k, { cls := 0x40, cause := 0, pc := pc, addr := 0, flags := 0 }, pc))) none 0) s) s5

end State

/-- PREEMPT_TRAP (R173): once no more groups of the gang issue its waits are withdrawn (step 2); once its results and jobs
have drained every live fibre takes class 0x40 (step 5). -/
def execPreemptTrap (gang : Nat) (s : State) : Host.Outcome State Fault Refusal :=
  ev "PREEMPT_TRAP" (match s.gang gang with
    | none => none
    | some g =>
      if g.phase == .preempting && s.issueStopped g then some (s.startDrain g)
      else if g.phase == .draining && s.drained g then some (s.enterSave g) else none)

/-- DET_ROUND (R314): the previous round has ended, and each core of the gang may take its next turn. -/
def execDetRound (gang : Nat) (s : State) : Host.Outcome State Fault Refusal :=
  ev "DET_ROUND" (match s.gang gang with
    | none => none
    | some g => if g.det && g.phase == .resident && s.roundEnded g then
        some (s.setGang { g with round := g.round + 1, turns := [] }) else none)

end Sys2Proof.Machine
end

