-- ==== Sys2Proof/Machine/Sched.lean ====
section
/-! DEFINITION. Sys2Proof/Machine/Sched.lean: bands and the core's scheduler (R17, R26, R76 to R78, R83 to R88, R168,
R179, R184, R240, R314), soft errors (R346), the passing of time (R9, R356), and the events of a band. -/

namespace Sys2Proof.Machine

namespace State

/-- The fibre of a band's lowest lane. -/
def leadOf (s : State) (b : Band) : Fibre := s.fibre (b.members.headD 0)
/-- The device core of a band. -/
def bandCore (s : State) (b : Band) : Nat := s.coreOf (b.members.headD 0)

/-- A deterministic gang's fibres outside the system handler issue only in their core's turn (R314, R322). -/
def rotates (s : State) (b : Band) : Bool := s.isDet b.gang && !(s.leadOf b).ctl.v

/-- Its gang runs, or the band is in the system handler of a gang that is being pre-empted, saved or restored (R173,
R177, R178), or it belongs to the round under way of a deterministic gang that is being pre-empted (R322). -/
def canRun (s : State) (b : Band) : Bool :=
  match s.gang b.gang with
  | none => false
  | some g => match g.phase with
    | .resident => true
    | .preempting => if (s.leadOf b).ctl.v then b.members.all (fun k => !(s.fibre k).ctl.restored)
        else g.det && (List.range g.size).any (fun w => !g.turns.contains (g.core w))
    | .saving => (s.leadOf b).ctl.v
    | .restoring => (s.leadOf b).ctl.v && b.members.all (fun k => !(s.fibre k).ctl.restored)
    | _ => false

/-- An ICINV or TLBINV of a member is not done: the fibre issues no later group (R179, R240). -/
def holdsIssue (s : State) (b : Band) : Bool :=
  s.accesses.any (fun a => b.members.contains a.fibre && !a.isKept && (match a.op with
    | .icinv _ => true
    | .tlbinv _ => true
    | _ => false))

/-- The fetched packet at a band's PC (R17). -/
def bandCopy (s : State) (b : Band) : Option FetchCopy :=
  let f := s.leadOf b
  match s.gang b.gang with
  | none => none
  | some g => (s.core (s.bandCore b)).fetch.find? (fun c => c.ctx == g.ctx && c.sys == f.ctl.v && c.pkt == f.ctl.pkt)

/-- The instructions of the group at a band's PC. -/
def bandGroup (s : State) (b : Band) : List Instr :=
  match s.bandCopy b with
  | some c => groupInstrs (groupWords c.words 3 (s.leadOf b).ctl.slot)
  | none => []

/-- Deque entries that a group of the band would push (R168). -/
def forkNeed (s : State) (ks : List Nat) (is : List Instr) : Nat :=
  (is.map (fun i => match i with
    | .fork h _ _ _ => (ks.filter (fun k => (s.fibre k).guard h.g)).length
    | _ => 0)).foldl (· + ·) 0
/-- Room of a core's deque beside the entries under way. -/
def dequeRoom (s : State) (core : Nat) : Nat :=
  256 - (s.core core).dqCount - (s.accesses.filter (fun a => a.core == core && !a.isKept && (match a.op with
    | .fork .. => true
    | _ => false))).length

/-- The band waits for deque room. -/
def forkWaits (s : State) (b : Band) : Bool :=
  decide (s.dequeRoom (s.bandCore b) < s.forkNeed b.members (s.bandGroup b))

/-- Four cycles have passed since the last group of every member (R76, R78). -/
def bandSpaced (s : State) (b : Band) : Bool :=
  b.members.all (fun k => decide ((s.fibre k).ctl.readyAt ≤ s.cycle (s.bandCore b)))

/-- An access of a member would enter the side log, which is full: the fibre stalls until an entry frees (R243). -/
def logStalled (s : State) (b : Band) : Bool := s.accesses.any (fun a => b.members.contains a.fibre && s.logFull a)

/-- Eligible (R78): not parked, four cycles after its last group, and free to issue. -/
def bandEligible (s : State) (b : Band) : Bool :=
  (b.park == .none || b.park == .meeting) && s.canRun b && !s.holdsIssue b && s.bandSpaced b && !s.logStalled b

/-- Two bands may merge: of one crew, at one PC, with one privilege (R77). -/
def samePlace (s : State) (a b : Band) : Bool :=
  a.gang == b.gang && a.crew == b.crew && (s.leadOf a).ctl.pc == (s.leadOf b).ctl.pc && (s.leadOf a).ctl.v == (s.leadOf b).ctl.v

/-- The eligible bands that issue together with b. DEDUCED: log entry 23. -/
def mergeOf (s : State) (b : Band) : List Band := s.bands.filter (fun x => s.samePlace b x && s.bandEligible x)
/-- The fibres of a list of bands, by lane. -/
def fibresOf (s : State) (bs : List Band) : List Nat := sortBy (fun k => (s.fibre k).idx) ((bs.map (·.members)).flatten)

/-- Every live fibre of the crew is at this meeting (R85). -/
def meetingReady (s : State) (b : Band) : Bool :=
  let ks := s.fibresOf (s.mergeOf b)
  (s.liveCrew b.gang b.crew).all (fun k => ks.contains k)

def isMeetingBand (s : State) (b : Band) : Bool := (s.bandGroup b).any (·.isMeeting)

/-- A band that may issue its group now. -/
def canIssue (s : State) (b : Band) : Bool :=
  s.issue.lanes.isEmpty && (s.core (s.bandCore b)).issued.isNone && s.bandEligible b && (s.bandCopy b).isSome
    && (if s.isMeetingBand b then s.meetingReady b
        else decide (s.forkNeed (s.fibresOf (s.mergeOf b)) (s.bandGroup b) ≤ s.dequeRoom (s.bandCore b)))

/-- The round-robin gives the turn to the band that issued longest ago (R78). -/
def hasTurn (s : State) (b : Band) : Bool :=
  s.bands.all (fun x => s.bandCore x != s.bandCore b || decide (b.bid ≤ x.bid) || !s.canIssue x
    || s.rotates x)

/-- Issues the group at a band's PC for every band that merges with it (R21, R22, R77). -/
def issueGroup (s : State) (b : Band) : State :=
  match s.bandCopy b with
  | none => s
  | some c =>
    let ks := s.fibresOf (s.mergeOf b)
    let f := s.leadOf b
    let core := s.bandCore b
    let is : Issue :=
      { gang := b.gang, core := core, crew := b.crew, lanes := ks, pkt := f.ctl.pkt, words := c.words, slot := f.ctl.slot
        first := f.ctl.slot, src := ks.map (fun k => (k, s.fibre k)), reqs := [], marker := false, meeting := s.isMeetingBand b }
    { s with issue := is }.updCore core (fun x => { x with issued := some (ks.headD 0, f.ctl.pc) })

/-- A band that has reached a meeting whose crew is not complete parks (R85). -/
def parksAtMeeting (s : State) (b : Band) : Bool :=
  b.park == .none && s.bandEligible b && s.isMeetingBand b && !s.meetingReady b

/-- A band parks at its meeting, or, outside a deterministic rotation, issues as its core lets it. -/
def tryIssue (s : State) (b : Band) : Option State :=
  if s.parksAtMeeting b then
    let upd : Band → Band := fun x => if x.bid == b.bid then { x with park := .meeting } else x
    some { s with bands := s.bands.map upd }
  else if s.rotates b then none
  else if s.canIssue b && s.hasTurn b then some (s.issueGroup b) else none

/-! ### Turns of a deterministic gang (R314) -/

/-- A band waits in the sense of R314. -/
def turnWaits (s : State) (b : Band) : Bool :=
  (s.bandWaits b && !(s.isMeetingBand b && s.meetingReady b)) || s.parksAtMeeting b || (b.park == .none && s.forkWaits b)

/-- The turn of a core: the first band in turn order that does not wait issues, once it can; a waiting band is passed only
when every job of the gang has completed. -/
def takeTurn (s : State) (g : Gang) (core : Nat) : List Band → Option State
  | [] => some (s.setGang { g with turns := g.turns ++ [core] })
  | b :: rest =>
    if s.turnWaits b then
      if s.jobs.any (fun j => j.gang == some g.id) then none else s.takeTurn g core rest
    else if s.canIssue b then
      let lane := ((b.members.map (fun k => (s.fibre k).lane)).foldl min 63)
      let s1 := (s.issueGroup b).setGang { g with turns := g.turns ++ [core] }
      some (s1.updCore core (fun c => { c with rotCrew := b.crew, rotLane := lane }))
    else none

/-- A core of a deterministic gang takes its turn of the round. -/
def coreTurn (s : State) (gid core : Nat) : Option State :=
  if !s.issue.lanes.isEmpty then none
  else match s.gang gid with
    | none => none
    | some g =>
      if g.det && (g.phase == .resident || g.phase == .preempting) && !g.turns.contains core && (List.range g.size).any (fun w => g.core w == core) then
        s.takeTurn g core (s.turnOrder g core)
      else none

/-! ### Time, and the stall histogram (R9, R78, R184, R356) -/

/-- The bucket of a number of eligible bands. -/
def bucket (n : Nat) : Nat := if n ≤ 3 then n else if n ≤ 7 then 4 else if n ≤ 15 then 5 else 6

/-- A band that may issue but for the round-robin and the turns of R314; at a meeting, once the crew is complete. -/
def countsEligible (s : State) (b : Band) : Bool :=
  s.bandEligible b && (s.bandCopy b).isSome && (if s.isMeetingBand b then s.meetingReady b else b.park == .none && !s.forkWaits b)

/-- An access that the side log has no room for, or that a translation fault holds (R184, R243). -/
def replayWait (s : State) (a : Access) : Bool := a.phase == .held || s.logFull a

/-- The stall reason of a band, 1 to 10 in table order. DEDUCED: log entry 25. -/
def stallReason (s : State) (b : Band) : Option Nat :=
  let as := s.accesses.filter (fun a => b.members.contains a.fibre && a.outstanding)
  let has : (Access → Bool) → Bool := fun p => as.any p
  match b.park with
  | .none =>
    if s.holdsIssue b then some 8
    else if s.logStalled b then some 7
    else if !s.bandSpaced b then none
    else if (s.bandCopy b).isNone then some 8
    else if s.parksAtMeeting b then some 10
    else if s.forkWaits b then some 6 else none
  | .meeting => some 10
  | .fetch => some 8
  | .yielded .. => none
  | .saved => none
  | .marker | .gather =>
    if s.holdsIssue b then some 8
    else if has s.replayWait then some 7
    else if has (fun a => (match a.phase with
      | .waiting .. => true
      | .refused => true
      | _ => false) && !(match a.op with
      | .barw _ => true
      | _ => false) || a.op == .layacq) then some 1
    else if has (fun a => match a.op with
      | .barw _ => true
      | _ => false) then some 4
    else if has (fun a => match a.op with
      | .sign _ => true
      | .marm .. => true
      | _ => false) then some 5
    else if has (fun a => a.op.posting) || s.accesses.any (fun a => b.members.contains a.fibre && (match a.op with
      | .fence e _ _ => e
      | _ => false)) then some 6
    else if has (fun a => a.op.loadClass) || s.results.any (fun r => b.members.contains r.fibre && r.mem) then some 2
    else some 3

/-- The oldest band of a core: that of the fibre created earliest. -/
def oldestBand (s : State) (core : Nat) : Option Band :=
  let age : Band → Nat := fun b => match b.members.map (fun k => (s.fibre k).ctl.born) with
    | x :: t => t.foldl min x
    | [] => 0
  (s.bands.filter (fun b => s.bandCore b == core)).foldl (fun (m : Option Band) b => match m with
    | none => some b
    | some x => some (if age b < age x then b else x)) none

/-- What a core counts over n cycles of its own; in a tick that holds none of them nothing changes. -/
def coreCycles (s : State) (core n : Nat) (c : CoreSt) : CoreSt :=
  if n == 0 then c else
  let bs := s.bands.filter (fun b => s.bandCore b == core)
  let e := (bs.filter s.countsEligible).length
    + (if c.issued.isSome then 1 else 0)
  let add : Nat → CoreSt → CoreSt := fun i c =>
    { c with hist := c.hist.modify i (fun v => (v + n) % 2 ^ 48) }.count i n
  let c1 := add (bucket e) { c with cycle := c.cycle + n, sinceSample := c.sinceSample + n, issued := none }
  if e != 0 then c1
  else match (s.oldestBand core).bind s.stallReason with
    | some r => add (6 + r) c1
    | none => c1

/-- Cluster cycles in one tick: 1 GHz gives one (R356). -/
def clusterCycles (k : ClusterSt) : Nat := (k.frac + k.mhz) / 1000

/-- The contexts that an entry of a wait list, a side log or a reservation table belongs to. -/
def entryContexts (s : State) (id : Nat) : List Nat :=
  ((s.accesses.filter (fun a => a.id == id)).filterMap (fun a => (s.gang a.gang).map (·.ctx))
    ++ (s.sideLog.filter (fun e => e.acc.id == id)).map (·.ctx) ++ (s.jobs.filter (fun j => j.id == id)).map (·.ctx)).dedup

/-- The clusters whose side log or reservation table holds an entry. -/
def entryClusters (s : State) (id : Nat) : List Nat :=
  let log := s.sideLog.filter (fun e => e.acc.id == id)
  let jobs := s.jobs.filter (fun j => j.id == id)
  (log.map (fun (e : LogEntry) => e.acc.core / 4) ++ jobs.map (fun (j : Job) => j.cluster)).dedup

/-- Whether a soft error is met where it lies, and not by an access to the word (R346). -/
def sramMet : SramWord → Bool
  | .reg .. => false
  | .scratch .. => false
  | .l2 .. => false
  | _ => true

/-- One soft error is found (R346): a line of L1 or a translation is dropped, to be read again; another entry ends the contexts it
belongs to with a fatal fault "state lost"; a single bit is corrected. Each is counted (R354). DESIGN CHOICE: log entry 72. -/
def noticeSram (s : State) (e : SramWord) : State :=
  match e with
  | .l1 core line =>
    (State.countLost { s with l1 := s.l1.filter (fun x => !(x.core == core && x.line == line)) }).sramEvent (core / 4)
  | .tlb part asid va =>
    State.countLost { s with tlb := s.tlb.filter (fun t => !(t.part == part && t.asid == asid && decide (t.va ≤ va) && decide (va < t.va + t.size)))
                             walks := s.walks.filter (fun t => !(t.part == part && t.asid == asid && decide (t.va ≤ va) && decide (va < t.va + t.size))) }
  | .entry id => State.countLost ((s.entryContexts id).foldl (fun s c => s.endContext c 3 id) ((s.entryClusters id).foldl sramEvent s))
  | .single => s.updPf (fun f => { f with eccSram := min (f.eccSram + 1) (2 ^ 64 - 1) })
  | _ => s

/-- The soft errors that no access needs to meet are found. -/
def noticeAll (s : State) : State :=
  let m := s.sram.filter sramMet
  if m.isEmpty then s else m.foldl noticeSram { s with sram := s.sram.filter (fun e => !sramMet e) }

/-- One tick of device time passes. DESIGN CHOICE: log entry 8. -/
def tick (s : State) : State :=
  let n : Nat → Nat := fun k => clusterCycles (s.cluster k)
  let cl : ClusterSt → ClusterSt := fun k => { k with cycle := k.cycle + clusterCycles k, frac := (k.frac + k.mhz) % 1000 }
  noticeAll { s with
    time := s.time + 1, hostAcks := s.hostAcks.filter (fun t => decide (s.time + 1 < t)), clusters := s.clusters.map cl
    cores := s.cores.mapIdx (fun i c => s.coreCycles i (n (i / 4)) c) }

/-! ### Fetch (R17, R243) -/

/-- The keys of a packet for a band, and whether one lies in a page with T = 1: system code untranslated, tenant code translated,
both pages for execution. Bits 63:56 of a tenant's PC are ignored. DESIGN CHOICE: log entry 79. -/
def packetKeys (s : State) (b : Band) : Except (Nat × Nat × Nat) (List Nat × Bool) :=
  let f := s.leadOf b
  match s.gang b.gang with
  | none => .error (0, 0, 0)
  | some g =>
    let pc := f.ctl.pkt.toNat
    if f.ctl.v then .ok ((List.range 12).map (fun i => pc + i), false)
    else match s.context g.ctx with
      | none => .error (0, 0, 0)
      | some c => s.vaKeys c pc .fetch 12

/-- Every fibre of a band takes a trap that its fetch has met, at its PC. -/
def fetchTrap (s : State) (b : Band) (cls cause : Nat) : State :=
  let f := s.leadOf b
  s.vectorWhenIn (b.members.map (fun k => (k, { cls := cls, cause := cause, pc := f.ctl.pc, addr := f.ctl.pkt, flags := 0 })))

/-- A core's fetch as a user of the homes of a packet. -/
def fetchUse (s : State) (b : Band) (g : Gang) : HomeUse :=
  let f := s.leadOf b
  if f.ctl.v then { part := g.part }
  else
    let attr := match (s.context g.ctx).map (fun c => s.xlat c f.ctl.pkt.toNat .fetch) with
      | some (.ok _ attr _ _) => attr
      | _ => 0
    { part := g.part, ctx := some g.ctx, attr := attr, policy := enterPolicy attr 0 }

/-- The core fetches the packet at a band's PC from its homes, in its turn there, as the gang sees memory (R229, R317, R319); an older
copy may be given up. DESIGN CHOICE: log entry 24. -/
def fetchFor (s : State) (b : Band) : Option State :=
  let f := s.leadOf b
  let core := s.bandCore b
  match s.gang b.gang with
  | none => none
  | some g =>
    if !((b.park == .none || b.park == .meeting) && s.canRun b && !s.holdsIssue b && (s.bandCopy b).isNone) then none
    else match s.packetKeys b with
      | .error (cause, gpa, va) =>
        let upd : Band → Band := fun x => if x.bid == b.bid then { x with park := .fetch } else x
        some ({ s with bands := s.bands.map upd }.pageRequest g.ctx va cause gpa 3)
      | .ok (ks, tensor) =>
        let causes := ks.filterMap s.lostAt
        let staged := g.det && !f.ctl.v
        let s0 := (s.homeReads (s.fetchUse b g) ks).coreTook g.part core ks
        if tensor then some (s.fetchTrap b 0x13 0)
        else if !s.coreTurns g.part core ks then none
        else match [1, 4, 0].find? (fun c => causes.contains c) with
        | some c => some ((s.noteLoss (core / 4) c).fetchTrap b 0x1A c)
        | none =>
          let bytes := ks.map (if staged then s.view g.id else s.mem).byte
          let copy : FetchCopy :=
            { ctx := g.ctx, sys := f.ctl.v, pkt := f.ctl.pkt
              words := (List.range 3).map (fun i => BitVec.ofNat 32 (natOfBytes ((bytes.drop (4 * i)).take 4))) }
          let r := (if staged then s0.trackKeys g.id ks true false else s0).pick ((s.core core).fetch.length + 1)
          -- a free value: which copy, if any, the core gives up
          let s1 := r.2.updCore core (fun c => { c with fetch := copy :: c.fetch.eraseIdx r.1 })
          some (if f.ctl.v then s1 else s1.keepVas g.ctx .fetch [f.ctl.pkt.toNat, f.ctl.pkt.toNat + 11])

/-- A band may leave a switch marker: its gang runs, or its results return while a pre-emption drains it (R173). -/
def mayResume (s : State) (b : Band) : Bool :=
  s.canRun b || (s.gang b.gang).any (fun g => g.phase == .preempting || g.phase == .draining)

/-- Fibres parked at a switch marker go on (R26, R76); at the entry to the FP-exception handler all together (R98). -/
def resumeMarker (s : State) (b : Band) : Option State :=
  let ks := s.leavers b
  if ks.isEmpty || !s.mayResume b then none else some (s.resolve ks)

/-- The PC of the meeting word of the group at a fibre's PC, in a band (R85, R87). -/
def meetingPc (s : State) (b : Band) (k : Nat) : DWord :=
  let f := s.fibre k
  let slot := match s.bandCopy b with
    | some c => ((groupWords c.words 3 f.ctl.slot).find? (fun (w : GWord) => match w.dec with
        | .ok i => i.isMeeting
        | .error _ => false)).map (fun (w : GWord) => w.slot)
    | none => none
  f.ctl.pkt + BitVec.ofNat 64 (4 * slot.getD f.ctl.slot)

/-- The meetings at which the live fibres of a crew are parked; none while one of them is not (R87). -/
def crewMeetings (s : State) (gid crew : Nat) : Option (List (Nat × DWord)) :=
  let ks := sortBy (fun k => (s.fibre k).idx) (s.liveCrew gid crew)
  ks.foldr (fun k l => match l, s.bands.find? (fun b => b.park == .meeting && b.members.contains k && s.canRun b && (s.bandCopy b).isSome) with
    | some l, some b => some ((k, s.meetingPc b k) :: l)
    | _, _ => none) (some [])

/-- Every live fibre of a crew is parked at a meeting, and not all at one (R87). -/
def mismatch (s : State) (gid crew : Nat) : Bool :=
  match s.crewMeetings gid crew with
  | some l => decide (1 < ((l.map (fun x => (x.2, (s.fibre x.1).ctl.v))).dedup).length)
  | none => false

end State

/-- INSTRUCTION_FETCH (R17): the core fetches the packet at a band's PC as a unit, or the fetch faults for the whole packet. -/
def execInstructionFetch (b : Nat) (s : State) : Host.Outcome State Fault Refusal :=
  evPort "INSTRUCTION_FETCH" ((s.band b).bind s.fetchFor)

/-- SWITCH_MARKER_RESUME (R26): a parked band goes on once its results are in; it splits where the others wait long (R76). -/
def execSwitchMarkerResume (b : Nat) (s : State) : Host.Outcome State Fault Refusal :=
  ev "SWITCH_MARKER_RESUME" ((s.band b).bind s.resumeMarker)

/-- CREW_MISMATCH (R87): every live fibre of the crew takes the crew-mismatch trap at its own meeting. -/
def execCrewMismatch (gang crew : Nat) (s : State) : Host.Outcome State Fault Refusal :=
  ev "CREW_MISMATCH" (if s.mismatch gang crew then
      some (s.vectorWhenIn (((s.crewMeetings gang crew).getD []).map (fun x =>
        (x.1, { cls := 3, cause := 0, pc := x.2, addr := 0, flags := 0 }))))
    else none)

/-- YIELD_EXPIRY (R83): the yielding band becomes eligible after 64 cycles, or once the others have issued. -/
def execYieldExpiry (b : Nat) (s : State) : Host.Outcome State Fault Refusal :=
  ev "YIELD_EXPIRY" (match s.band b with
    | none => none
    | some x => match x.park with
      | .yielded till others =>
        if decide (till ≤ s.cycle (s.bandCore x)) || !s.bands.any (fun y => others.contains y.bid && y.park != .saved) then
          let upd : Band → Band := fun y => if y.bid == b then { y with park := .none } else y
          some { s with bands := s.bands.map upd }
        else none
      | _ => none)

end Sys2Proof.Machine
end

