-- ==== Sys2Proof/Machine/Observe.lean ====
section
/-! DEFINITION. Sys2Proof/Machine/Observe.lean: the observation block of a core: samples, the trace registers, the stall
histogram and the event counters (R183 to R187). -/

namespace Sys2Proof.Machine

namespace State

/-- The sample of a core: lowest live lane of the band concerned, its PC, and the cause field (R183).
DEDUCED: log entry 27. Where no band issues and the oldest has no stall reason the field is 0. DESIGN CHOICE: log entry 79. -/
def sampleOf (s : State) (core : Nat) : Option (Nat × DWord × Nat) :=
  match (s.core core).issued with
  | some (k, pc) => some (k, pc, 0)
  | none => (s.oldestBand core).map (fun b => (b.members.headD 0, (s.leadOf b).ctl.pc, (s.stallReason b).getD 0))

/-- Writes one sample record, or nothing for a core that holds no band. -/
def sample (s : State) (core : Nat) : State :=
  match s.sampleOf core with
  | none => s
  | some (k, pc, cause) =>
    let f := s.fibre k
    match s.gang f.gang with
    | none => s
    | some g =>
      let ctx := match s.context g.ctx with
        | some c => c.ctxidWord.toNat
        | none => 0
      s.trace core (traceBytes (if g.det then f.ctl.retired.toNat else s.time) cause (f.idx % 4096 + 4096 * (g.index % 2 ^ 20))
        (ordinal g pc) ctx 0)

end State

/-- The sampling interval in cycles (R183). -/
def CoreSt.interval (c : CoreSt) : Nat := (c.trctl.extractLsb' 8 24).toNat

/-- TRACE_SAMPLE (R183): every interval cycles, while SE is 1, the core writes one sample record. -/
def execTraceSample (core : Nat) (s : State) : Host.Outcome State Fault Refusal :=
  ev "TRACE_SAMPLE" (
    let c := s.core core
    if decide (core < Config.cores) && c.trctl.getLsbD 1 && decide (c.interval ≤ c.sinceSample) then
      some ((s.sample core).updCore core (fun c => { c with sinceSample := c.sinceSample - c.interval }))
    else none)

/-- TRCTL_WRITE (R183): trace enables and interval; an interval below 256 is refused and reads back as 256.
DEDUCED: log entry 33. -/
def execTrctlWrite (core : Nat) (v : DWord) (s : State) : Host.Outcome State Fault Refusal :=
  ev "TRCTL_WRITE" (
    if core ≥ Config.cores then none
    -- bits [63:32] and [7:2] must be zero
    else if v.extractLsb' 32 32 != 0 || v.extractLsb' 2 6 != 0 then some s
    else
      let low := decide ((v.extractLsb' 8 24).toNat < 256)
      let w : DWord := if low then 0x10000 ||| (v &&& 3) else v
      some (s.updCore core (fun c => { c with
        trctl := w, sinceSample := if c.trctl.getLsbD 1 then c.sinceSample else 0 })))

/-- TRLOST_CLEAR (R183): any write clears the count of lost records. -/
def execTrlostClear (core : Nat) (s : State) : Host.Outcome State Fault Refusal :=
  ev "TRLOST_CLEAR" (if core < Config.cores then some (s.updCore core (fun c => { c with trlost := 0 })) else none)

/-- HISTOGRAM_CLEAR (R185): a write of any value clears a bucket (k 0 to 6) or a reason (k 7 to 16). -/
def execHistogramClear (core k : Nat) (s : State) : Host.Outcome State Fault Refusal :=
  ev "HISTOGRAM_CLEAR" (
    if core < Config.cores ∧ k < 17 then some (s.updCore core (fun c => { c with hist := c.hist.set k 0 })) else none)

/-- A selector takes a value: an event that this part has not reads as zero, and selected to count it sets EVLOST (R186, R187). -/
def CoreSt.select (c : CoreSt) (k : Nat) (v : DWord) (mute : Bool) : CoreSt :=
  let gone := decide (0x1A ≤ (v.extractLsb' 0 8).toNat)
  { c with selectors := c.selectors.set k v, muted := c.muted.set k mute
           counters := if mute || gone then c.counters.set k 0 else c.counters
           ctrStatus := if gone && v.getLsbD 8 then c.ctrStatus ||| 0x100 else c.ctrStatus }

/-- EVENT_SELECT_WRITE (R186): a guest's write to selector k of a core. DEDUCED: log entry 29. -/
def execEventSelectWrite (core k : Nat) (v : DWord) (s : State) : Host.Outcome State Fault Refusal :=
  ev "EVENT_SELECT_WRITE" <| s.vfWrite (
    if core ≥ Config.cores ∨ k ≥ 8 then none
    else match s.clusterOwner (core / 4) with
      | none => none
      | some p =>
        let e := (v.extractLsb' 0 8).toNat
        let allowed := (s.part p).evAllow.getLsbD e
        if v.extractLsb' 9 55 != 0 then some s
        else if allowed then some (s.updCore core (fun c => c.select k v false))
        else if (s.part p).evTrap.getLsbD e then some (s.hvRecord 0x42 p (core * 256 + e))
        else some (s.updCore core (fun c => c.select k v true)))

/-- COUNTER_STATUS_CLEAR (R187): writing 1 to a bit of the status word clears it. -/
def execCounterStatusClear (core : Nat) (v : DWord) (s : State) : Host.Outcome State Fault Refusal :=
  ev "COUNTER_STATUS_CLEAR" (
    if core < Config.cores then some (s.updCore core (fun c => { c with ctrStatus := c.ctrStatus &&& ~~~ v })) else none)

end Sys2Proof.Machine
end

