-- ==== Sys2Proof/Machine/Registers.lean ====
section
/-! DEFINITION. Sys2Proof/Machine/Registers.lean: the registers of the physical and virtual functions (R183, R237, R238,
R248, R249, R295, R354, R356, R359) and the peal maps. -/

namespace Sys2Proof.Machine

namespace State

/-- A refused write: the register keeps its value, and PFSTAT records the offset and the reason (R359). -/
def refuse (s : State) (off reason : Nat) : State :=
  s.updPf (fun f => { f with pfstat := BitVec.ofNat 64 (2 ^ 63 + reason * 2 ^ 24 + off % 2 ^ 24) })

/-- Offset of a register of a partition's block. -/
def blockOff (p r : Nat) : Nat := 0x10000 + 0x1000 * p + r

/-! ### Partitions (R249, R356) -/

/-- The dies of a partition's clusters and slice groups. -/
def diesOf (s : State) (p : Nat) : List Nat :=
  (((List.range Config.clusters).filter (fun k => s.clusterOwner k == some p)).map (· / 24)
    ++ ((List.range 16).filter (fun g => s.sliceOwner g == some p)).map (· / 8)).dedup

/-- A partition's slots under two maps admit it (R249). -/
def slotsOk (s : State) (p : Nat) (net bridge : List (BitVec 8)) : Bool :=
  hasSlot net p && (decide ((s.diesOf p).length ≤ 1) || hasSlot bridge p)

/-- The shares of the enabled partitions and the uncore allowance stay within a limit (R356). -/
def sharesOk (s : State) (limit : Nat) : Bool :=
  decide ((s.parts.map (fun x => if x.enabled then x.mshare else 0)).foldl (· + ·) 0 + 150 ≤ limit)

/-! ### Stage-2 range entries (R237, R238) -/

/-- An entry breaks R237. -/
def rangeBad (e : RangeEntry) : Bool :=
  e.control.extractLsb' 6 58 != 0 || e.cap == 3 || e.base.toNat % 65536 != 0 || e.limit.toNat % 65536 != 0
    || e.offset.toNat % 65536 != 0 || decide (e.limit.toNat ≤ e.base.toNat)

/-- A range of memory lies in the partition's slice groups, or in its host-memory window (R238). -/
def inPartition (s : State) (p lo n : Nat) : Bool :=
  let pt := s.part p
  s.inGroups p lo n || (decide (pt.hwBase.toNat ≤ lo) && decide (lo + n ≤ pt.hwLimit.toNat) && decide (2 ^ 51 ≤ pt.hwBase.toNat))

/-- The host range of an entry lies there. -/
def rangeInside (s : State) (p : Nat) (e : RangeEntry) : Bool :=
  s.inPartition p ((e.base + e.offset).toNat % 2 ^ 52) (e.limit.toNat - e.base.toNat)

/-- A whole entry is written: checked, valid or not, and every cached translation of the partition removed; a refused one leaves
the entry invalid. -/
def writeRange (s : State) (p k : Nat) (e : RangeEntry) : State :=
  let put : RangeEntry → State := fun x => s.updPart p (fun pt => { pt with ranges := pt.ranges.set k x, held := pt.held.set k e })
  if !rangeBad e && s.rangeInside p e then
    let s1 := put e
    { s1 with tlb := s1.tlb.filter (fun t => t.part != p), walks := s1.walks.filter (fun t => t.part != p) }
  else (put { e with control := e.control &&& ~~~1 }).refuse (blockOff p (0x100 + 32 * k + 24)) 1

/-- A live context of the partition maps into a slice group: a valid range entry leads there. DEDUCED: log entry 35. -/
def mapsGroup (s : State) (p g : Nat) : Bool :=
  s.contexts.any (fun c => c.live && c.part == p) && (s.part p).ranges.any (fun e =>
    let lo := (e.base + e.offset).toNat % 2 ^ 52
    e.valid && decide (lo < (g + 1) * 0x600000000) && decide (g * 0x600000000 < lo + (e.limit.toNat - e.base.toNat)))

/-- What a change of ownership of slice groups leaves of a partition (R11, R238): a range entry that leads outside its slice groups and its
window is invalid, and an area outside them is given up. DEDUCED: log entry 35. -/
def confine (s : State) (p : Nat) : State :=
  let out : RangeEntry → Bool := fun e => e.valid && !s.rangeInside p e
  let cut : RangeEntry → RangeEntry := fun e => if out e then { e with control := e.control &&& ~~~1 } else e
  let area : DWord → Nat → Bool := fun b n => n == 0 || s.inGroups p b.toNat n
  let fit : Part → Part := fun x =>
    let x1 := if area x.parkBase x.parkSize.toNat then x else { x with parkBase := 0, parkSize := 0 }
    let x2 := if area x.stageBase x.stageSize.toNat then x1 else { x1 with stageBase := 0, stageSize := 0 }
    let x3 := if area x.trackBase x.trackSize.toNat then x2 else { x2 with trackBase := 0, trackSize := 0 }
    let x4 := if area x.saveBase x.saveSize.toNat then x3 else { x3 with saveBase := 0, saveSize := 0 }
    let x5 := if area x.poolBase (x.poolLen.toNat * 0x200000) then x4 else { x4 with poolBase := 0, poolLen := 0, poolFree := [] }
    { x5 with syscode := if area x.syscode 4096 then x.syscode else 0, ranges := x.ranges.map cut }
  let s1 := s.updPart p fit
  if (s.part p).ranges.any out then
    { s1 with tlb := s1.tlb.filter (fun t => t.part != p), walks := s1.walks.filter (fun t => t.part != p) }
  else s1

/-- The groups change hands. -/
def moveGroups (s : State) (m : List (BitVec 8)) : State :=
  (List.range Config.partitions).foldl confine (s.updPf (fun f => { f with sgown := m }))

/-- A core of a cluster that changes hands keeps nothing of its old owner (R11): its observation block, scratch size, deque and rotation
are as after reset. DEDUCED: log entry 35. -/
def CoreSt.moved (c : CoreSt) : CoreSt := { CoreSt.initial with cycle := c.cycle }
/-- The clusters change hands. -/
def moveClusters (s : State) (m : List (BitVec 8)) : State :=
  let gone : Nat → Bool := fun c => s.pf.clown.getD (c / 4) 0 != m.getD (c / 4) 0
  { s with pf := { s.pf with clown := m }, cores := s.cores.mapIdx (fun i c => if gone i then CoreSt.moved c else c)
           l1 := s.l1.filter (fun x => !gone x.core) }

/-- A slice group that changes hands while a context of either partition maps into it (R228). -/
def groupUsed (s : State) (m m' : List (BitVec 8)) : Bool :=
  (List.range 16).any (fun g => m.getD g 0 != m'.getD g 0
    && (List.range Config.partitions).any (fun p =>
      (ownerOf (m.getD g 0) == some p || ownerOf (m'.getD g 0) == some p) && s.mapsGroup p g))

/-! ### Byte maps -/

def dwordBytes (v : DWord) : List (BitVec 8) := (List.range 8).map (fun i => v.extractLsb' (8 * i) 8)
/-- Eight bytes of a map from index i on. -/
def putMap (m : List (BitVec 8)) (i : Nat) (v : DWord) : List (BitVec 8) :=
  m.mapIdx (fun j b => if i ≤ j ∧ j < i + 8 then (dwordBytes v).getD (j - i) 0 else b)

/-- The partitions that own, or would own, a byte that a write changes. -/
def ownersTouched (m m' : List (BitVec 8)) : List Nat :=
  ((m.zip m').filter (fun x => x.1 != x.2)).foldl (fun l x =>
    l ++ (match ownerOf x.1 with
      | some p => [p]
      | none => []) ++ (match ownerOf x.2 with
      | some p => [p]
      | none => [])) []

/-- A write of ownership bytes: refused for a broken layout, for an enabled partition, or for something in use. -/
def writeOwners (s : State) (off : Nat) (m m' : List (BitVec 8)) (used : Bool) (put : State → State) : State :=
  if m'.any (fun b => b.extractLsb' 4 3 != 0) then s.refuse off 1
  else if (ownersTouched m m').any (fun p => (s.part p).enabled) then s.refuse off 3
  else if used then s.refuse off 2
  else put s

/-- A cluster that changes hands holds a gang or has a job. DEDUCED: log entry 35. -/
def clusterUsed (s : State) (m m' : List (BitVec 8)) : Bool :=
  (List.range Config.clusters).any (fun k => m.getD k 0 != m'.getD k 0
    && (s.jobs.any (fun j => j.cluster == k)
      || s.gangs.any (fun g => g.cluster == k && g.phase != .waiting && g.phase != .saved && g.phase != .ended)))

/-- A link that changes hands carries an open session. DEDUCED: log entry 35. -/
def linkUsed (s : State) (m m' : List (BitVec 8)) : Bool :=
  (List.range Config.links).any (fun l => m.getD l 0 != m'.getD l 0
    && s.parts.any (fun p => p.sessions.any (fun x => x.link == l && x.isOpen)))

/-! ### The physical function's registers -/

/-- A module-wide register; none for an offset that names none, or whose writes have a row of their own.
DEDUCED: log entry 30. -/
def writeModule (s : State) (off : Nat) (v : DWord) : Option State :=
  let f := s.pf
  let byteOk : Bool := (dwordBytes v).all (fun b => b.extractLsb' 5 3 == 0)
  if off % 8 != 0 then none
  else if off < 0x8000 then none
  else if off < 0x8040 then
    some (if byteOk then s.updPf (fun f => { f with netmap := putMap f.netmap (off - 0x8000) v }) else s.refuse off 1)
  else if off < 0x8080 then
    some (if byteOk then s.updPf (fun f => { f with bridgemap := putMap f.bridgemap (off - 0x8040) v }) else s.refuse off 1)
  else if off == 0x8090 || off == 0x8098 then
    some (if byteOk then s.updPf (fun f => { f with hostmap := putMap f.hostmap (off - 0x8090) v }) else s.refuse off 1)
  else if off == 0x8100 || off == 0x8108 then
    let m' := putMap f.sgown (off - 0x8100) v
    some (s.writeOwners off f.sgown m' (s.groupUsed f.sgown m') (fun s => s.moveGroups m'))
  else if off == 0x8110 || off == 0x8118 then
    let m' := putMap f.linkown (off - 0x8110) v
    some (s.writeOwners off f.linkown m' (s.linkUsed f.linkown m') (fun s => s.updPf (fun f => { f with linkown := m' })))
  else if 0x8120 ≤ off ∧ off < 0x8150 then
    let m' := putMap f.clown (off - 0x8120) v
    some (s.writeOwners off f.clown m' (s.clusterUsed f.clown m') (fun s => s.moveClusters m'))
  else if off == 0x8300 then some (if v.toNat % 64 == 0 && decide (v.toNat < 2 ^ 52) then s.updPf (fun f => { f with hqBase := v }) else s.refuse off 1)
  else if off == 0x8308 then some (if 4 ≤ v.toNat ∧ v.toNat ≤ 16 then s.updPf (fun f => { f with hqSize := v }) else s.refuse off 1)
  else if off == 0x8310 then
    some (if v.toNat < 2 ^ (f.hqSize.toNat % 32) then s.updPf (fun f => { f with hqHead := v.toNat }) else s.refuse off 1)
  -- read only: HQTAIL, and the health registers but MPLIM and MSHARE
  else if off == 0x8318 then some s
  else none

/-- A base register: 64 KiB aligned (or as stated) and inside the partition's slice groups. -/
def baseOk (s : State) (p : Nat) (v : DWord) (align len : Nat) : Bool :=
  v.toNat % align == 0 && s.inGroups p v.toNat (max len align)
/-- A size register: a multiple of 64 KiB, the area inside the slice groups, or 0. -/
def sizeOk (s : State) (p : Nat) (base v : DWord) : Bool :=
  v == 0 || (v.toNat % 65536 == 0 && s.inGroups p base.toNat v.toNat)

/-- Bits 64 i to 64 i + 63 of an event map. -/
def putBits (m : BitVec 256) (i : Nat) (v : DWord) : BitVec 256 :=
  (m &&& ~~~ ((0xFFFFFFFFFFFFFFFF : BitVec 256) <<< (64 * i))) ||| (v.setWidth 256 <<< (64 * i))

/-- The pool frames that a partition's layers and swap-ins hold. -/
def poolUsed (x : Part) : List Nat :=
  (x.layers.map (fun y => y.frames ++ y.leaving)).flatten ++ (x.swaps.map (fun w => w.frames)).flatten

/-- What a register of a partition's block takes, if the value obeys its rule. -/
def blockPut (s : State) (p r : Nat) (v : DWord) : Option (Part → Part) :=
  let pt := s.part p
  let when : Bool → (Part → Part) → Option (Part → Part) := fun b f => if b then some f else none
  let hw : Bool := v.toNat % 65536 == 0 && decide (2 ^ 51 ≤ v.toNat) && decide (v.toNat < 2 ^ 52)
  match r with
  | 0x008 => when (decide (v.toNat < 2 ^ 24)) (fun x => { x with lease := v.toNat })
  | 0x010 => when (s.baseOk p v 65536 pt.parkSize.toNat) (fun x => { x with parkBase := v })
  | 0x018 => when (s.sizeOk p pt.parkBase v) (fun x => { x with parkSize := v })
  | 0x020 => when (s.baseOk p v 65536 pt.stageSize.toNat) (fun x => { x with stageBase := v })
  | 0x028 => when (s.sizeOk p pt.stageBase v) (fun x => { x with stageSize := v })
  | 0x030 => when (s.baseOk p v 65536 pt.trackSize.toNat) (fun x => { x with trackBase := v })
  | 0x038 => when (s.sizeOk p pt.trackBase v) (fun x => { x with trackSize := v })
  | 0x040 => when (s.baseOk p v 65536 pt.saveSize.toNat) (fun x => { x with saveBase := v })
  | 0x048 => when (s.sizeOk p pt.saveBase v) (fun x => { x with saveSize := v })
  | 0x050 => when (v.toNat % 4096 == 0) (fun x => { x with saveBlk := v })
  | 0x058 => when (s.baseOk p v 4096 4096) (fun x => { x with syscode := v })
  | 0x060 => some (fun x => { x with sysEntry := v })
  | 0x068 => some (fun x => { x with saveEntry := v })
  | 0x070 => some (fun x => { x with restoreEntry := v })
  | 0x078 => when (s.baseOk p v 0x200000 (pt.poolLen.toNat * 0x200000)) (fun x => { x with poolBase := v })
  | 0x080 => when (v == 0 || s.inGroups p pt.poolBase.toNat (v.toNat * 0x200000))
      (fun x => { x with poolLen := v, poolFree := (List.range v.toNat).filter (fun f => !(poolUsed x).contains f) })
  | 0x088 => when hw (fun x => { x with hwBase := v })
  | 0x090 => when hw (fun x => { x with hwLimit := v })
  | _ =>
    if r % 8 != 0 then none
    else if 0x0C0 ≤ r ∧ r < 0x0E0 then some (fun x => { x with evAllow := putBits x.evAllow ((r - 0x0C0) / 8) v })
    else if 0x0E0 ≤ r ∧ r < 0x100 then some (fun x => { x with evTrap := putBits x.evTrap ((r - 0x0E0) / 8) v })
    else none

/-- A register whose offset lies in the block. -/
def blockHas (r : Nat) : Bool := r % 8 == 0 && (decide (8 ≤ r) && decide (r ≤ 0x090) || decide (0x0C0 ≤ r) && decide (r < 0x700))
/-- Registers that may be written while the partition is enabled. -/
def blockAlways (r : Nat) : Bool := r == 8 || decide (0x0C0 ≤ r)

/-- The bytes 0 to 23 of a range entry are held; bytes 24 to 31 write it. -/
def writeRangeWord (s : State) (p r : Nat) (v : DWord) : State :=
  let k := (r - 0x100) / 32
  let h := (s.part p).held.getD k .zero
  match (r - 0x100) / 8 % 4 with
  | 0 => s.updPart p (fun x => { x with held := x.held.set k { h with base := v } })
  | 1 => s.updPart p (fun x => { x with held := x.held.set k { h with limit := v } })
  | 2 => s.updPart p (fun x => { x with held := x.held.set k { h with offset := v } })
  | _ => s.writeRange p k { h with control := v }

/-- A write to the block of partition p. -/
def writeBlock (s : State) (p r : Nat) (v : DWord) : Option State :=
  if !blockHas r then none
  else if (s.part p).enabled && !blockAlways r then some (s.refuse (blockOff p r) 3)
  else if 0x100 ≤ r then some (s.writeRangeWord p r v)
  else match s.blockPut p r v with
    | some f => some (s.updPart p f)
    | none => some (s.refuse (blockOff p r) 1)

/-! ### Observation blocks and virtual functions -/

/-- A write to a register of a core's observation block that has no row of its own (R180, R183). DEDUCED: log entry 28. -/
def writeObs (s : State) (core r : Nat) (v : DWord) (guest : Bool) : Option State :=
  let p := (s.clusterOwner (core / 4)).getD 0
  if core ≥ Config.cores ∨ r % 8 ≠ 0 then none
  else if r < 0x80 then
    let upd : DWord × DWord → DWord × DWord := fun c => if r % 16 == 0 then (v, c.2) else (c.1, v)
    some (s.updCore core (fun c => { c with comps := c.comps.modify (r / 16) upd }))
  -- the hypervisor's own selector writes pass no map
  else if 0x150 ≤ r ∧ r ≤ 0x188 ∧ !guest then
    some (if v.extractLsb' 9 55 != 0 then s else s.updCore core (fun c => c.select ((r - 0x150) / 8) v false))
  else if r == 0x1A8 then
    some (if v.toNat % 4096 == 0 && (s.gpKeys p v.toNat 2 4096).isSome then s.updCore core (fun c => { c with trbase := v }) else s)
  else if r == 0x1B0 then some (if 8 ≤ v.toNat ∧ v.toNat ≤ 20 then s.updCore core (fun c => { c with trsize := v }) else s)
  else if r == 0x1C0 then some (s.updCore core (fun c => { c with trtail := v.toNat % 2 ^ (c.trsize.toNat % 32) }))
  -- read only: the counters and TRHEAD
  else if r == 0x1B8 ∨ (0x110 ≤ r ∧ r ≤ 0x148) then some s
  else none

/-- A queue register with no behaviour of its own: only while the enable bit is 0 (R295). -/
def writeQueue (s : State) (p q r : Nat) (v : DWord) : Option State :=
  let x := s.queueOf p q
  if r != 0 && r != 8 && r != 0x10 then (if r == 0x24 || r == 0x2C then some s else none)
  else if Queue.on x then some s
  else match r with
    | 0 => some (if v.toNat % 64 == 0 then s.setQueue p q { x with base := v } else s)
    | 8 => some (s.setQueue p q { x with ctx := v })
    | _ => some (if v.toNat % 16 == 0 then s.setQueue p q { x with cqbase := v } else s)

/-- The device core that is %CORE n of a partition (R69). -/
def guestCore (s : State) (p n : Nat) : Option Nat :=
  (((List.range Config.clusters).filter (fun k => s.clusterOwner k == some p))[n / 4]?).map (fun k => 4 * k + n % 4)

/-- A write through the physical function; its second region follows the first. DESIGN CHOICE: log entry 34. -/
def writePf (s : State) (off : Nat) (v : DWord) : Option State :=
  if off < 0x10000 then s.writeModule off v
  else if off < 0x20000 then s.writeBlock ((off - 0x10000) / 0x1000) (off % 0x1000) v
  else if 0x40000 ≤ off ∧ off < 0x60000 then s.writeObs ((off - 0x40000) / 0x200) (off % 0x200) v false
  else none

/-- A write through a virtual function; its second region follows the first. DESIGN CHOICE: log entry 34. -/
def writeVf (s : State) (p off : Nat) (v : DWord) : Option State :=
  if 0x1000 ≤ off ∧ off < 0x1200 then s.writeQueue p ((off - 0x1000) / 0x40) (off % 0x40) v
  else if 0x10000 ≤ off ∧ off < 0x30000 then
    (s.guestCore p ((off - 0x10000) / 0x200)).bind (fun c => s.writeObs c (off % 0x200) v true)
  else none

end State

/-- RANGE_ENTRY_WRITE (R238): a whole stage-2 entry is checked, written, and clears the partition's cached translations. -/
def execRangeEntryWrite (part k : Nat) (base limit off ctl : DWord) (s : State) : Host.Outcome State Fault Refusal :=
  ev "RANGE_ENTRY_WRITE" (if part < Config.partitions ∧ k < 48 then some (s.writeRange part k ⟨base, limit, off, ctl⟩) else none)

/-- MAPCOMMIT (R359): writing 1 schedules both maps for slot 0 of the next round. -/
def execMapcommit (v : DWord) (s : State) : Host.Outcome State Fault Refusal :=
  ev "MAPCOMMIT" (some (if v == 1 then s.updPf (fun f => { f with commit := true, commitAt := State.pealRound s.time + 1 })
    else s.refuse 0x8080 1))

/-- MAP_APPLY (R249): the maps as written come into use, or are refused for an enabled partition they leave short.
DEDUCED: log entry 32. -/
def execMapApply (s : State) : Host.Outcome State Fault Refusal :=
  ev "MAP_APPLY" (if s.pf.commit && decide (s.pf.commitAt ≤ State.pealRound s.time) then
    let s1 := s.updPf (fun f => { f with commit := false })
    let ok := (List.range Config.partitions).all (fun p => !(s.part p).enabled || s.slotsOk p s.pf.netmap s.pf.bridgemap)
    some (if ok then s1.updPf (fun f => { f with netLive := f.netmap, bridgeLive := f.bridgemap }) else s1.refuse 0x8080 1)
  else none)

/-- PCTL_WRITE (R249): enables or disables a partition; one that is enabled reaches only what it owns (R238). DEDUCED: log entry 35. -/
def execPctlWrite (part : Nat) (v : DWord) (s : State) : Host.Outcome State Fault Refusal :=
  ev "PCTL_WRITE" (if part ≥ Config.partitions then none
    else
      let on := v.getLsbD 0
      let s1 := s.updPart part (fun x => { x with enabled := on })
      some (if v.extractLsb' 1 63 != 0 then s.refuse (State.blockOff part 0) 1
        else if on && !(s.part part).enabled && !(s.slotsOk part s.pf.netLive s.pf.bridgeLive && s1.sharesOk s.pf.mplim) then
          s.refuse (State.blockOff part 0) 1
        else if on && !(s.part part).enabled then s1.confine part else s1))

/-- PFSTAT_CLEAR (R359): writing 1 to bit 63 clears the refusal flag. -/
def execPfstatClear (v : DWord) (s : State) : Host.Outcome State Fault Refusal :=
  ev "PFSTAT_CLEAR" (some (if v.getLsbD 63 then s.updPf (fun f => { f with pfstat := f.pfstat &&& 0x7FFFFFFFFFFFFFFF }) else s))

/-- REGISTER_WRITE (R359): a write to a register with no row of its own, refused if it breaks the register's rule. -/
def execRegisterWrite (part : Nat) (vf : Bool) (off : Nat) (v : DWord) (s : State) : Host.Outcome State Fault Refusal :=
  ev "REGISTER_WRITE" (if part ≥ Config.partitions then none else if vf then s.vfWrite (s.writeVf part off v) else s.writePf off v)

/-- MPLIM (R356): the module power limit. -/
def execMplim (v : DWord) (s : State) : Host.Outcome State Fault Refusal :=
  ev "MPLIM" (some (if v.extractLsb' 12 52 == 0 && decide (600 ≤ v.toNat) && decide (v.toNat ≤ 1800) && s.sharesOk v.toNat then
    s.updPf (fun f => { f with mplim := v.toNat }) else s.refuse 0x4008 1))

/-- MSHARE (R356): a partition's power share. -/
def execMshare (part : Nat) (v : DWord) (s : State) : Host.Outcome State Fault Refusal :=
  ev "MSHARE" (if part ≥ Config.partitions then none
    else
      let s1 := s.updPart part (fun x => { x with mshare := v.toNat })
      some (if v.extractLsb' 12 52 == 0 && s1.sharesOk s.pf.mplim then s1 else s.refuse (0x4100 + 8 * part) 1))

end Sys2Proof.Machine
end

