-- ==== Sys2Proof/Machine/Fabric.lean ====
section
/-! DEFINITION. Sys2Proof/Machine/Fabric.lean: the Tiraux links: flits (R363, R364), sessions (R365 to R368), put, get and
reduce jobs (R371 to R375), link nodes (R301). -/

namespace Sys2Proof.Machine

/-! ### Flits (R363) -/

/-- The route header: destination, source, session, kind, job, byte offset. -/
def routeHeader (dst src session kind job off : Nat) : List Byte :=
  bytesOfNat 16 (dst % 2 ^ 21 + src % 2 ^ 21 * 2 ^ 21 + session % 2 ^ 16 * 2 ^ 42 + kind % 16 * 2 ^ 58 + job % 2 ^ 16 * 2 ^ 62
    + off % 2 ^ 48 * 2 ^ 78)

def flitSeq (b : List Byte) : Nat := cardN b 0 2
def flitAcked (b : List Byte) : Nat := cardN b 2 2
def flitRoute (b : List Byte) : Nat := cardN b 8 16
def flitSession (b : List Byte) : Nat := flitRoute b / 2 ^ 42 % 2 ^ 16
def flitKind (b : List Byte) : Nat := flitRoute b / 2 ^ 58 % 16
def flitJob (b : List Byte) : Nat := flitRoute b / 2 ^ 62 % 2 ^ 16
def flitOff (b : List Byte) : Nat := flitRoute b / 2 ^ 78 % 2 ^ 48
/-- The CRC over bytes [255:8] and bits [31:0]. -/
def flitCrcOk (b : List Byte) : Bool := cardN b 4 4 == Config.crc32 (b.drop 8 ++ b.take 4) % 2 ^ 32

/-- An IV: the direction's salt, then its flit counter (R365). DEDUCED: log entry 38. -/
def flitIv (salt : BitVec 32) (count : Nat) : List Byte := bytesOfNat 4 salt.toNat ++ bytesOfNat 8 count

/-- The peer has acknowledged a sequence: the flits up to it leave the replay buffer, and failed resends count anew (R364). -/
def Link.acked (l : Link) (a : Nat) : Link :=
  match l.replay.findIdx? (fun x => x.1 == a) with
  | some i => { l with replay := l.replay.drop (i + 1), resends := 0, resent := false }
  | none => l
/-- The expected flit has arrived. -/
def Link.received (l : Link) : Link := { l with rxSeq := (l.rxSeq + 1) % 65536, nakOut := none }

namespace State

/-! ### Sessions (R366, R367) -/

/-- A session is lost: its put and get jobs end with error 1, and a record goes to the hypervisor's queue. -/
def loseSession (s : State) (p n : Nat) : State :=
  let shut : Session → Session := fun x => if x.n == n then { x with isOpen := false, newTx := none, newRx := none } else x
  let job : LinkJob → LinkJob := fun j =>
    if j.part == p && j.session == n && decide (j.stage < 2) && j.kind != .reduce && !j.checkpoint then { j with stage := 2, error := 1 } else j
  let s1 := s.updPart p (fun pt => { pt with sessions := pt.sessions.map shut })
  { s1 with linkJobs := s1.linkJobs.map job, remotePuts := s1.remotePuts.filter (fun x => !(x.part == p && x.session == n)) }.hvRecord 10 p n

/-- The open sessions of a link, with their partitions. -/
def sessionsOn (s : State) (link : Nat) : List (Nat × Nat) :=
  (List.range Config.partitions).foldl (fun l p => l ++ (((s.part p).sessions.filter (fun x => x.isOpen && x.link == link)).map (fun x => (p, x.n)))) []

/-- A flit of a session leaves by a link: sealed once, kept in the replay buffer of 256, the counter advanced; none while the link is
down, the buffer full, or the counter at its end (R364, R366). The last counter of a key is kept for the control flit that
switches keys, so that no key and IV pair repeats and no key protects more than 2^32 flits. DEDUCED: log entry 38. -/
def sendFlitOn (s : State) (link p : Nat) (x : Session) (kind job off : Nat) (payload : List Byte) : Option State :=
  let l := s.link link
  if !l.up || decide (256 ≤ l.replay.length) || decide ((if kind == 3 then 2 ^ 32 else 2 ^ 32 - 1) ≤ x.txCount) then none
  else
    let route := routeHeader x.peer (Config.endpoint link) x.n kind job off
    let c := Config.gcmSeal x.txKey (flitIv x.txSalt x.txCount) route payload
    let head := bytesOfNat 2 l.txSeq ++ bytesOfNat 2 ((l.rxSeq + 65535) % 65536)
    let body := route ++ c.1 ++ c.2
    let flit := head ++ bytesOfNat 4 (Config.crc32 (body ++ head)) ++ body
    some ((s.updLink link (fun l => { l with txSeq := (l.txSeq + 1) % 65536, replay := l.replay ++ [(l.txSeq, flit)] })).setSession p
      { x with txCount := x.txCount + 1 })
/-- A flit leaves by the session's own link. -/
def sendFlit (s : State) (p : Nat) (x : Session) (kind job off : Nat) (payload : List Byte) : Option State :=
  s.sendFlitOn x.link p x kind job off payload

/-- A flit arrives (R363, R364, R367): a bad CRC or a gap is answered with a NAK; a tag that does not verify loses the
session; else `f` receives the partition, its session, and the payload. Bits [127:126] of the route header are not looked at.
DESIGN CHOICE: log entries 40 and 79. -/
def receiveFlit (s : State) (link : Nat) (b : List Byte) (kind : Nat) (f : State → Nat → Session → List Byte → Option State) : Option State :=
  let l := s.link link
  if link ≥ Config.links || b.length != 256 || !l.up || flitKind b != kind then none
  else if !flitCrcOk b || flitSeq b != l.rxSeq then some (s.updLink link (fun l => { l with nakOut := some l.rxSeq }))
  else
    let s1 := s.updLink link (fun l => (l.acked (flitAcked b)).received)
    match s.linkOwner link with
    | none => some s1
    | some p => match s1.session p (flitSession b) with
      | none => some s1
      | some x =>
        match Config.gcmOpen x.rxKey (flitIv x.rxSalt x.rxCount) ((b.drop 8).take 16) ((b.drop 24).take 216) (b.drop 240) with
        | none => some (s1.loseSession p x.n)
        | some pt =>
          let x1 := { x with rxCount := x.rxCount + 1 }
          match f (s1.setSession p x1) p x1 pt with
          | some s2 => some s2
          -- the link engine cannot take it yet: the sender sends it again
          | none => some (s.updLink link (fun l => { l with nakOut := some l.rxSeq }))

/-- A flit that is dropped unopened took a counter of its session's key at the sender. DEDUCED: log entry 40. -/
def skipFlit (s : State) (link : Nat) (b : List Byte) : State :=
  match s.linkOwner link with
  | none => s
  | some p => match s.session p (flitSession b) with
    | none => s
    | some x => s.setSession p { x with rxCount := x.rxCount + 1 }

/-! ### A link job's local memory -/

end State

/-- The engine's view of a link job's addresses. -/
def LinkJob.asJob (j : LinkJob) : Job :=
  { id := j.id, kind := .copy, cluster := 0, part := j.part, ctx := j.ctx, gang := j.gang, node := j.node, fibre := j.fibre
    wg := j.wg, prio := 0, card := [], phase := .running, pos := 0, fetched := 0, stalled := false, sat := 0, flags := 0
    error := 0, ctime := 0, since := 0, raised := none }

namespace State

def setLinkJob (s : State) (j : LinkJob) : State :=
  { s with linkJobs := s.linkJobs.map (fun x => if x.id == j.id then j else x) }
def linkJob (s : State) (id : Nat) : Option LinkJob := s.linkJobs.find? (fun j => j.id == id)

/-- The link engines serve a partition: it is enabled and owns network slots (R248, R249). -/
def linkServes (s : State) (p : Nat) : Bool := s.serving p && hasSlot s.pf.netLive p

/-- A link engine as a user of the homes of a job's address. -/
def linkUse (s : State) (j : LinkJob) (addr : Nat) (n : Need) : HomeUse :=
  let attr := s.jobAttr j.ctx addr n
  { part := j.part, ctx := some j.ctx, attr := attr, policy := enterPolicy attr 0 }

/-- What a job's reads of ranges leave at the homes (R228, R229). -/
def linkHas (s : State) (j : LinkJob) (rs : List (Nat × Nat)) : State :=
  rs.foldl (fun s r => match s.jobKeys j.asJob r.1 .read r.2 with
    | .ok ks => s.frontReads (s.linkUse j r.1 .read) ks
    | .error _ => s) s

/-- n bytes of a job's memory. -/
def linkRead (s : State) (j : LinkJob) (addr n : Nat) : Except ReadStop (List Byte) :=
  match s.jobKeys j.asJob addr .read n with
  | .error f => .error (.fault f.1 f.2.1 f.2.2)
  | .ok ks => if ks.any s.lostKey then .error .lost else .ok (ks.map s.mem.byte)

/-- Writes bytes of a job, with their completion time. -/
def linkWrite (s : State) (j : LinkJob) (addr : Nat) (bytes : List Byte) : Except ReadStop (State × Nat) :=
  match s.jobKeys j.asJob addr .write bytes.length with
  | .error f => .error (.fault f.1 f.2.1 f.2.2)
  | .ok ks => .ok ((s.putBytes (s.linkUse j addr .write) ks bytes).hostSees j.fibre j.part (s.jobNode j.asJob) ks, s.leasesOf (ks.filter (fun k => !isScratch k)))

/-- A job that is stopped: error 7, or a page request and another try later. -/
def linkStop (s : State) (j : LinkJob) (kind : Nat) : ReadStop → State
  | .lost => s.countLost.setLinkJob { j with stage := 2, error := 7 }
  | .fault cause gpa va => s.pageRequest j.ctx va cause gpa kind

/-- Put and get jobs of one session start in posting order (R371). -/
def linkFirst (s : State) (j : LinkJob) : Bool :=
  !s.linkJobs.any (fun x => x.part == j.part && x.kind != .reduce && x.session == j.session && x.stage == 0 && decide (x.id < j.id))

/-- A put sends its next bytes to the peer's window. -/
def putNext (s : State) (j : LinkJob) : Option State :=
  let c := lcard j.card
  match s.session j.part j.session with
  | none => some (s.setLinkJob { j with stage := 2, error := 1 })
  | some x =>
    let n := min 216 (c.n - j.pos)
    match s.linkRead j (c.loc + j.pos) n with
    | .error e => some (s.linkStop j 4 e)
    | .ok b =>
      let j1 := { j with pos := j.pos + n, stage := if c.n ≤ j.pos + n then 1 else 0 }
      (s.sendFlit j.part x 0 j.id (c.remote + j.pos) (Config.dataPayload c.n c.flag b)).map (fun s1 =>
        (s1.linkHas j [(c.loc + j.pos, n)]).setLinkJob j1)

/-- The links that can carry a checkpoint's next line: those the partition owns that are up and have room (R376). -/
def openLinks (s : State) (p : Nat) : List Nat :=
  (List.range Config.links).filter (fun l => s.linkOwner l == some p && (s.link l).up && decide ((s.link l).replay.length < 256))

/-- A checkpoint's next line leaves as a put, by one of the partition's links (R376); with no session, or no line left, its puts are
over. DESIGN CHOICE: log entry 51. -/
def putLine (s : State) (j : LinkJob) : Option State :=
  let gone : State := { s with linkJobs := s.linkJobs.filter (fun x => x.id != j.id) }
  match j.lines, s.session j.part j.session with
  | (off, b) :: rest, some x =>
    let ls := s.openLinks j.part
    let q := s.pick ls.length
    if ls.isEmpty then none
    else (q.2.sendFlitOn (ls.getD q.1 0) j.part x 0 j.id off (Config.dataPayload (lcard j.card).n noFlag b)).map (fun s1 =>
      s1.setLinkJob { j with lines := rest })
  | _, _ => some gone

/-- A get reads the peer's bytes and writes them at its local address. DESIGN CHOICE: log entry 39. -/
def getAll (s : State) (j : LinkJob) : Option State :=
  let c := lcard j.card
  match s.session j.part j.session with
  | none => some (s.setLinkJob { j with stage := 2, error := 1 })
  | some x =>
    if x.peerLen < c.remote + c.n then some (s.setLinkJob { j with stage := 2, error := 2 })
    else if !(s.link x.link).up then none
    else match s.linkWrite j c.loc ((List.range c.n).map (fun i => Config.peerByte j.part x.peer j.session (c.remote + i) s.time)) with
      | .error e => some (s.linkStop j 5 e)
      | .ok (s1, t) => some (s1.setLinkJob { j with stage := 2, ctime := max j.ctime t })

/-! ### Reduce (R372, R373) -/

end State

/-- Codes of w bits in blocks of 16 (R55). -/
def packCodes (w : Nat) : Nat → List Nat → List Byte
  | 0, _ => []
  | g + 1, l =>
    bytesOfNat (2 * w) (((l.take 16).zipIdx.map (fun x => x.1 * 2 ^ (w * x.2))).foldl (· + ·) 0) ++ packCodes w g (l.drop 16)

/-- A vector quantised under its scales: the slot's bytes, and the elements that saturated (R56, R372). -/
def quantise (c : LCard) (xs : List Nat) (scales : List Nat) : List Byte × Nat :=
  if c.desc == 0 then ((xs.map (fun x => bytesOfNat 4 x)).flatten, 0)
  else
    let d := Narrow.ofWord c.desc
    let qs := xs.zipIdx.map (fun x => narrowScaled d x.1 (scales.getD (x.2 / 16) 127))
    (packCodes d.width ((c.n + 15) / 16) (qs.map (·.1)) ++ scales.map (fun e => BitVec.ofNat 8 e), (qs.filter (·.2)).length)

/-- v_i of a slot: the code under its scale, rounded once (R58, R372). -/
def slotValue (c : LCard) (b : List Byte) (i : Nat) : Nat :=
  if c.desc == 0 then cardN b (4 * i) 4
  else
    let d := Narrow.ofWord c.desc
    let w := d.width
    let code := cardN b (i / 16 * (2 * w)) (2 * w) / 2 ^ (w * (i % 16)) % 2 ^ w
    widenScaled d code ((b.getD ((slotBytes c).1 + i / 16) 127).toNat)

/-- The place of rank r's slot in the staging area: ascending ranks of the mask. -/
def slotAddr (c : LCard) (r : Nat) : Nat := c.staging + slotStride c * ((ranksOf c.mask).filter (fun x => decide (x < r))).length

namespace State

/-- The scales of a reduce, if its card has any. -/
def scaleRange (c : LCard) : List (Nat × Nat) := if c.scales == 0 then [] else [(c.scales, (c.n + 15) / 16)]

/-- A reduce begins: its own vector is quantised into its own slot. -/
def reduceStart (s : State) (j : LinkJob) : State :=
  let c := lcard j.card
  match s.linkRead j c.loc (4 * c.n), (if c.scales == 0 then .ok [] else s.linkRead j c.scales ((c.n + 15) / 16)) with
  | .error e, _ => s.linkStop j 4 e
  | _, .error e => s.linkStop j 4 e
  | .ok xb, .ok sb =>
    let xs := (List.range c.n).map (fun i => cardN xb (4 * i) 4)
    -- a card with no scales uses scale 1
    let ss := if c.scales == 0 then List.replicate ((c.n + 15) / 16) 127 else sb.map (·.toNat)
    let q := quantise c xs ss
    match s.linkWrite j (slotAddr c (selfRank j.members)) q.1 with
    | .error e => s.linkStop j 5 e
    | .ok (s1, t) => (s1.linkHas j ((c.loc, 4 * c.n) :: scaleRange c)).setLinkJob
        { j with stage := 1, arrived := [selfRank j.members], sat := q.2, ctime := max j.ctime t }

/-- The other ranks, and the flits that one contribution takes. -/
def reduceOthers (j : LinkJob) : List Nat := (ranksOf (lcard j.card).mask).filter (fun r => r != selfRank j.members)
def reduceFlits (j : LinkJob) : Nat := (slotStride (lcard j.card) + 215) / 216
def sentTo (j : LinkJob) (r : Nat) : Nat := (j.sent.lookup r).getD 0
def reduceSent (j : LinkJob) : Bool := (reduceOthers j).all (fun r => decide (reduceFlits j ≤ sentTo j r))
/-- A count of a rank takes a value. -/
def setCount (l : List (Nat × Nat)) (r n : Nat) : List (Nat × Nat) := (r, n) :: l.filter (fun x => x.1 != r)

/-- A reduce sends its next flit to a rank; one whose session is gone is passed over. -/
def reduceTo (s : State) (j : LinkJob) (r : Nat) : Option State :=
  let c := lcard j.card
  let per := reduceFlits j
  let i := sentTo j r
  let off := 216 * i
  let n := min 216 (slotStride c - off)
  if per ≤ i then none
  else match s.session j.part (memberOf j.members r) with
  | none => some (s.setLinkJob { j with sent := setCount j.sent r per })
  | some x =>
    let a := slotAddr c (selfRank j.members) + off
    match s.linkRead j a n with
    | .error e => some (s.linkStop j 4 e)
    | .ok b => (s.sendFlit j.part x 2 j.id off (Config.contributionPayload c.coll c.n c.desc.toNat c.mask b)).map (fun s1 =>
        (s1.linkHas j [(a, n)]).setLinkJob { j with sent := setCount j.sent r (i + 1) })
/-- A reduce sends its next flit: to the lowest rank whose link can take it (R372). -/
def reduceNext (s : State) (j : LinkJob) : Option State := (reduceOthers j).findSome? (s.reduceTo j)

/-- The collective id that a piece of a contribution gives, and whether it is the contribution's last piece. -/
def pieceColl (pt : List Byte) : Nat := (Config.contributionInfo pt).2.1
def lastPiece (off : Nat) (pt : List Byte) : Bool :=
  let i := Config.contributionInfo pt
  decide (slotStride { lcard [] with n := i.2.2.1, desc := BitVec.ofNat 32 i.2.2.2.1 } ≤ off + i.1 % 217)

/-- A session drops what it keeps of a contribution; what is still to come of it is dropped when it arrives. -/
def dropKept (x : Session) (coll : Nat) : Session :=
  match x.early.findIdx? (fun y => pieceColl y.2.1 == coll && lastPiece y.1 y.2.1) with
  | some i => { x with early := (x.early.take (i + 1)).filter (fun y => pieceColl y.2.1 != coll) ++ x.early.drop (i + 1) }
  | none => { x with early := x.early.filter (fun y => pieceColl y.2.1 != coll), late := x.late ++ [coll] }

/-- The contributions that an ended reduce has missed are dropped when they arrive. -/
def dropLater (s : State) (j : LinkJob) : State :=
  (reduceOthers j).foldl (fun s r =>
    if j.arrived.contains r || j.excluded.contains r then s
    else match s.session j.part (memberOf j.members r) with
      | some x => s.setSession j.part (dropKept x (lcard j.card).coll)
      | none => s) s

/-- A reduce ends: the sum over its contributors in ascending rank order, from −0, each step rounded (R373). -/
def reduceEnd (s : State) (j : LinkJob) : State :=
  let c := lcard j.card
  let ranks := (ranksOf c.mask).filter (fun r => j.arrived.contains r)
  let slots := ranks.map (fun r => s.linkRead j (slotAddr c r) (slotStride c))
  match slots.findSome? (fun x => match x with
    | .error e => some e
    | .ok _ => none) with
  | some e => s.linkStop j 4 e
  | none =>
    let bs := slots.filterMap (fun x => match x with
      | .ok b => some b
      | .error _ => none)
    let sum := (List.range c.n).map (fun i => bs.foldl (fun acc b => (fAdd .f32 .rne acc (slotValue c b i)).1) 0x80000000)
    match s.linkWrite j c.loc ((sum.map (fun x => bytesOfNat 4 x)).flatten) with
    | .error e => s.linkStop j 5 e
    | .ok (s1, t) =>
      ((s1.linkHas j (ranks.map (fun r => (slotAddr c r, slotStride c)))).dropLater j).setLinkJob { j with stage := 2, mask := ranks.foldl (fun m r => m + 2 ^ r) 0, ctime := max j.ctime t }

/-- The rank that a session's peer has in a reduce, while its contribution is wanted. -/
def wantedRank (j : LinkJob) (p n : Nat) : Option Nat :=
  if j.part == p && j.kind == .reduce && j.stage == 1 then
    (ranksOf (lcard j.card).mask).find? (fun r => memberOf j.members r == n && !j.arrived.contains r)
  else none

/-- A piece of a contribution that a reduce takes: into the sender's slot, or excluded when the cards disagree. The rank contributes
once its bytes are all there (R373). -/
def contributeTo (s : State) (j : LinkJob) (r off : Nat) (pt : List Byte) : Option State :=
  let c := lcard j.card
  let i := Config.contributionInfo pt
  let n := i.1 % 217
  if i.2 != (c.coll, c.n, c.desc.toNat, c.mask) || decide (slotStride c < off + n) then
    some (s.setLinkJob { j with excluded := if i.2.1 == c.coll && lastPiece off pt then j.excluded ++ [r] else j.excluded, error := 3 })
  else match s.linkWrite j (slotAddr c r + off) (pt.take n) with
    | .error (.fault cause gpa va) =>
      -- the flit is sent again once the page is there
      if ((s.context j.ctx).any (fun c => c.requests.any (fun q => q.range == va / 65536))) then none
      else some (s.pageRequest j.ctx va cause gpa 5)
    | .error .lost => none
    | .ok (s1, t) =>
      let got := (j.got.lookup r).getD 0 + n
      some (s1.setLinkJob { j with got := setCount j.got r got, ctime := max j.ctime t
                                   arrived := if slotStride c ≤ got then j.arrived ++ [r] else j.arrived })

/-- A reduce of a session's peer and a collective id is posted and has not begun. -/
def reducePosted (s : State) (p n coll : Nat) : Bool :=
  s.linkJobs.any (fun j => j.part == p && j.kind == .reduce && j.stage == 0 && (lcard j.card).coll == coll
    && (ranksOf (lcard j.card).mask).any (fun r => memberOf j.members r == n))

/-- A piece of a contribution arrives: a reduce of its collective id takes it before its deadline; it is kept for one that has not begun;
else one that wants a contribution of this peer excludes it; what a reduce that has ended missed is dropped, and a piece for a reduce
not posted yet is kept. DESIGN CHOICE: log entry 40. -/
def contribute (s : State) (p : Nat) (x : Session) (off : Nat) (pt : List Byte) : Option State :=
  let i := Config.contributionInfo pt
  let all := s.linkJobs.filterMap (fun j => (wantedRank j p x.n).map (fun r => (j, r)))
  let keep : State := s.setSession p { x with early := x.early ++ [(off, pt, s.time)] }
  match all.find? (fun y => (lcard y.1.card).coll == i.2.1) with
  | some y => if y.1.deadline ≤ s.time then none else s.contributeTo y.1 y.2 off pt
  | none =>
    if s.reducePosted p x.n i.2.1 then some keep
    else match all.find? (fun y => decide (s.time < y.1.deadline)) with
    | some y => s.contributeTo y.1 y.2 off pt
    | none =>
      if x.late.contains i.2.1 then
        some (s.setSession p (if lastPiece off pt then { x with late := x.late.erase i.2.1 } else x))
      else some keep

/-- The first kept piece of a rank that a reduce takes: of its collective id, and come before its deadline. -/
def earlyPiece (s : State) (j : LinkJob) (r : Nat) : Option (Session × Nat × Nat × List Byte) :=
  if j.arrived.contains r then none
  else (s.session j.part (memberOf j.members r)).bind (fun x =>
    (x.early.zipIdx.find? (fun y => pieceColl y.1.2.1 == (lcard j.card).coll && decide (y.1.2.2 < j.deadline))).map (fun y =>
      (x, y.2, y.1.1, y.1.2.1)))
/-- A piece kept in time has still to be taken. -/
def earlyLeft (s : State) (j : LinkJob) : Bool := (ranksOf (lcard j.card).mask).any (fun r => (s.earlyPiece j r).isSome)
/-- A reduce takes the next piece kept for it. -/
def takeEarly (s : State) (j : LinkJob) : Option State :=
  (ranksOf (lcard j.card).mask).findSome? (fun r => (s.earlyPiece j r).bind (fun y =>
    (s.setSession j.part { y.1 with early := y.1.early.eraseIdx y.2.1 }).contributeTo j r y.2.2.1 y.2.2.2))

/-! ### The peer's puts into a window (R368, R371) -/

/-- Bytes of a peer's put: into the window, at their homes; bytes outside it are dropped, and the put is a breach.
DESIGN CHOICE: log entry 40. -/
def windowPut (s : State) (p : Nat) (x : Session) (job off : Nat) (pt : List Byte) : State :=
  let i := Config.dataInfo pt
  let n := i.1 % 217
  let keys := if off + n ≤ x.len then s.gpKeys p (x.base + off) 2 n else none
  let out := keys.isNone
  let ks := keys.getD []
  let t := (ks.map (fun k => max s.time (s.leaseOf k))).foldl max s.time
  let s1 := s.putBytes { part := p } ks (pt.take n)
  match s1.remotePuts.find? (fun w => w.part == p && w.session == x.n && w.job == job) with
  | some w =>
    let upd : RemotePut → RemotePut := fun y =>
      if y.id == w.id then { y with got := y.got + n, ctime := max y.ctime t, breach := y.breach || out } else y
    { s1 with remotePuts := s1.remotePuts.map upd }
  | none =>
    let w : RemotePut :=
      { id := s1.nextId, part := p, session := x.n, job := job, flag := if i.2.2 == noFlag then none else some i.2.2, n := i.2.1
        ctime := t, got := n, breach := out }
    { s1 with remotePuts := s1.remotePuts ++ [w] }.bump

/-- The peer's get: bytes of the window, read at their homes, leave as data flits (R368); nothing outside it, and no lost data, is sent.
DESIGN CHOICE: log entry 39. -/
def windowGet (s : State) (p : Nat) (x : Session) (job : Nat) (pt : List Byte) : Option State :=
  let i := Config.getInfo pt
  let n := min 216 i.1
  match (if i.2 + n ≤ x.len then s.gpKeys p (x.base + i.2) 1 n else none) with
  | none => some s
  | some ks =>
    if ks.any s.lostKey then some s.countLost
    else (s.sendFlit p x 0 job i.2 (Config.dataPayload i.1 noFlag (ks.map s.mem.byte))).map (fun t => t.frontReads { part := p } ks)

/-- The flag of a put whose every write is performed and passed is filled; that of one that breached the window is not (R371). -/
def flagFilled (s : State) (w : RemotePut) (x : Session) : State :=
  match (if w.breach || w.filled then none else w.flag) with
  | none => s
  | some f => match (if f + 8 ≤ x.len then s.gpKeys w.part (x.base + f) 2 8 else none) with
    | none => s
    | some ks => s.fillKeys { part := w.part } ks w.n

/-- Every write of a put is performed and its completion time has passed: the flag is filled, and then the put acknowledged, as soon as
the session's link takes the flit; the acknowledgement of a breach says so. DESIGN CHOICE: log entry 40. -/
def fillFlag (s : State) (w : RemotePut) : Option State :=
  match s.session w.part w.session with
  | none => none
  | some x =>
    let s1 := s.flagFilled w x
    match s1.sendFlit w.part x 1 w.job 0 (Config.ackPayload (if w.breach then 2 else 0)) with
    | some s2 => some { s2 with remotePuts := s2.remotePuts.filter (fun y => y.id != w.id) }
    | none =>
      if w.filled then none
      else some { s1 with remotePuts := s1.remotePuts.map (fun y => if y.id == w.id then { y with filled := true } else y) }

/-! ### The end of a job (R374) -/

/-- The status word of a link job. -/
def linkStatus (j : LinkJob) : Nat :=
  j.sat % 2 ^ 32 * 2 ^ 32 + j.error * 2 ^ 24 + (ranksOf j.mask).length * 2 ^ 16 + 32

/-- A job leaves the link engine: its completion time joins its launch's, and a kind-3 node's work has ended (R303). -/
def linkGone (s : State) (j : LinkJob) : State :=
  let s1 := State.jobsUntil { s with linkJobs := s.linkJobs.filter (fun x => x.id != j.id) } j.fibre j.post j.ctime
  let s2 := match j.gang with
    | some g => s1.joinLaunch g j.ctime
    | none => s1
  match j.node with
  | none => s2
  | some n => (if j.error == 0 then s2 else s2.noteFatal j.ctx 10 j.error).endNode j.part n (if j.error == 0 then 0 else 7) 0

/-- A result that does not translate: a page request, or nothing more where the context has ended. DESIGN CHOICE: log entry 82. -/
def linkUnwritten (s : State) (j : LinkJob) (e : ReadStop) : State :=
  if s.liveContext j.ctx then s.linkStop j 5 e else s.linkGone j

/-- The mask of an ended job is written; the status word follows once its write too has passed. -/
def linkMask (s : State) (j : LinkJob) : State :=
  match s.linkWrite j ((lcard j.card).result + 8) (bytesOfNat 8 j.mask) with
  | .ok (s1, t) => s1.setLinkJob { j with stage := 3, ctime := max j.ctime t }
  | .error e => s.linkUnwritten j e

/-- The status word is written by a force-fill, and the job is gone. -/
def linkEnd (s : State) (j : LinkJob) : State :=
  match s.jobKeys j.asJob (lcard j.card).result .write 8 with
  | .ok ks => ((s.fillKeys (s.linkUse j (lcard j.card).result .write) ks (linkStatus j)).hostSees j.fibre j.part (s.jobNode j.asJob) ks).linkGone
      { j with ctime := (ks.filter (fun k => !isScratch k)).foldl (fun t k => max t (s.leaseOf k)) j.ctime }
  | .error f => s.linkUnwritten j (.fault f.1 f.2.1 f.2.2)

/-- A kind-3 node: its card is read and checked, and one job posted (R301, R369). -/
def dispatchLink (s : State) (p n : Nat) (d : Node) : Option State :=
  let a := d.payload.toNat
  let post : List Byte → List Byte → Option State := fun card t =>
    if s.lcardBad p none 0 card t then some (s.endNode p n 2 0)
    else if 64 ≤ s.linkLoad p then none
    else some ((s.postLink p d.ctx none none (some n) 0 0 card t).setNode p n { d with phase := .dispatched })
  if a % 128 != 0 || aperture a != 0 then some (s.endNode p n 2 0)
  else match s.frontRead d.ctx a 128 with
    | .error f => some (s.payloadStop p n d 2 4 f)
    | .ok card =>
      let c := lcard card
      if c.kind != 2 then post card []
      else if c.members % 8 != 0 || aperture c.members != 0 then some (s.endNode p n 2 0)
      else match s.frontRead d.ctx c.members 64 with
        | .error f => some (s.payloadStop p n d 2 4 f)
        | .ok t => post card t

/-- New keys of both directions (R365, R366): the identifiers of a handshake, and the counter of handshakes advanced. -/
def openSession (s : State) (p link peer n base len : Nat) : State :=
  let k := s.fresh
  let x : Session :=
    { n := n, link := link, peer := peer, base := base, len := len, peerLen := Config.peerWindow link peer n k, isOpen := true
      txKey := Config.sessionKey k 0, rxKey := Config.sessionKey k 1, txCount := 0, rxCount := 0
      txSalt := Config.sessionSalt k 0, rxSalt := Config.sessionSalt k 1, newTx := none, newRx := none, attempts := 0 }
  let add : Part → Part := fun pt => { pt with sessions := pt.sessions.filter (fun (y : Session) => y.n != n) ++ [x] }
  State.updPart { s with fresh := s.fresh + 1 } p add

/-- The flits after which a key is replaced (R366). -/
def rekeyAt : Nat := 2 ^ 32 - 2 ^ 20

/-- A rekey of the directions that have reached their threshold: the sender switches at a control flit, the last under the
old key; the receiver keeps the old key until that flit arrives, and a key agreed before stays agreed. -/
def rekey (s : State) (p : Nat) (x : Session) : Option State :=
  let k := s.fresh
  let s0 := { s with fresh := s.fresh + 1 }
  if !Config.handshake (s.part p).roots x.link x.peer x.n k then some (s0.loseSession p x.n)
  else
    let x1 := { x with attempts := x.attempts + 1, newRx := if rekeyAt ≤ x.rxCount && x.newRx.isNone then some k else x.newRx }
    if x.txCount < rekeyAt then some (s0.setSession p x1)
    else
      (s0.sendFlit p x1 3 0 0 (Config.controlPayload 0)).map (fun s1 =>
        s1.setSession p { x1 with txKey := Config.sessionKey k 0, txSalt := Config.sessionSalt k 0, txCount := 0 })

end State

/-- NODE_LINK (R301): a ready link node is dispatched to the partition's link engines. -/
def execNodeLink (part node : Nat) (s : State) : Host.Outcome State Fault Refusal :=
  evPort "NODE_LINK" (s.dispatch part node (· == 3) (fun s d => s.dispatchLink part node d))

/-- SESSION_OPEN (R365): a peer is authenticated and keys are derived. -/
def execSessionOpen (part link peer n base len : Nat) (s : State) : Host.Outcome State Fault Refusal :=
  ev "SESSION_OPEN" (
    let inside := (List.range (len / 65536)).all (fun i => ((s.part part).stage2 (base + 65536 * i) 1).isOk)
    if part ≥ Config.partitions ∨ s.linkOwner link ≠ some part ∨ n ≥ 64 ∨ (s.session part n).isSome ∨ base % 65536 ≠ 0
      ∨ len % 65536 ≠ 0 ∨ len = 0 ∨ inside = false ∨ (s.link link).up = false then none
    else if Config.handshake (s.part part).roots link peer n s.fresh then some (s.openSession part link peer n base len)
    else some { s with fresh := s.fresh + 1 })

/-- REKEY (R366): a counter has reached its threshold. -/
def execRekey (part n : Nat) (s : State) : Host.Outcome State Fault Refusal :=
  ev "REKEY" (match s.session part n with
    | none => none
    | some x =>
      if State.rekeyAt ≤ x.txCount ∨ (State.rekeyAt ≤ x.rxCount ∧ x.newRx = none) then s.rekey part x else none)

/-- SESSION_CLOSE (R367): either end closes the session. -/
def execSessionClose (part n : Nat) (s : State) : Host.Outcome State Fault Refusal :=
  ev "SESSION_CLOSE" ((s.session part n).map (fun _ => s.loseSession part n))

/-- SESSION_LOSS (R367): the session is lost. DESIGN CHOICE: log entry 42. -/
def execSessionLoss (part n : Nat) (s : State) : Host.Outcome State Fault Refusal :=
  ev "SESSION_LOSS" ((s.session part n).map (fun _ => s.loseSession part n))

/-- LINK_DOWN_EXPIRY (R367): a link that has been down for more than 1 s loses its sessions. -/
def execLinkDownExpiry (link : Nat) (s : State) : Host.Outcome State Fault Refusal :=
  ev "LINK_DOWN_EXPIRY" (
    let l := s.link link
    let xs := s.sessionsOn link
    if l.up || decide (s.time ≤ l.downSince + 1000000000) || xs.isEmpty then none
    else some (xs.foldl (fun s x => s.loseSession x.1 x.2) s))

/-- FLIT_DATA (R363): a data flit is checked and its bytes are written into the session's window. -/
def execFlitData (link : Nat) (flit : List Byte) (s : State) : Host.Outcome State Fault Refusal :=
  evPort "FLIT_DATA" (s.receiveFlit link flit 0 (fun s p x pt =>
    if s.linkServes p then some (s.windowPut p x (flitJob flit) (flitOff flit) pt) else none))

/-- FLIT_ACKNOWLEDGEMENT (R363): the peer has performed a put. -/
def execFlitAcknowledgement (link : Nat) (flit : List Byte) (s : State) : Host.Outcome State Fault Refusal :=
  ev "FLIT_ACKNOWLEDGEMENT" (s.receiveFlit link flit 1 (fun s p x pt =>
    let e := if Config.ackError pt == 2 then 2 else 0
    let upd : LinkJob → LinkJob := fun j =>
      if j.part == p && j.session == x.n && j.kind == .put && j.stage == 1 && j.id % 65536 == flitJob flit then { j with stage := 2, error := e } else j
    some { s with linkJobs := s.linkJobs.map upd }))

/-- FLIT_CONTRIBUTION (R363): a piece of a member's contribution to a reduce. -/
def execFlitContribution (link : Nat) (flit : List Byte) (s : State) : Host.Outcome State Fault Refusal :=
  evPort "FLIT_CONTRIBUTION" (s.receiveFlit link flit 2 (fun s p x pt =>
    if s.linkServes p then s.contribute p x (flitOff flit) pt else none))

/-- FLIT_CONTROL (R366): the key switch, a close by the peer, a request for bytes of the window, or another control flit. -/
def execFlitControl (link : Nat) (flit : List Byte) (s : State) : Host.Outcome State Fault Refusal :=
  evPort "FLIT_CONTROL" (s.receiveFlit link flit 3 (fun s p x pt =>
    match Config.controlKind pt with
    | 0 => match x.newRx with
      | some k => some (s.setSession p { x with rxKey := Config.sessionKey k 1, rxSalt := Config.sessionSalt k 1, rxCount := 0, newRx := none })
      | none => some s
    | 1 => some (s.loseSession p x.n)
    | 2 => if s.linkServes p then s.windowGet p x (flitJob flit) pt else none
    | _ => some s))

/-- FLIT_RESERVED_KIND (R364): a flit of a reserved kind is dropped and counted. -/
def execFlitReservedKind (link : Nat) (flit : List Byte) (s : State) : Host.Outcome State Fault Refusal :=
  ev "FLIT_RESERVED_KIND" (
    let l := s.link link
    if link ≥ Config.links || flit.length != 256 || !l.up || decide (flitKind flit < 4) then none
    else if !flitCrcOk flit || flitSeq flit != l.rxSeq then some (s.updLink link (fun l => { l with nakOut := some l.rxSeq }))
    else some ((s.updLink link (fun l => { (l.acked (flitAcked flit)).received with errors := l.errors + 1 })).skipFlit link flit))

/-- NAK (R364): every flit from the one named is sent again out of the replay buffer; one that follows a resend says that it failed. -/
def execNak (link : Nat) (seq : BitVec 16) (s : State) : Host.Outcome State Fault Refusal :=
  ev "NAK" (if link ≥ Config.links || !(s.link link).up then none
    else some (s.updLink link (fun l => { l with
      replay := (match l.replay.findIdx? (fun x => x.1 == seq.toNat) with
        | some i => l.replay.drop i
        | none => l.replay)
      resends := if l.resent then l.resends + 1 else l.resends, resent := true })))

/-- LINK_RETRAIN (R364): after 16 failed resends the link retrains. -/
def execLinkRetrain (link : Nat) (s : State) : Host.Outcome State Fault Refusal :=
  ev "LINK_RETRAIN" (if link < Config.links ∧ (s.link link).up ∧ 16 ≤ (s.link link).resends then
      some (s.updLink link (fun l => { l with up := false, retraining := true, downSince := s.time }))
    else none)

/-- LINK_RETRAINED (R364): the link comes back up and carries its sessions' flits again. -/
def execLinkRetrained (link : Nat) (s : State) : Host.Outcome State Fault Refusal :=
  ev "LINK_RETRAINED" (if link < Config.links ∧ (s.link link).retraining then
      some (s.updLink link (fun l => { l with up := true, retraining := false, resends := 0, resent := false }))
    else none)

/-- LANE_REPLACE (R352): a lane that fails retraining is replaced by the link's spare lane, or, for a link number beyond the links, which
names a direction of the die bridge, by the spare of its 32 lanes. DESIGN CHOICE: log entry 47. -/
def execLaneReplace (link lane : Nat) (s : State) : Host.Outcome State Fault Refusal :=
  ev "LANE_REPLACE" (
    let dir := link - Config.links
    if Config.links ≤ link then
      (if decide (dir < 2) && decide (lane < Config.bridgeLanes)
          && !s.pf.bridgeSpares.any (fun x => x.1 == dir && x.2 / 32 == lane / 32) then
        some (s.updPf (fun f => { f with bridgeSpares := (dir, lane) :: f.bridgeSpares }))
      else none)
    else if link < Config.links ∧ lane < 9 ∧ (s.link link).retraining ∧ (s.link link).failedLane = none then
      some (s.updLink link (fun l => { l with failedLane := some lane }))
    else none)

/-- LINK_PUT (R371): a put sends its next bytes to the peer's window. -/
def execLinkPut (job : Nat) (s : State) : Host.Outcome State Fault Refusal :=
  evPort "LINK_PUT" (match s.linkJob job with
    | some j => if s.linkServes j.part && j.kind == .put && j.stage == 0 && s.linkFirst j then (if j.checkpoint then s.putLine j else s.putNext j) else none
    | none => none)

/-- LINK_GET (R371): a get reads the peer's window into local memory. -/
def execLinkGet (job : Nat) (s : State) : Host.Outcome State Fault Refusal :=
  evPort "LINK_GET" (match s.linkJob job with
    | some j => if s.linkServes j.part && j.kind == .get && j.stage == 0 && s.linkFirst j then s.getAll j else none
    | none => none)

/-- LINK_REDUCE (R372): a reduce quantises its vector, sends it to every member, and ends once all have contributed. -/
def execLinkReduce (job : Nat) (s : State) : Host.Outcome State Fault Refusal :=
  evPort "LINK_REDUCE" (match s.linkJob job with
    | some j =>
      if j.kind != .reduce || !s.linkServes j.part then none
      else if j.stage == 0 then some (s.reduceStart j)
      else if j.stage != 1 then none
      else if (s.takeEarly j).isSome then s.takeEarly j
      else if !State.reduceSent j then s.reduceNext j
      else if (ranksOf (lcard j.card).mask).all (fun r => j.arrived.contains r) then some (s.reduceEnd j)
      else none
    | none => none)

/-- PUT_FLAG_FILL (R371): the flag of a peer's put is filled once its writes have passed. -/
def execPutFlagFill (put : Nat) (s : State) : Host.Outcome State Fault Refusal :=
  evPort "PUT_FLAG_FILL" (match s.remotePuts.find? (fun w => w.id == put) with
    | some w => if s.linkServes w.part = true ∧ w.n ≤ w.got ∧ w.ctime ≤ s.time then s.fillFlag w else none
    | none => none)

/-- REDUCE_DEADLINE (R373): the deadline passes, and the reduce ends with the contributors present, those in time among what is kept taken
before. -/
def execReduceDeadline (job : Nat) (s : State) : Host.Outcome State Fault Refusal :=
  evPort "REDUCE_DEADLINE" (match s.linkJob job with
    | some j => if s.linkServes j.part && j.kind == .reduce && j.stage == 1 && decide (j.deadline ≤ s.time) && !s.earlyLeft j then some (s.reduceEnd j) else none
    | none => none)

/-- LINK_JOB_END (R374): the mask is written, and once the job's writes have passed the status word is force-filled. -/
def execLinkJobEnd (job : Nat) (s : State) : Host.Outcome State Fault Refusal :=
  evPort "LINK_JOB_END" (match s.linkJob job with
    | some j =>
      if !s.linkServes j.part then none
      else if j.stage == 2 then some (s.linkMask j)
      else if j.stage == 3 && decide (j.ctime ≤ s.time) then some (s.linkEnd j)
      else none
    | none => none)

end Sys2Proof.Machine
end

