-- ==== Sys2Proof/Machine/Float.lean ====
section
/-! DEFINITION. Sys2Proof/Machine/Float.lean: the floating-point, division and conversion words (R114 to R132). -/

namespace Sys2Proof.Machine

/-- FADD (R115): Binary32 addition rounded once in %RMODE. -/
def execFadd (h : Head) (d : BitVec 6) (a : BitVec 6) (b : BitVec 6) (s : State) :
    Host.Outcome State Fault Refusal :=
  aluFlags (.fadd h d a b) h s (fun r => fAdd .f32 (rmodeOf r) (r.reg a).toNat (r.reg b).toNat) d

/-- FSUB (R115): Binary32 subtraction rounded once in %RMODE. -/
def execFsub (h : Head) (d : BitVec 6) (a : BitVec 6) (b : BitVec 6) (s : State) :
    Host.Outcome State Fault Refusal :=
  aluFlags (.fsub h d a b) h s (fun r => fSub .f32 (rmodeOf r) (r.reg a).toNat (r.reg b).toNat) d

/-- FMUL (R115): Binary32 multiplication rounded once in %RMODE. -/
def execFmul (h : Head) (d : BitVec 6) (a : BitVec 6) (b : BitVec 6) (s : State) :
    Host.Outcome State Fault Refusal :=
  aluFlags (.fmul h d a b) h s (fun r => fMul .f32 (rmodeOf r) (r.reg a).toNat (r.reg b).toNat) d

/-- FMAC (R115): Fused binary32 multiply-add into the destination with one rounding. -/
def execFmac (h : Head) (d : BitVec 6) (a : BitVec 6) (b : BitVec 6) (s : State) :
    Host.Outcome State Fault Refusal :=
  aluFlags (.fmac h d a b) h s (fun r => fFma .f32 (rmodeOf r) (r.reg a).toNat (r.reg b).toNat (r.reg d).toNat) d

/-- FNMAC (R115): Fused binary32 destination minus product with one rounding. -/
def execFnmac (h : Head) (d : BitVec 6) (a : BitVec 6) (b : BitVec 6) (s : State) :
    Host.Outcome State Fault Refusal :=
  aluFlags (.fnmac h d a b) h s (fun r => fFnma .f32 (rmodeOf r) (r.reg a).toNat (r.reg b).toNat (r.reg d).toNat) d

/-- FMIN (R116): Returns the lesser binary32 operand, a NaN losing to a number. -/
def execFmin (h : Head) (d : BitVec 6) (a : BitVec 6) (b : BitVec 6) (s : State) :
    Host.Outcome State Fault Refusal :=
  aluFlags (.fmin h d a b) h s (fun r => fMinMax .f32 false (r.reg a).toNat (r.reg b).toNat) d

/-- FMAX (R116): Returns the greater binary32 operand, a NaN losing to a number. -/
def execFmax (h : Head) (d : BitVec 6) (a : BitVec 6) (b : BitVec 6) (s : State) :
    Host.Outcome State Fault Refusal :=
  aluFlags (.fmax h d a b) h s (fun r => fMinMax .f32 true (r.reg a).toNat (r.reg b).toNat) d

/-- FCMP (R117): Compares two binary32 values and writes a predicate pair. -/
def execFcmp (h : Head) (n : BitVec 3) (p : BitVec 3) (a : BitVec 6) (b : BitVec 6) (s : State) :
    Host.Outcome State Fault Refusal :=
  word (.fcmp h n p a b) h s (fun s ks =>
    (s.updFibres ks (fun k x => x.setPredFp n p (fCompare .f32 n ((s.srcOf k).reg a).toNat ((s.srcOf k).reg b).toNat))).request
      ks (fun k => .flags s.wordPc (fCompare .f32 n ((s.srcOf k).reg a).toNat ((s.srcOf k).reg b).toNat).2))

/-- FNEG (R118): Inverts the sign bit of a binary32 value, canonicalising a NaN. -/
def execFneg (h : Head) (d : BitVec 6) (a : BitVec 6) (s : State) :
    Host.Outcome State Fault Refusal :=
  aluFlags (.fneg h d a) h s (fun r => fNegAbs .f32 false (r.reg a).toNat) d

/-- FABS (R118): Clears the sign bit of a binary32 value, canonicalising a NaN. -/
def execFabs (h : Head) (d : BitVec 6) (a : BitVec 6) (s : State) :
    Host.Outcome State Fault Refusal :=
  aluFlags (.fabs h d a) h s (fun r => fNegAbs .f32 true (r.reg a).toNat) d

/-- HADD2 (R120): Adds two pairs of binary16 elements. -/
def execHadd2 (h : Head) (d : BitVec 6) (a : BitVec 6) (b : BitVec 6) (s : State) :
    Host.Outcome State Fault Refusal :=
  aluFlags (.hadd2 h d a b) h s (fun r => packed2 (fun x y _ => fAdd .f16 (rmodeOf r) x y) (r.reg a).toNat (r.reg b).toNat 0) d

/-- HMUL2 (R120): Multiplies two pairs of binary16 elements. -/
def execHmul2 (h : Head) (d : BitVec 6) (a : BitVec 6) (b : BitVec 6) (s : State) :
    Host.Outcome State Fault Refusal :=
  aluFlags (.hmul2 h d a b) h s (fun r => packed2 (fun x y _ => fMul .f16 (rmodeOf r) x y) (r.reg a).toNat (r.reg b).toNat 0) d

/-- BADD2 (R120): Adds two pairs of bfloat16 elements. -/
def execBadd2 (h : Head) (d : BitVec 6) (a : BitVec 6) (b : BitVec 6) (s : State) :
    Host.Outcome State Fault Refusal :=
  aluFlags (.badd2 h d a b) h s (fun r => packed2 (fun x y _ => fAdd .bf16 (rmodeOf r) x y) (r.reg a).toNat (r.reg b).toNat 0) d

/-- BMUL2 (R120): Multiplies two pairs of bfloat16 elements. -/
def execBmul2 (h : Head) (d : BitVec 6) (a : BitVec 6) (b : BitVec 6) (s : State) :
    Host.Outcome State Fault Refusal :=
  aluFlags (.bmul2 h d a b) h s (fun r => packed2 (fun x y _ => fMul .bf16 (rmodeOf r) x y) (r.reg a).toNat (r.reg b).toNat 0) d

/-- HFMAC2 (R120): Fused multiply-add of binary16 element pairs into the destination. -/
def execHfmac2 (h : Head) (d : BitVec 6) (a : BitVec 6) (b : BitVec 6) (s : State) :
    Host.Outcome State Fault Refusal :=
  aluFlags (.hfmac2 h d a b) h s (fun r => packed2 (fun x y z => fFma .f16 (rmodeOf r) x y z) (r.reg a).toNat (r.reg b).toNat (r.reg d).toNat) d

/-- BFMAC2 (R120): Fused multiply-add of bfloat16 element pairs into the destination. -/
def execBfmac2 (h : Head) (d : BitVec 6) (a : BitVec 6) (b : BitVec 6) (s : State) :
    Host.Outcome State Fault Refusal :=
  aluFlags (.bfmac2 h d a b) h s (fun r => packed2 (fun x y z => fFma .bf16 (rmodeOf r) x y z) (r.reg a).toNat (r.reg b).toNat (r.reg d).toNat) d

/-- DADD (R121): Binary64 addition of two pairs on the XU pipe. -/
def execDadd (h : Head) (d : BitVec 6) (a : BitVec 6) (b : BitVec 6) (s : State) :
    Host.Outcome State Fault Refusal :=
  later (.dadd h d a b) h s true (fun r => onePair d (fAdd .f64 (rmodeOf r) (r.pair a).toNat (r.pair b).toNat))

/-- DMUL (R121): Binary64 multiplication of two pairs on the XU pipe. -/
def execDmul (h : Head) (d : BitVec 6) (a : BitVec 6) (b : BitVec 6) (s : State) :
    Host.Outcome State Fault Refusal :=
  later (.dmul h d a b) h s true (fun r => onePair d (fMul .f64 (rmodeOf r) (r.pair a).toNat (r.pair b).toNat))

/-- DFMAC (R121): Fused binary64 multiply-add into the destination pair on the XU pipe. -/
def execDfmac (h : Head) (d : BitVec 6) (a : BitVec 6) (b : BitVec 6) (s : State) :
    Host.Outcome State Fault Refusal :=
  later (.dfmac h d a b) h s true (fun r => onePair d (fFma .f64 (rmodeOf r) (r.pair a).toNat (r.pair b).toNat (r.pair d).toNat))

/-- DCMP (R122): Compares two binary64 pairs on the XU pipe and writes a predicate pair. -/
def execDcmp (h : Head) (n : BitVec 3) (p : BitVec 3) (a : BitVec 6) (b : BitVec 6) (s : State) :
    Host.Outcome State Fault Refusal :=
  later (.dcmp h n p a b) h s true (fun r => onePred n p (fCompare .f64 n (r.pair a).toNat (r.pair b).toNat))

/-- IDIV.s (R114): Signed integer division on the XU pipe. -/
def execIdivS (h : Head) (d : BitVec 6) (a : BitVec 6) (b : BitVec 6) (s : State) :
    Host.Outcome State Fault Refusal :=
  later (.idivS h d a b) h s true (fun r => oneReg d ((idivS (r.reg a) (r.reg b)).toNat, 0))

/-- IDIV.n (R114): Unsigned integer division on the XU pipe. -/
def execIdivN (h : Head) (d : BitVec 6) (a : BitVec 6) (b : BitVec 6) (s : State) :
    Host.Outcome State Fault Refusal :=
  later (.idivN h d a b) h s true (fun r => oneReg d ((idivN (r.reg a) (r.reg b)).toNat, 0))

/-- IREM.s (R114): Signed integer remainder on the XU pipe. -/
def execIremS (h : Head) (d : BitVec 6) (a : BitVec 6) (b : BitVec 6) (s : State) :
    Host.Outcome State Fault Refusal :=
  later (.iremS h d a b) h s true (fun r => oneReg d ((iremS (r.reg a) (r.reg b)).toNat, 0))

/-- IREM.n (R114): Unsigned integer remainder on the XU pipe. -/
def execIremN (h : Head) (d : BitVec 6) (a : BitVec 6) (b : BitVec 6) (s : State) :
    Host.Outcome State Fault Refusal :=
  later (.iremN h d a b) h s true (fun r => oneReg d ((iremN (r.reg a) (r.reg b)).toNat, 0))

/-- FDIV (R123): Binary32 division correctly rounded in %RMODE. -/
def execFdiv (h : Head) (d : BitVec 6) (a : BitVec 6) (b : BitVec 6) (s : State) :
    Host.Outcome State Fault Refusal :=
  later (.fdiv h d a b) h s true (fun r => oneReg d (fDiv .f32 (rmodeOf r) (r.reg a).toNat (r.reg b).toNat))

/-- FSQRT (R124): Binary32 square root. -/
def execFsqrt (h : Head) (d : BitVec 6) (a : BitVec 6) (s : State) :
    Host.Outcome State Fault Refusal :=
  later (.fsqrt h d a) h s true (fun r => oneReg d (fSqrt .f32 (rmodeOf r) (r.reg a).toNat))

/-- FRCP (R124): Binary32 reciprocal. -/
def execFrcp (h : Head) (d : BitVec 6) (a : BitVec 6) (s : State) :
    Host.Outcome State Fault Refusal :=
  later (.frcp h d a) h s true (fun r => oneReg d (fRcp .f32 (rmodeOf r) (r.reg a).toNat))

/-- FRSQ (R124): Binary32 reciprocal square root. -/
def execFrsq (h : Head) (d : BitVec 6) (a : BitVec 6) (s : State) :
    Host.Outcome State Fault Refusal :=
  later (.frsq h d a) h s true (fun r => oneReg d (fRsqrt .f32 (rmodeOf r) (r.reg a).toNat))

/-- FEXP2 (R125): Computes 2^x in binary32, rounded to nearest even. -/
def execFexp2 (h : Head) (d : BitVec 6) (a : BitVec 6) (s : State) :
    Host.Outcome State Fault Refusal :=
  later (.fexp2 h d a) h s true (fun r => oneReg d (fExp2 (r.reg a).toNat))

/-- FLOG2 (R125): Computes log2 x in binary32, rounded to nearest even. -/
def execFlog2 (h : Head) (d : BitVec 6) (a : BitVec 6) (s : State) :
    Host.Outcome State Fault Refusal :=
  later (.flog2 h d a) h s true (fun r => oneReg d (fLog2 (r.reg a).toNat))

/-- FSINP (R125): Computes sin(pi x) in binary32, rounded to nearest even. -/
def execFsinp (h : Head) (d : BitVec 6) (a : BitVec 6) (s : State) :
    Host.Outcome State Fault Refusal :=
  later (.fsinp h d a) h s true (fun r => oneReg d (fSinPi (r.reg a).toNat))

/-- FCOSP (R125): Computes cos(pi x) in binary32, rounded to nearest even. -/
def execFcosp (h : Head) (d : BitVec 6) (a : BitVec 6) (s : State) :
    Host.Outcome State Fault Refusal :=
  later (.fcosp h d a) h s true (fun r => oneReg d (fCosPi (r.reg a).toNat))

/-- DDIV (R123): Binary64 division of two pairs. -/
def execDdiv (h : Head) (d : BitVec 6) (a : BitVec 6) (b : BitVec 6) (s : State) :
    Host.Outcome State Fault Refusal :=
  later (.ddiv h d a b) h s true (fun r => onePair d (fDiv .f64 (rmodeOf r) (r.pair a).toNat (r.pair b).toNat))

/-- DSQRT (R124): Binary64 square root of a pair. -/
def execDsqrt (h : Head) (d : BitVec 6) (a : BitVec 6) (s : State) :
    Host.Outcome State Fault Refusal :=
  later (.dsqrt h d a) h s true (fun r => onePair d (fSqrt .f64 (rmodeOf r) (r.pair a).toNat))

/-- CVT (R127): Converts a value between the source and destination types in B. -/
def execCvt (h : Head) (d : BitVec 6) (a : BitVec 6) (x : BitVec 3) (y : BitVec 3) (s : State) :
    Host.Outcome State Fault Refusal :=
  word (.cvt h d a x y) h s (fun s ks =>
    (s.updFibres ks (fun k v => let r := cvt (rmodeOf (s.srcOf k)) x y (cvtSource x (s.srcOf k) a)
      if is64 y then v.setPair d (BitVec.ofNat 64 r.1) else v.setReg d (BitVec.ofNat 32 r.1))).request ks
        (fun k => .flags s.wordPc (cvt (rmodeOf (s.srcOf k)) x y (cvtSource x (s.srcOf k) a)).2))

/-- NARROW (R131): Converts binary32 to a narrow-format code described by a descriptor. -/
def execNarrow (h : Head) (d : BitVec 6) (a : BitVec 6) (b : BitVec 6) (s : State) :
    Host.Outcome State Fault Refusal :=
  aluFlags (.narrow h d a b) h s (fun r => let q := narrow32 (.ofWord (r.reg b)) (r.reg a).toNat; (q.1, q.2.2)) d

/-- WIDEN (R132): Converts a narrow-format code to its exact binary32 value. -/
def execWiden (h : Head) (d : BitVec 6) (a : BitVec 6) (b : BitVec 6) (s : State) :
    Host.Outcome State Fault Refusal :=
  alu (.widen h d a b) h s (fun r x => x.setReg d (BitVec.ofNat 32 (widen32 (.ofWord (r.reg b)) (r.reg a).toNat)))

/-- FCLASS (R119): Writes a one-hot class word for a binary32 value. -/
def execFclass (h : Head) (d : BitVec 6) (a : BitVec 6) (s : State) :
    Host.Outcome State Fault Refusal :=
  alu (.fclass h d a) h s (fun r x => x.setReg d (BitVec.ofNat 32 (2 ^ fClassBit .f32 (r.reg a).toNat)))

end Sys2Proof.Machine
end

