-- ==== Sys2Proof/Machine/Health.lean ====
section
/-! DEFINITION. Sys2Proof/Machine/Health.lean: channel ports (R342 to R344), error correction and scrubbing (R345 to R349),
spares (R350, R351), bring-up (R353), power and temperature (R356), resets (R358), attestation (R361). -/

namespace Sys2Proof.Machine

namespace State

/-! ### Requests and replies (R342 to R344) -/

def portReq (s : State) (ch tag : Nat) : Option PortReq := s.ports.find? (fun p => p.ch == ch && p.tag == tag)
def setPort (s : State) (r : PortReq) : State :=
  { s with ports := s.ports.map (fun p => if p.ch == r.ch && p.tag == r.tag then r else p) }
def dropPort (s : State) (r : PortReq) : State :=
  { s with ports := s.ports.filter (fun p => !(p.ch == r.ch && p.tag == r.tag)) }

/-- No earlier request to one of its sectors is still to be performed (R343). -/
def portTurn (s : State) (r : PortReq) : Bool :=
  (s.ports.takeWhile (fun p => !(p.ch == r.ch && p.tag == r.tag))).all (fun p =>
    p.ch != r.ch || p.done || !p.sectors.any (fun x => r.sectors.contains x))

/-- The base die performs a request of a kind. The bytes of a write are in memory since its home performed it; a partial write that is
lost leaves its sector in error, so that none of them is read. -/
def perform (s : State) (ch tag : Nat) (kind : PortKind) : Option State :=
  match s.portReq ch tag with
  | none => none
  | some r =>
    if r.done || r.kind != kind || !s.portTurn r then none
    else match kind with
      | .writeSector => some ((s.healSector ch r.sector).setPort { r with done := true })
      | .writeLine => some (((s.healSector ch r.sector).healSector ch (r.sector + 1)).setPort { r with done := true })
      | .readLine =>
        let a := s.readSector ch r.sector
        let b := a.2.readSector ch (r.sector + 1)
        some (b.2.setPort { r with done := true, status := (a.1, b.1) })
      -- a read, or the read of a read-modify-write, which with status 2 performs nothing
      | _ =>
        let a := s.readSector ch r.sector
        some (a.2.setPort { r with done := true, status := (a.1, 0) })

/-- A write that the slice issued before this read, to one of its sectors, has not been answered (R343). -/
def olderWrite (s : State) (r : PortReq) : Bool :=
  (s.ports.takeWhile (fun p => !(p.ch == r.ch && p.tag == r.tag))).any (fun p =>
    p.ch == r.ch && !p.kind.isRead && p.sectors.any (fun x => r.sectors.contains x))

/-- A read reply arrives, after the answers to older writes of its sectors: every sector but an uncorrectable one is installed in the slice (R348), once its set has room. -/
def readReply (s : State) (ch tag : Nat) : Option State :=
  match s.portReq ch tag with
  | none => none
  | some r =>
    if !r.done || !r.kind.isRead || s.olderWrite r then none
    else
      let s1 := s.dropPort r
      if r.kind == .scrub then some s1
      else
        let a := sectorAddr ch r.sector
        let lo := decide (a % 64 < 32)
        let first := r.status.1 != 2
        let second := r.status.2 != 2
        let valid := (List.range 64).map (fun i =>
          if r.kind == .readLine then (if i < 32 then first else second) else first && (decide (i < 32) == lo))
        if valid.any (· == true) then some (s1.allocate { part := 0, policy := r.policy } (lineOf a) valid noBytes []) else some s1

/-- A write reply arrives; status 2 is reported to the writer's fault queue (R344). -/
def writeReply (s : State) (ch tag : Nat) : Option State :=
  match s.portReq ch tag with
  | none => none
  | some r =>
    if !r.done || r.kind.isRead then none
    else
      let s1 := s.dropPort r
      match r.ctx with
      | some c => some (if r.status.1 == 2 then s1.noteFatal c 5 (sectorAddr ch r.sector) else s1)
      | none => some s1

/-! ### Scrubbing (R349) and spares (R350, R351) -/

/-- The partition that owns a channel. -/
def channelOwner (s : State) (ch : Nat) : Option Nat := s.sliceOwner (ch / 16)

/-- A frame with an uncorrectable sector is retired: the partition's list, the hypervisor's queue, and the context that last
used the frame. -/
def retire (s : State) (ch sec : Nat) : State :=
  let a := sectorAddr ch sec
  let f := a / 65536
  let p := s.channelOwner ch
  let s1 := match p with
    | none => s
    | some p => s.updPart p (fun x =>
      if x.retired.contains f then x
      else if 64 ≤ x.retired.length then { x with retiredOvf := true }
      else { x with retired := x.retired ++ [f] })
  let s2 := s1.hvRecord 1 (p.getD 16) a
  match s2.frameCtx.lookup f with
  | some c => s2.noteFatal c 6 a
  | none => s2

/-- What a scrub read finds: its status, and the sector corrected or its frame retired. The read of a channel's first sector begins a new
pass. -/
def scrub (s : State) (ch sec : Nat) : Nat × State :=
  let s0 := if sec == 0 then { s with rowFixes := s.rowFixes.filter (fun x => x.1 / 2 ^ 32 != ch) } else s
  let r := s0.readSector ch sec
  let known := match s0.channelOwner ch with
    | some p => (s0.part p).retired.contains (sectorAddr ch sec / 65536)
    | none => false
  (r.1, if r.1 == 2 && !known then r.2.retire ch sec else r.2)

/-- A scrub read is sent with a tag, in its turn among the requests to the sector, and performed; its tag is in use until the reply is
taken (R343). -/
def scrubRead (s : State) (ch sec : Nat) : Option State :=
  if s.portAhead ch sec then none
  else match s.freeTag ch with
  | none => some s.noTag
  | some t =>
    let r := s.scrub ch sec
    some { r.2 with ports := r.2.ports ++ [{ kind := .scrub, ch := ch, tag := t, sector := sec, done := true, status := (r.1, 0) }] }

/-- A row is copied to a spare row, with every correctable sector corrected and counted (R345, R351). -/
def copyRow (s : State) (ch row : Nat) : State :=
  let inRow : Nat → Bool := fun b => channelOf (32 * b) == ch && Config.rowOf (sectorOf (32 * b)) % 2 ^ 32 == row
  let s1 := { s with
    badSectors := s.badSectors.filter (fun b => !(inRow b.1 && b.2 == 1))
    rowFixes := s.rowFixes.filter (fun x => x.1 != ch * 2 ^ 32 + row) }
  s1.updPf (fun f => { f with rowsUsed := f.rowsUsed.modify ch (· + 1)
                              eccHbm := satAdd f.eccHbm (s.badSectors.filter (fun b => inRow b.1 && b.2 == 1)).length })

/-- Gangs with a place on a cluster. -/
def gangsOn (s : State) (k : Nat) : List Gang :=
  s.gangs.filter (fun g => g.cluster == k && (match g.phase with
    | .resident => !s.gangDone g
    | .preempting => true
    | .draining => true
    | .saving => true
    | .restoring => true
    | _ => false))

/-- Spare clusters in use on a die. -/
def sparesUsed (s : State) (die : Nat) : Nat := if die == 0 then s.pf.spares.1 else s.pf.spares.2

/-- A cluster is replaced: its caches and events are those of the spare; with no spare left it leaves its partition. -/
def replaceCluster (s : State) (k : Nat) : State :=
  let die := k / 24
  if s.sparesUsed die < 2 then
    let s1 := s.updCluster k (fun c => { c with present := true, sramEvents := [], grantAt := 0 })
    let s2 := s1.updPf (fun f => { f with spares := if die == 0 then (f.spares.1 + 1, f.spares.2) else (f.spares.1, f.spares.2 + 1) })
    let drop : Nat → CoreSt → CoreSt := fun c x => if c / 4 == k then { x with fetch := [] } else x
    { s2 with l1 := s2.l1.filter (fun x => x.core / 4 != k), cores := s2.cores.mapIdx drop }
  else
    (s.moveClusters (s.pf.clown.set k 0)).hvRecord 2 ((s.clusterOwner k).getD 16) k

/-- The front pre-empts a failing cluster's gangs; once they are saved, and its jobs are done, the spare takes its number. -/
def spareTakeover (s : State) (k : Nat) : Option State :=
  let gs := s.gangsOn k
  let run := gs.filter (fun g => g.phase == .resident)
  match run with
  | [] => if gs.isEmpty && !s.jobs.any (fun j => j.cluster == k) then some (s.replaceCluster k) else none
  | g :: _ =>
    let ids := run.map (·.id)
    let blocks := s.freeBlocks g.part ids.length
    if blocks.length < ids.length then none
    else
      let upd : Gang → Gang := fun x =>
        if ids.contains x.id then { x with phase := .preempting, saveBlock := some (blocks.getD (ids.idxOf x.id) 0) } else x
      some { s with gangs := s.gangs.map upd }

/-- A cluster stops responding: every context with a gang on it ends (R350). -/
def loseCluster (s : State) (k : Nat) : State :=
  let cs := ((s.gangs.filter (fun g => g.cluster == k && g.phase != .ended && g.phase != .waiting && g.phase != .saved)).map (·.ctx)).dedup
  (cs.foldl (fun s c => s.endContext c 9 k) s).updCluster k (fun c => { c with present := false })

/-! ### Bring-up (R353) -/

/-- A step fails: the sequence stops. -/
def bringUpFail (s : State) (step code : Nat) : State := s.updPf (fun f => { f with step := step, fail := true, failCode := code, ready := false })

/-- The stacks whose spare channel the self-test assigns to a channel that fails training, where it is not in use (R351, R353). -/
def trainChannels (s : State) : State :=
  (List.range 8).foldl (fun s x =>
    let r := s.pick 2
    r.2.updPf (fun f => { f with spareChannel := f.spareChannel.modify x (fun used => used || r.1 == 1) })) s

/-- Steps 2 to 5. Which spares the self-test assigns is not given: free values. DESIGN CHOICE: log entry 43. -/
def bringUp (s : State) : State :=
  let n := s.fresh
  let s1 := { s with fresh := s.fresh + 1 }
  if !Config.bringUpOk 2 n then s1.bringUpFail 2 1
  else if !Config.bringUpOk 3 n then s1.bringUpFail 3 2
  else if !Config.bringUpOk 4 n then s1.bringUpFail 4 3
  else
    let a := s1.pick 3
    let b := a.2.pick 3
    let c := b.2.trainChannels
    { c with mem := (c.mem.zeroed isDevMem).filled isDevMem, badSectors := [] }.updPf (fun f => { f with
      step := 5, ready := true, spares := (a.1, b.1)
      measures := (List.range 4).map (fun i => Config.sha384 (Config.firmware (i + 1))) })

/-! ### What the health block shows (R354, R355) -/

/-- MSTAT: the module's status, read from what the machine holds (R355). -/
def mstat (s : State) : DWord :=
  let bit : Bool → Nat := fun b => b.toNat
  let cap := s.clusters.any (fun c => decide (c.mhz < 1700))
  BitVec.ofNat 64 (s.pf.failCode % 256 * 2 ^ 24 + s.pf.spares.2 % 4 * 2 ^ 22 + s.pf.spares.1 % 4 * 2 ^ 20 +
    bit s.pf.therm * 2 ^ 7 + bit cap * 2 ^ 6 + bit s.pf.fail * 2 ^ 5 + s.pf.step % 16 * 2 + bit s.pf.ready)

/-- Byte x of SPAREROW: the spare rows left in the worst channel of stack x (R354). -/
def spareRow (s : State) (x : Nat) : Byte :=
  BitVec.ofNat 8 (Config.spareRows - ((s.pf.rowsUsed.drop (32 * x)).take 32).foldl max 0)

/-- The register at an offset of the health block (R354). -/
def healthReg (s : State) (off : Nat) : Option DWord :=
  match off with
  | 0x000 => some s.mstat
  | 0x008 => some (BitVec.ofNat 64 s.pf.mplim)
  | 0x010 => some (BitVec.ofNat 64 s.pf.mpwr)
  | 0x018 => some (BitVec.ofNat 64 s.pf.eccHbm)
  | 0x020 => some (BitVec.ofNat 64 s.pf.eccSram)
  | 0x028 => some (BitVec.ofNat 64 s.pf.eccLost)
  | 0x030 => some (BitVec.ofNat 64 (natOfBytes ((List.range 8).map s.spareRow)))
  | _ => if decide (0x100 ≤ off) && decide (off < 0x180) && off % 8 == 0 then some (BitVec.ofNat 64 (s.part ((off - 0x100) / 8)).mshare) else none

/-! ### Clocks (R356) -/

/-- The clock of a partition's clusters: throttled, and 0.4 GHz during a thermal trip. -/
def setClocks (s : State) : State :=
  let hot := s.pf.tripAt.isSome
  let mhz : Nat → Nat := fun k => if hot then 400 else match s.clusterOwner k with
    | some p => (s.part p).clockMhz
    | none => 1700
  { s with clusters := s.clusters.mapIdx (fun k c => { c with mhz := mhz k }) }

/-- The module's own state is lost; the bytes of host memory, which is not part of the module, stay. DEDUCED: log entry 44. -/
def lostAll (s : State) : State :=
  let own : Nat → Bool := fun a => !isHostMem a
  { State.reset with
    nextId := s.nextId, fresh := s.fresh, inputs := s.inputs, poison := s.poison, mem := (s.mem.zeroed own).filled own }

/-- The module is off: nothing runs. -/
def shutDown (s : State) : State :=
  { s.lostAll with
    time := s.time
    pf := { Pf.initial with step := s.pf.step, fail := true, failCode := 4, therm := true, powered := false
                            eccHbm := s.pf.eccHbm, eccSram := s.pf.eccSram, eccLost := s.pf.eccLost } }

/-! ### Attestation (R361) -/

/-- The content of index 5: partition ownership, slot maps, link ownership. DESIGN CHOICE: log entry 49. -/
def tables (s : State) : List Byte := s.pf.clown ++ s.pf.sgown ++ s.pf.netLive ++ s.pf.bridgeLive ++ s.pf.linkown

end State

/-- READ_SECTOR (R342): the base die reads one sector for a slice. -/
def execReadSector (ch tag : Nat) (s : State) : Host.Outcome State Fault Refusal :=
  ev "READ_SECTOR" (s.perform ch tag .readSector)
/-- READ_LINE (R342): the base die reads the two sectors of a line. -/
def execReadLine (ch tag : Nat) (s : State) : Host.Outcome State Fault Refusal :=
  ev "READ_LINE" (s.perform ch tag .readLine)
/-- WRITE_SECTOR (R344): one whole sector is stored. -/
def execWriteSector (ch tag : Nat) (s : State) : Host.Outcome State Fault Refusal :=
  ev "WRITE_SECTOR" (s.perform ch tag .writeSector)
/-- WRITE_LINE (R344): a whole line is stored. -/
def execWriteLine (ch tag : Nat) (s : State) : Host.Outcome State Fault Refusal :=
  ev "WRITE_LINE" (s.perform ch tag .writeLine)
/-- PARTIAL_WRITE (R344): a read-modify-write of a sector; an uncorrectable one performs nothing. -/
def execPartialWrite (ch tag : Nat) (s : State) : Host.Outcome State Fault Refusal :=
  ev "PARTIAL_WRITE" (s.perform ch tag .partialWrite)
/-- SCRUB_READ (R349): a scrub read, sent with a tag of the port (R342), corrects its sector, or retires its frame. -/
def execScrubRead (ch sector : Nat) (s : State) : Host.Outcome State Fault Refusal :=
  evPort "SCRUB_READ" (if ch < 256 ∧ sector < 50331648 then s.scrubRead ch sector else none)
/-- PORT_RESERVED_KIND (R342): the request is dropped and a port error raised. -/
def execPortReservedKind (ch : Nat) (hdr : DWord) (s : State) : Host.Outcome State Fault Refusal :=
  ev "PORT_RESERVED_KIND" (
    let k := (hdr.extractLsb' 60 4).toNat
    if ch < 256 ∧ (k = 6 ∨ k = 7 ∨ 10 ≤ k) then some (s.updPf (fun f => { f with portErrors := f.portErrors + 1 })) else none)
/-- READ_DATA (R342): the read reply reaches the slice. -/
def execReadData (ch tag : Nat) (s : State) : Host.Outcome State Fault Refusal :=
  evPort "READ_DATA" (s.readReply ch tag)
/-- WRITE_DONE (R344): the write reply reaches the slice. -/
def execWriteDone (ch tag : Nat) (s : State) : Host.Outcome State Fault Refusal :=
  ev "WRITE_DONE" (s.writeReply ch tag)

/-- SPARE_ROW_COPY (R351): a row that needed 16 corrections in one pass is copied to a spare row. -/
def execSpareRowCopy (ch row : Nat) (s : State) : Host.Outcome State Fault Refusal :=
  ev "SPARE_ROW_COPY" (
    if ch < 256 ∧ 16 ≤ (s.rowFixes.lookup (ch * 2 ^ 32 + row)).getD 0 ∧ s.pf.rowsUsed.getD ch 0 < Config.spareRows then
      some (s.copyRow ch row) else none)

/-- SPARE_CHANNEL_TAKEOVER (R351): the stack's spare channel takes over a channel whose spare rows are spent, copied, or lost where it
cannot be read; one that fails training is replaced at bring-up (R353). -/
def execSpareChannelTakeover (ch : Nat) (readable : Bool) (s : State) : Host.Outcome State Fault Refusal :=
  ev "SPARE_CHANNEL_TAKEOVER" (if ch ≥ 256 ∨ s.pf.spareChannel.getD (ch / 32) true = true ∨ s.pf.rowsUsed.getD ch 0 < Config.spareRows then none
    else
      let s1 := s.updPf (fun f => { f with spareChannel := f.spareChannel.set (ch / 32) true })
      let lost := (List.range 50331648).map (fun i => (sectorAddr ch i / 32, 2))
      some (if readable then s1
        else { s1 with badSectors := s1.badSectors.filter (fun b => channelOf (32 * b.1) != ch) ++ lost }))

/-- CLUSTER_SPARE_TAKEOVER (R350): a spare takes a failing cluster's number after the pre-emption of its gangs. -/
def execClusterSpareTakeover (k : Nat) (s : State) : Host.Outcome State Fault Refusal :=
  ev "CLUSTER_SPARE_TAKEOVER" (if k < Config.clusters then s.spareTakeover k else none)

/-- CLUSTER_LOST (R350): the cluster stops responding. -/
def execClusterLost (k : Nat) (s : State) : Host.Outcome State Fault Refusal :=
  ev "CLUSTER_LOST" (if k < Config.clusters then some (s.loseCluster k) else none)

/-- POWER_GOOD (R353): power is applied, device time starts at 0, and bring-up runs. -/
def execPowerGood (s : State) : Host.Outcome State Fault Refusal :=
  ev "POWER_GOOD" (some (State.bringUp s.lostAll))

/-- POWER_THROTTLE (R356): a partition's power over the last 1 ms is held against its share. DESIGN CHOICE: log entry 46. -/
def execPowerThrottle (part watts : Nat) (s : State) : Host.Outcome State Fault Refusal :=
  ev "POWER_THROTTLE" (if part ≥ Config.partitions then none
    else
      let share := (s.part part).mshare
      let down : Part → Part := fun p => { p with clockMhz := max 400 (p.clockMhz - 100) }
      let up : Part → Part := fun p => { p with clockMhz := min 1700 (p.clockMhz + 100) }
      let s1 := if share < watts then s.updPart part down else if 100 * watts < 95 * share then s.updPart part up else s
      -- the module's own measurement is not given
      let r := s1.pick (2 ^ 64)
      some (r.2.updPf (fun f => { f with mpwr := r.1 })).setClocks)

/-- THERMAL_TRIP (R356): every cluster runs at 0.4 GHz and THERM is set. -/
def execThermalTrip (s : State) : Host.Outcome State Fault Refusal :=
  ev "THERMAL_TRIP" (some (s.updPf (fun f => { f with therm := true, tripAt := some (f.tripAt.getD s.time) })).setClocks)

/-- THERMAL_SHUTDOWN (R356): a trip not cleared within 1 s shuts the module down with fail code 4. -/
def execThermalShutdown (s : State) : Host.Outcome State Fault Refusal :=
  ev "THERMAL_SHUTDOWN" (match s.pf.tripAt with
    | some t => if t + 1000000000 ≤ s.time then some s.shutDown else none
    | none => none)

/-- TEMPERATURE_FALL (R356): the temperature falls within 1 s of the trip. -/
def execTemperatureFall (s : State) : Host.Outcome State Fault Refusal :=
  ev "TEMPERATURE_FALL" (match s.pf.tripAt with
    | some t => if s.time < t + 1000000000 then some (s.updPf (fun f => { f with tripAt := none })).setClocks else none
    | none => none)

/-- VF_RESET (R358): a function-level reset of a virtual function resets its partition alone. -/
def execVfReset (part : Nat) (s : State) : Host.Outcome State Fault Refusal :=
  ev "VF_RESET" (if part ≥ Config.partitions then none
    else
      let cs := (s.contexts.filter (fun c => c.part == part && c.live)).map (·.id)
      let s1 := cs.foldl (fun s c => s.endContext c 11 0) s
      let xs := ((s1.part part).sessions.filter (·.isOpen)).map (·.n)
      let s2 := xs.foldl (fun s n => s.loseSession part n) s1
      some (s2.updPart part (fun p => { p with queues := List.replicate 8 .zero })))

/-- PF_RESET (R358): the whole module is reset and runs bring-up again; what is kept since power-good stays. -/
def execPfReset (s : State) : Host.Outcome State Fault Refusal :=
  ev "PF_RESET" (if !s.pf.powered then none
    else
      let f := s.pf
      some (State.bringUp { s.lostAll with
        time := s.time
        pf := { Pf.initial with therm := f.therm, tripAt := f.tripAt, eccHbm := f.eccHbm, eccSram := f.eccSram, eccLost := f.eccLost
                                rowsUsed := f.rowsUsed, spareChannel := f.spareChannel } }).setClocks)

/-- GET_MEASUREMENTS (R361): the digest of one block, and its signature. DESIGN CHOICE: log entry 49. -/
def execGetMeasurements (k : Nat) (s : State) : Host.Outcome State Fault Refusal :=
  ev "GET_MEASUREMENTS" (if k < 1 ∨ 5 < k then none
    else
      let d := if k == 5 then Config.sha384 s.tables else s.pf.measures.getD (k - 1) []
      some (s.updPf (fun f => { f with reply := d, signature := Config.sign d })))

/-- HOST_LINK_LOSS (R11): the host link is lost, for the module as a whole. -/
def execHostLinkLoss (s : State) : Host.Outcome State Fault Refusal :=
  ev "HOST_LINK_LOSS" (some (s.updPf (fun f => { f with hostLink := false })))

/-- The host as a user of the homes of a device address. -/
def State.hostUse (s : State) (a : Nat) : HomeUse := { part := (s.sliceOwner (sliceGroup a)).getD 0 }

/-- HOST_CXL_READ (R293): a host read of device memory is performed at the home, which answers with the bytes there; lost data give
no bytes. DESIGN CHOICE: log entry 48. -/
def execHostCxlRead (addr size : Nat) (s : State) : Host.Outcome State Fault Refusal :=
  evPort "HOST_CXL_READ" (if s.pf.ready && s.pf.hostLink && isDevMem addr && decide (0 < size) && decide (addr % 64 + size ≤ 64) then
      let a := s.forward addr
      let keys := (List.range size).map (a + ·)
      let lost := keys.any s.lostKey
      some { (if lost then s.countLost else s).frontReads (s.hostUse a) keys with hostReply := if lost then [] else keys.map s.mem.byte }
    else none)

/-- HOST_CXL_WRITE (R293): a host write of device memory takes its place at the home, and is acknowledged once the leases on
the line have passed. DESIGN CHOICE: log entry 48. -/
def execHostCxlWrite (addr : Nat) (data : List Byte) (s : State) : Host.Outcome State Fault Refusal :=
  evPort "HOST_CXL_WRITE" (if !(s.pf.ready && s.pf.hostLink && isDevMem addr && !data.isEmpty && decide (addr % 64 + data.length ≤ 64)) then none
    else
      let a := s.forward addr
      let s1 := s.putBytes (s.hostUse a) ((List.range data.length).map (fun i => a + i)) data
      some { s1 with hostAcks := s1.hostAcks ++ [max s.time (s.leaseOf a)] })

/-- CXL_CACHE_SNOOP (R293): the host's write of a host-memory line reaches the owning slice, which gives its copy up and scans
the waiters of the line; with no data the copy is only given up. -/
def execCxlCacheSnoop (addr : Nat) (data : List Byte) (s : State) : Host.Outcome State Fault Refusal :=
  ev "CXL_CACHE_SNOOP" (if !(s.pf.hostLink && isHostMem addr && decide (addr % 64 + data.length ≤ 64)) then none
    else some (State.scanKeys { s with
      mem := s.mem.writeBytes addr data, poison := s.poison.filter (fun l => l != addr / 64 || data.length != 64)
      l2 := s.l2.filter (fun x => x.line != addr / 64) } ((List.range data.length).map (fun i => addr + i))))

end Sys2Proof.Machine
end

