-- ==== Sys2Proof/Machine/Load.lean ====
section
/-! DEFINITION. Sys2Proof/Machine/Load.lean: the M-format words (R141 to R158). Each posts one access per fibre; the bank or
the home performs it (BANK_ACCESS, HOME_REQUEST). -/

namespace Sys2Proof.Machine

/-- The full/empty form of a Q field (R141). -/
def formOf (q : BitVec 3) : Form :=
  match q.toNat with
  | 1 => .waiting
  | 2 => .consuming
  | 3 => .filling
  | 4 => .forceFill
  | 5 => .forceEmpty
  | _ => .plain

/-- The integer operation of a Q field (R30). -/
def intRmw (q : BitVec 3) : Rmw :=
  match q.toNat with
  | 0 => .add
  | 1 => .minS
  | 2 => .minN
  | 3 => .maxS
  | 4 => .maxN
  | 5 => .and
  | 6 => .or
  | _ => .xor

/-- The floating-point operation of a Q field (R30). -/
def fpRmw (q : BitVec 3) : Rmw :=
  match q.toNat with
  | 0 => .fadd
  | 1 => .fmin
  | _ => .fmax

/-- The registers from the first coordinate register on (R152); a region has at most 5 dimensions. -/
def coordsOf (r : Fibre) (lit : Word) : List Word := (r.regs.drop lit.toNat).take 5

/-- LDB (R147): Loads one byte zero-extended, in the F/E form that Q selects. -/
def execLdb (h : Head) (q : BitVec 3) (d : BitVec 6) (a : BitVec 5) (p : BitVec 2) (off : Option Word) (s : State) :
    Host.Outcome State Fault Refusal :=
  posts (.ldb h q d a p off) h s (fun r => ⟨d.toNat, memAddr r a off, .load 1 false (formOf q), p.toNat⟩)

/-- LDBS (R147): Loads one byte sign-extended, in the F/E form that Q selects. -/
def execLdbs (h : Head) (q : BitVec 3) (d : BitVec 6) (a : BitVec 5) (p : BitVec 2) (off : Option Word) (s : State) :
    Host.Outcome State Fault Refusal :=
  posts (.ldbs h q d a p off) h s (fun r => ⟨d.toNat, memAddr r a off, .load 1 true (formOf q), p.toNat⟩)

/-- LDH (R147): Loads two bytes zero-extended. -/
def execLdh (h : Head) (q : BitVec 3) (d : BitVec 6) (a : BitVec 5) (p : BitVec 2) (off : Option Word) (s : State) :
    Host.Outcome State Fault Refusal :=
  posts (.ldh h q d a p off) h s (fun r => ⟨d.toNat, memAddr r a off, .load 2 false (formOf q), p.toNat⟩)

/-- LDHS (R147): Loads two bytes sign-extended. -/
def execLdhs (h : Head) (q : BitVec 3) (d : BitVec 6) (a : BitVec 5) (p : BitVec 2) (off : Option Word) (s : State) :
    Host.Outcome State Fault Refusal :=
  posts (.ldhs h q d a p off) h s (fun r => ⟨d.toNat, memAddr r a off, .load 2 true (formOf q), p.toNat⟩)

/-- LDW (R147): Loads four bytes into a register. -/
def execLdw (h : Head) (q : BitVec 3) (d : BitVec 6) (a : BitVec 5) (p : BitVec 2) (off : Option Word) (s : State) :
    Host.Outcome State Fault Refusal :=
  posts (.ldw h q d a p off) h s (fun r => ⟨d.toNat, memAddr r a off, .load 4 false (formOf q), p.toNat⟩)

/-- LDD (R147): Loads eight bytes into a pair. -/
def execLdd (h : Head) (q : BitVec 3) (d : BitVec 6) (a : BitVec 5) (p : BitVec 2) (off : Option Word) (s : State) :
    Host.Outcome State Fault Refusal :=
  posts (.ldd h q d a p off) h s (fun r => ⟨2 * d.toNat, memAddr r a off, .load 8 false (formOf q), p.toNat⟩)

/-- LDQ (R147): Loads sixteen bytes into two pairs. -/
def execLdq (h : Head) (q : BitVec 3) (d : BitVec 6) (a : BitVec 5) (p : BitVec 2) (off : Option Word) (s : State) :
    Host.Outcome State Fault Refusal :=
  posts (.ldq h q d a p off) h s (fun r => ⟨2 * d.toNat, memAddr r a off, .load 16 false (formOf q), p.toNat⟩)

/-- STB (R147): Stores one byte, in the F/E form that Q selects. -/
def execStb (h : Head) (q : BitVec 3) (d : BitVec 6) (a : BitVec 5) (p : BitVec 2) (off : Option Word) (s : State) :
    Host.Outcome State Fault Refusal :=
  posts (.stb h q d a p off) h s (fun r => ⟨0, memAddr r a off, .store 1 (formOf q) (r.reg d).toNat, p.toNat⟩)

/-- STH (R147): Stores two bytes. -/
def execSth (h : Head) (q : BitVec 3) (d : BitVec 6) (a : BitVec 5) (p : BitVec 2) (off : Option Word) (s : State) :
    Host.Outcome State Fault Refusal :=
  posts (.sth h q d a p off) h s (fun r => ⟨0, memAddr r a off, .store 2 (formOf q) (r.reg d).toNat, p.toNat⟩)

/-- STW (R147): Stores four bytes. -/
def execStw (h : Head) (q : BitVec 3) (d : BitVec 6) (a : BitVec 5) (p : BitVec 2) (off : Option Word) (s : State) :
    Host.Outcome State Fault Refusal :=
  posts (.stw h q d a p off) h s (fun r => ⟨0, memAddr r a off, .store 4 (formOf q) (r.reg d).toNat, p.toNat⟩)

/-- STD (R147): Stores eight bytes from a pair. -/
def execStd (h : Head) (q : BitVec 3) (d : BitVec 6) (a : BitVec 5) (p : BitVec 2) (off : Option Word) (s : State) :
    Host.Outcome State Fault Refusal :=
  posts (.std h q d a p off) h s (fun r => ⟨0, memAddr r a off, .store 8 (formOf q) (r.pair d).toNat, p.toNat⟩)

/-- STQ (R147): Stores sixteen bytes from two pairs. -/
def execStq (h : Head) (q : BitVec 3) (d : BitVec 6) (a : BitVec 5) (p : BitVec 2) (off : Option Word) (s : State) :
    Host.Outcome State Fault Refusal :=
  posts (.stq h q d a p off) h s (fun r => ⟨0, memAddr r a off, .store 16 (formOf q) ((r.pair d).toNat + 2 ^ 64 * (r.pairN (d.toNat + 1)).toNat), p.toNat⟩)

/-- LDT (R152): Loads one tensor element by handle and coordinates. -/
def execLdt (h : Head) (q : BitVec 3) (d : BitVec 6) (a : BitVec 5) (p : BitVec 2) (lit : Word) (s : State) :
    Host.Outcome State Fault Refusal :=
  posts (.ldt h q d a p lit) h s (fun r => ⟨d.toNat, r.pairN a.toNat, .ldt (formOf q) (coordsOf r lit) (r.regs.length - lit.toNat) (d.getLsbD 0), p.toNat⟩)

/-- STT (R152): Stores one tensor element by handle and coordinates. -/
def execStt (h : Head) (q : BitVec 3) (d : BitVec 6) (a : BitVec 5) (p : BitVec 2) (lit : Word) (s : State) :
    Host.Outcome State Fault Refusal :=
  posts (.stt h q d a p lit) h s (fun r => ⟨d.toNat, r.pairN a.toNat, .stt (formOf q) (coordsOf r lit) (r.regs.length - lit.toNat) (d.getLsbD 0)
    ((r.reg d).toNat + 2 ^ 32 * (r.regN (d.toNat + 1)).toNat), p.toNat⟩)

/-- ATOM (R154): Performs a 4-byte integer atomic at the word's home and returns the old value. -/
def execAtom (h : Head) (q : BitVec 3) (d : BitVec 6) (a : BitVec 5) (p : BitVec 2) (off : Option Word) (s : State) :
    Host.Outcome State Fault Refusal :=
  posts (.atom h q d a p off) h s (fun r => ⟨d.toNat, memAddr r a off, .rmw 4 (intRmw q) (r.reg d).toNat true, p.toNat⟩)

/-- ATOMN (R154): Performs a 4-byte integer atomic at the home with no returned value. -/
def execAtomn (h : Head) (q : BitVec 3) (d : BitVec 6) (a : BitVec 5) (p : BitVec 2) (off : Option Word) (s : State) :
    Host.Outcome State Fault Refusal :=
  posts (.atomn h q d a p off) h s (fun r => ⟨d.toNat, memAddr r a off, .rmw 4 (intRmw q) (r.reg d).toNat false, p.toNat⟩)

/-- ATOMD (R154): Performs an 8-byte integer atomic and returns the old value. -/
def execAtomd (h : Head) (q : BitVec 3) (d : BitVec 6) (a : BitVec 5) (p : BitVec 2) (off : Option Word) (s : State) :
    Host.Outcome State Fault Refusal :=
  posts (.atomd h q d a p off) h s (fun r => ⟨2 * d.toNat, memAddr r a off, .rmw 8 (intRmw q) (r.pair d).toNat true, p.toNat⟩)

/-- ATOMDN (R154): Performs an 8-byte integer atomic with no returned value. -/
def execAtomdn (h : Head) (q : BitVec 3) (d : BitVec 6) (a : BitVec 5) (p : BitVec 2) (off : Option Word) (s : State) :
    Host.Outcome State Fault Refusal :=
  posts (.atomdn h q d a p off) h s (fun r => ⟨2 * d.toNat, memAddr r a off, .rmw 8 (intRmw q) (r.pair d).toNat false, p.toNat⟩)

/-- ATOMF (R154): Performs a binary32 atomic and returns the old value. -/
def execAtomf (h : Head) (q : BitVec 3) (d : BitVec 6) (a : BitVec 5) (p : BitVec 2) (off : Option Word) (s : State) :
    Host.Outcome State Fault Refusal :=
  posts (.atomf h q d a p off) h s (fun r => ⟨d.toNat, memAddr r a off, .rmw 4 (fpRmw q) (r.reg d).toNat true, p.toNat⟩)

/-- ATOMFN (R154): Performs a binary32 atomic with no returned value. -/
def execAtomfn (h : Head) (q : BitVec 3) (d : BitVec 6) (a : BitVec 5) (p : BitVec 2) (off : Option Word) (s : State) :
    Host.Outcome State Fault Refusal :=
  posts (.atomfn h q d a p off) h s (fun r => ⟨d.toNat, memAddr r a off, .rmw 4 (fpRmw q) (r.reg d).toNat false, p.toNat⟩)

/-- XCHG (R156): Swaps a register with a memory word at its home. -/
def execXchg (h : Head) (d : BitVec 6) (a : BitVec 5) (p : BitVec 2) (off : Option Word) (s : State) :
    Host.Outcome State Fault Refusal :=
  posts (.xchg h d a p off) h s (fun r => ⟨d.toNat, memAddr r a off, .rmw 4 .swap (r.reg d).toNat true, p.toNat⟩)

/-- CAS (R156): Compares a 4-byte word with an expected value and swaps in a new one if equal. -/
def execCas (h : Head) (d : BitVec 6) (a : BitVec 5) (p : BitVec 2) (off : Option Word) (s : State) :
    Host.Outcome State Fault Refusal :=
  posts (.cas h d a p off) h s (fun r => ⟨2 * d.toNat, memAddr r a off,
    .rmw 4 (.cas (r.regN (2 * d.toNat)).toNat) (r.regN (2 * d.toNat + 1)).toNat true, p.toNat⟩)

/-- CASD (R156): Compares an 8-byte word with an expected value and swaps in a new one if equal. -/
def execCasd (h : Head) (d : BitVec 6) (a : BitVec 5) (p : BitVec 2) (off : Option Word) (s : State) :
    Host.Outcome State Fault Refusal :=
  posts (.casd h d a p off) h s (fun r => ⟨2 * d.toNat, memAddr r a off, .rmw 8 (.cas (r.pair d).toNat) (r.pairN (d.toNat + 1)).toNat true, p.toNat⟩)

/-- TAGR (R157): Reads a word's F/E bit into a register. -/
def execTagr (h : Head) (d : BitVec 6) (a : BitVec 5) (p : BitVec 2) (off : Option Word) (s : State) :
    Host.Outcome State Fault Refusal :=
  posts (.tagr h d a p off) h s (fun r => ⟨d.toNat, memAddr r a off, .tagr, p.toNat⟩)

/-- TAGS (R157): Sets a word's F/E bit from a register and starts a scan. -/
def execTags (h : Head) (d : BitVec 6) (a : BitVec 5) (p : BitVec 2) (off : Option Word) (s : State) :
    Host.Outcome State Fault Refusal :=
  posts (.tags h d a p off) h s (fun r => ⟨0, memAddr r a off, .tags ((r.reg d).getLsbD 0), p.toNat⟩)

/-- PREF (R158): Hints that a line be brought into L1 or L2, with no visible effect. -/
def execPref (h : Head) (a : BitVec 5) (p : BitVec 2) (off : Option Word) (s : State) :
    Host.Outcome State Fault Refusal :=
  posts (.pref h a p off) h s (fun r => ⟨0, memAddr r a off, .pref, p.toNat⟩)

end Sys2Proof.Machine
end

