-- ==== Sys2Proof/Machine/Meeting.lean ====
section
/-! DEFINITION. Sys2Proof/Machine/Meeting.lean: the meeting instructions (R85 to R93, R60). When one executes, the lanes
of its group are the live fibres of the crew. -/

namespace Sys2Proof.Machine

namespace State
/-- The arrived fibre in a lane. -/
def atLane (s : State) (i : Nat) : Option Nat := s.issue.lanes.find? (fun k => (s.srcOf k).lane == i)
/-- x[i]: the value of register r in lane i. -/
def laneValue (s : State) (r : BitVec 6) (i : Nat) : Word :=
  match s.atLane i with
  | some k => (s.srcOf k).reg r
  | none => 0
/-- c[i]: lane i contributes (R86). -/
def contributes (s : State) (h : Head) (i : Nat) : Bool :=
  match s.atLane i with
  | some k => (s.srcOf k).guard h.g
  | none => false
/-- Whether some fibre contributes. -/
def anyOn (s : State) (h : Head) : Bool := s.issue.lanes.any (fun k => (s.srcOf k).guard h.g)
/-- The results of a meeting: every arrived fibre receives the writes of its lane, p10:p11 and the flags (R86, R93). -/
def sendMeetingOn (s : State) (any : Bool) (g : Nat → List (Nat × Word)) (fl : Flags) : State :=
  s.sendResults false s.issue.lanes (fun k => (g (s.srcOf k).lane, [(5, any, !any)], fl))
end State

/-- The source lane of SHFL (R89): mode 0 up, 1 down, 2 xor, 3 wxor. -/
def shflSource (m k i : Nat) : Option Nat :=
  match m with
  | 0 => if k ≤ i then some (i - k) else none
  | 1 => some (i + k)
  | 2 => some (i ^^^ k)
  | _ => some (i ^^^ (Config.width >>> k))

/-- One step of RED or SCAN (R92): rounding to nearest even, lower lane first. -/
def redOp (o : Nat) (x y : Word) : Word × Flags :=
  match o with
  | 0 => (x + y, 0)
  | 1 => (x &&& y, 0)
  | 2 => (x ||| y, 0)
  | 3 => (x ^^^ y, 0)
  | 4 => (if x.sle y then x else y, 0)
  | 5 => (if x.ule y then x else y, 0)
  | 6 => (if y.sle x then x else y, 0)
  | 7 => (if y.ule x then x else y, 0)
  | 8 => let r := fAdd .f32 .rne x.toNat y.toNat; (BitVec.ofNat 32 r.1, r.2)
  | 9 => let r := fMinMax .f32 false x.toNat y.toNat; (BitVec.ofNat 32 r.1, r.2)
  | _ => let r := fMinMax .f32 true x.toNat y.toNat; (BitVec.ofNat 32 r.1, r.2)

/-- The identity of an operation (R92). -/
def redIdentity (o : Nat) : Word :=
  match o with
  | 1 => 0xFFFFFFFF
  | 4 => 0x7FFFFFFF
  | 5 => 0xFFFFFFFF
  | 6 => 0x80000000
  | 8 => 0x80000000
  | 9 => 0x7F800000
  | 10 => 0xFF800000
  | _ => 0

/-- One level of the tree: neighbours combined (R60). -/
def redLevel (o : Nat) : List Word → List Word × Flags
  | x :: y :: t =>
    let r := redOp o x y
    let q := redLevel o t
    (r.1 :: q.1, r.2 ||| q.2)
  | l => (l, 0)

/-- n levels of the tree: the value of lane 0 and every flag raised. -/
def redTree (o : Nat) : Nat → List Word → Word × Flags
  | 0, l => (l.headD 0, 0)
  | n + 1, l =>
    let r := redLevel o l
    let q := redTree o n r.1
    (q.1, r.2 ||| q.2)

/-- SCAN (R60): per lane the accumulated value, and every flag raised. -/
def scanGo (o : Nat) (excl : Bool) (acc : Word) : List (Option Word) → List Word × Flags
  | [] => ([], 0)
  | x :: t =>
    let r := match x with
      | some v => redOp o acc v
      | none => (acc, 0)
    let q := scanGo o excl r.1 t
    ((if excl then acc else r.1) :: q.1, r.2 ||| q.2)

/-- The values of the lanes, the identity where a lane does not contribute. -/
def State.meetValues (s : State) (h : Head) (r : BitVec 6) (id : Word) : List Word :=
  (List.range Config.width).map (fun i => if s.contributes h i then s.laneValue r i else id)

/-- SHFL and BCAST (R89): the value of a source lane that contributes, else the lane's own. -/
def State.fromLane (s : State) (h : Head) (d : BitVec 6) (i : Nat) (src : Option Nat) : Word :=
  match src with
  | some j => if decide (j < Config.width) && s.contributes h j then s.laneValue d j else s.laneValue d i
  | none => s.laneValue d i

/-- SHFL (R89): Meeting instruction moving a register between lanes by the selected mode. -/
def execShfl (h : Head) (d : BitVec 6) (m : BitVec 2) (k : BitVec 7) (s : State) :
    Host.Outcome State Fault Refusal :=
  word (.shfl h d m k) h s (fun s _ => s.sendMeetingOn (s.anyOn h) (fun i =>
    [(d.toNat, s.fromLane h d i (shflSource m.toNat k.toNat i))]) 0)

/-- BCAST (R89): Meeting instruction broadcasting one lane's register to the crew. -/
def execBcast (h : Head) (d : BitVec 6) (l : BitVec 7) (s : State) :
    Host.Outcome State Fault Refusal :=
  word (.bcast h d l) h s (fun s _ => s.sendMeetingOn (s.anyOn h) (fun i => [(d.toNat, s.fromLane h d i (some l.toNat))]) 0)

/-- VOTE (R90): Meeting instruction combining per-lane truth values as any, all or ballot. -/
def execVote (h : Head) (d : BitVec 6) (a : BitVec 6) (v : BitVec 2) (s : State) :
    Host.Outcome State Fault Refusal :=
  word (.vote h d a v) h s (fun s _ =>
    let votes := (List.range Config.width).filter (fun i => s.contributes h i && s.laneValue a i != 0)
    let voters := (List.range Config.width).filter (fun i => s.contributes h i)
    s.sendMeetingOn (s.anyOn h) (fun _ =>
      if v == 2 then pairWrites d.toNat (BitVec.ofNat 64 (votes.foldl (fun n i => n + 2 ^ i) 0))
      else [(d.toNat, if v == 0 then (if votes.isEmpty then 0 else 1) else if votes == voters then 1 else 0)]) 0)

/-- MATCH (R91): Meeting instruction returning leader and count of lanes with equal values. -/
def execMatchL (h : Head) (d : BitVec 6) (a : BitVec 6) (s : State) :
    Host.Outcome State Fault Refusal :=
  word (.matchL h d a) h s (fun s _ => s.sendMeetingOn (s.anyOn h) (fun i =>
    let eq := (List.range Config.width).filter (fun j => s.contributes h j && s.laneValue a j == s.laneValue a i)
    [(2 * d.toNat, BitVec.ofNat 32 (eq.headD i)), (2 * d.toNat + 1, BitVec.ofNat 32 eq.length)]) 0)

/-- RED (R92): Meeting instruction reducing values across the crew in a fixed tree. -/
def execRed (h : Head) (d : BitVec 6) (a : BitVec 6) (o : BitVec 4) (s : State) :
    Host.Outcome State Fault Refusal :=
  word (.red h d a o) h s (fun s _ =>
    let r := redTree o.toNat 6 (s.meetValues h a (redIdentity o.toNat))
    s.sendMeetingOn (s.anyOn h) (fun _ => [(d.toNat, r.1)]) r.2)

/-- SCAN (R92): Meeting instruction computing a prefix combination in lane order. -/
def execScan (h : Head) (d : BitVec 6) (a : BitVec 6) (o : BitVec 4) (e : BitVec 1) (s : State) :
    Host.Outcome State Fault Refusal :=
  word (.scan h d a o e) h s (fun s _ =>
    let r := scanGo o.toNat (e == 1) (redIdentity o.toNat)
      ((List.range Config.width).map (fun i => if s.contributes h i then some (s.laneValue a i) else none))
    s.sendMeetingOn (s.anyOn h) (fun i => [(d.toNat, r.1.getD i 0)]) r.2)

end Sys2Proof.Machine
end

