-- ==== Sys2Proof/Machine/Migrate.lean ====
section
/-! DEFINITION. Sys2Proof/Machine/Migrate.lean: migration of a frame under running work (R246). -/

namespace Sys2Proof.Machine

/-- Copies the lines of a frame that `p` picks to another frame: bytes and full/empty bits. -/
def Memory.copyLines (m : Memory) (old new size : Nat) (p : Nat → Bool) : Memory :=
  let mine : Nat → Bool := fun a => decide (old ≤ a) && decide (a < old + size) && p ((a - old) / 64)
  let gone : Nat → Bool := fun a => decide (new ≤ a) && decide (a < new + size) && p ((a - new) / 64)
  let m1 := (m.zeroed gone).filled gone
  let m2 := (m.listed mine).foldl (fun x c => x.setByte (c.1 - old + new) c.2) m1
  (m.emptied mine).foldl (fun x w => x.setFull (w - old / 8 + new / 8) false) m2

namespace State

/-- Marked lines of a migration's bitmap. -/
def markedLines (s : State) (m : Migration) : List Nat :=
  ((s.mem.listed (fun a => decide (m.bitmap ≤ a) && decide (a < m.bitmap + m.size / 512))).map (fun c =>
    ((List.range 8).filter (fun i => c.2.getLsbD i)).map (fun i => 8 * (c.1 - m.bitmap) + i))).flatten

/-- The bits of a migration's bitmap, cleared. -/
def clearBitmap (s : State) (m : Migration) : State :=
  { s with mem := s.mem.zeroed (fun a => decide (m.bitmap ≤ a) && decide (a < m.bitmap + m.size / 512)) }

/-- The target is a frame of this module or of its host; else it names a session and an offset in its peer's window, above the 64 bits
of an address (R376). DESIGN CHOICE: log entry 51. -/
def localTarget (m : Migration) : Bool := decide (m.new < 2 ^ 64)

/-- Lines of a checkpoint to a peer leave as puts (R376). DESIGN CHOICE: log entry 51. -/
def putLines (s : State) (m : Migration) (p : Nat → Bool) : State :=
  let lines := ((List.range (m.size / 64)).filter p).map (fun i =>
    (m.new % 2 ^ 58 + 64 * i, (List.range 64).map (fun b => s.mem.byte (m.old + 64 * i + b))))
  let j : LinkJob :=
    { id := s.nextId, part := m.part, ctx := s.nextId, gang := none, fibre := none, node := none, kind := .put
      session := m.new / 2 ^ 58 % 64, card := List.replicate 24 0 ++ bytesOfNat 4 (64 * lines.length), members := [], deadline := 0
      stage := 0, arrived := [], excluded := [], error := 0, sat := 0, mask := 0, ctime := 0, checkpoint := true, lines := lines }
  if lines.isEmpty then s else { s with linkJobs := s.linkJobs ++ [j] }.bump

/-- Lines of the old frame are copied as stored, with the symbols in error of their sectors that the slice does not hold (R349). -/
def copyFrame (s : State) (m : Migration) (p : Nat → Bool) : State :=
  if !localTarget m then s.putLines m p
  else
    let hit : Nat × Nat → Bool := fun b => decide (m.old ≤ 32 * b.1) && decide (32 * b.1 < m.old + m.size) && p ((32 * b.1 - m.old) / 64)
      && !(List.range 32).all (fun i => s.l2Has (32 * b.1 + i))
    let gone : Nat × Nat → Bool := fun b => decide (m.new ≤ 32 * b.1) && decide (32 * b.1 < m.new + m.size) && p ((32 * b.1 - m.new) / 64)
    let moved := (s.badSectors.filter hit).map (fun b => ((32 * b.1 - m.old + m.new) / 32, b.2))
    let stale : L2Line → Bool := fun x => decide (m.new ≤ 64 * x.line) && decide (64 * x.line < m.new + m.size) && p (x.line - m.new / 64)
    { s with mem := s.mem.copyLines m.old m.new m.size p, l2 := s.l2.filter (fun x => !stale x), badSectors := s.badSectors.filter (fun b => !gone b) ++ moved }

def setMigration (s : State) (m : Migration) : State :=
  { s with migrations := s.migrations.map (fun x => if x.id == m.id then m else x) }
def migration (s : State) (id : Nat) : Option Migration := s.migrations.find? (fun m => m.id == id)

/-- An address of the old frame at its new home. -/
def moved (m : Migration) (a : Nat) : Nat := if m.old ≤ a ∧ a < m.old + m.size then a - m.old + m.new else a

/-- A place at its new home. -/
def movedLoc (m : Migration) (l : Loc) : Loc :=
  { l with
    keys := l.keys.map (moved m)
    words := l.words.map (fun w => moved m (8 * w) / 8)
    elem := l.elem.map (fun e => (e.1, e.2.1, e.2.2.map (fun b => (moved m b.1, b.2)))) }

/-- A staged access at its new home. -/
def movedStaged (m : Migration) (e : Staged) : Staged :=
  { e with addr := moved m e.addr, bytes := e.bytes.map (fun b => (moved m b.1, b.2)), bits := e.bits.map (fun b => (moved m (8 * b.1) / 8, b.2)) }

/-- The end of the freeze in move mode: waiters with their stamps, leases, staged accesses and the frame's use go to the new
homes, and the slices' counters pass every stamp carried. DESIGN CHOICE: log entry 50. -/
def carry (s : State) (m : Migration) : State :=
  let acc : Access → Access := fun a => { a with loc := a.loc.map (movedLoc m) }
  let lease := (s.leases.filter (fun x => decide (m.old / 64 ≤ x.1) && decide (x.1 < (m.old + m.size) / 64))).map (fun x =>
    let ln := x.1 - m.old / 64 + m.new / 64
    (ln, max x.2 ((s.leases.lookup ln).getD 0)))
  let top := s.stamps.foldl max 0
  let gang : Gang → Gang := fun g => { g with staged := g.staged.map (movedStaged m) }
  let launch : Launch → Launch := fun l =>
    { l with track := l.track.map (fun t => (moved m (64 * t.1) / 64, t.2)), atoms := l.atoms.map (fun t => (moved m (4 * t.1) / 4, t.2)) }
  { s with
    accesses := s.accesses.map acc
    leases := lease ++ s.leases.filter (fun x => !lease.any (fun y => y.1 == x.1))
    stamps := s.stamps.map (fun _ => top)
    l2 := s.l2.filter (fun x => !(decide (m.old / 64 ≤ x.line) && decide (x.line < (m.old + m.size) / 64)))
    gangs := s.gangs.map gang
    launches := s.launches.map launch
    frameCtx := s.frameCtx.map (fun x => (moved m (65536 * x.1) / 65536, x.2)) }

end State

/-- MIGRATION_START (R246): round 0 clears the bitmap and copies every line of the old frame with its bits. With frames not aligned to
the size, an old frame that a running migration overlaps, or a bitmap outside the partition's slice groups it does not take place.
DESIGN CHOICE: log entry 50. -/
def execMigrationStart (part old new size bitmap : Nat) (checkpoint : Bool) (s : State) : Host.Outcome State Fault Refusal :=
  ev "MIGRATION_START" (
    let pages := [0x10000, 0x200000, 0x4000000, 0x80000000]
    let m : Migration := { id := s.nextId, part := part, old := old, new := new, size := size, bitmap := bitmap, checkpoint := checkpoint, phase := .round 0 }
    let busy := s.migrations.any (fun x => decide (old < x.old + x.size) && decide (x.old < old + size))
    -- a checkpoint may go to a range of host memory, or to a session and an offset (R376)
    let target := if State.localTarget m then
        new % size == 0 && (s.inPartition part new size || (checkpoint && (isDevMem new || isHostMem new)))
      else checkpoint && (match s.session part (new / 2 ^ 58 % 64) with
        | some x => decide (new % 2 ^ 58 + size ≤ x.peerLen)
        | none => false)
    if !s.serving part || !pages.contains size || old % size != 0 || busy || !s.inPartition part old size
        || !s.inGroups part bitmap (size / 512) || !target then none
    else
      let s1 := State.bump { s with migrations := s.migrations ++ [m] }
      some ((s1.clearBitmap m).copyFrame m (fun _ => true)))

/-- The test after a round (R246): few enough marked lines, or 64 rounds, lead to the freeze. -/
def State.freezeDue (s : State) (m : Migration) (k : Nat) : Bool :=
  decide ((s.markedLines m).length ≤ Config.migrateLines) || decide (64 ≤ k + 1)

/-- MIGRATION_ROUND (R246): the next round copies the marked lines, their bits cleared first. -/
def execMigrationRound (m : Nat) (s : State) : Host.Outcome State Fault Refusal :=
  ev "MIGRATION_ROUND" (match s.migration m with
    | none => none
    | some x => match x.phase with
      | .round k =>
        let lines := s.markedLines x
        if s.freezeDue x k then none
        else some (((s.clearBitmap x).copyFrame x (fun i => lines.contains i)).setMigration { x with phase := .round (k + 1) })
      | .forwarding => none)

/-- MIGRATION_FREEZE (R246): the old homes copy the lines still marked; in move mode they hand over waiters and leases and
pass requests on, in checkpoint mode they go on serving the frame. The requests the freeze holds are presented after it.
DESIGN CHOICE: log entry 50. -/
def execMigrationFreeze (m : Nat) (s : State) : Host.Outcome State Fault Refusal :=
  ev "MIGRATION_FREEZE" (match s.migration m with
    | none => none
    | some x => match x.phase with
      | .round k =>
        if !s.freezeDue x k then none
        else
          let lines := s.markedLines x
          let s1 := (s.clearBitmap x).copyFrame x (fun i => lines.contains i)
          some (if x.checkpoint then { s1 with migrations := s1.migrations.filter (fun y => y.id != m) }
            else (s1.carry x).setMigration { x with phase := .forwarding })
      | .forwarding => none)

/-- MIGRATION_END_FORWARDING (R246): system software, its mapping updated, ends the forwarding. -/
def execMigrationEndForwarding (m : Nat) (s : State) : Host.Outcome State Fault Refusal :=
  ev "MIGRATION_END_FORWARDING" (match s.migration m with
    | none => none
    | some x => if x.phase == .forwarding then some { s with migrations := s.migrations.filter (fun y => y.id != m) } else none)

end Sys2Proof.Machine
end

