-- ==== Sys2Proof/Machine/Models.lean ====
section
/-! DEFINITION. Sys2Proof/Machine/Models.lean: model records and layer tables (R325 to R329), swap-ins, evictions and swap
failures (R333 to R336), and the completion of a node (R303). -/

namespace Sys2Proof.Machine

/-! ### Layer entries (R326, R327) -/

/-- A layer entry as read from the layer table. -/
structure LayerEntry where
  regionList : Nat
  count : Nat
  kind : Nat
  source : Nat
  digest : Nat
  key : Nat
  mbz : Nat
  deriving DecidableEq, Repr

def layerEntry (b : List Byte) : LayerEntry :=
  { regionList := cardN b 16 8, count := cardN b 24 2, kind := cardN b 26 1, source := cardN b 32 8, digest := cardN b 40 8
    key := cardN b 48 4, mbz := cardN b 12 4 + cardN b 27 5 + cardN b 52 12 }

/-- A region-list entry. -/
structure RegionEntry where
  handle : DWord
  offset : Nat
  format : Word
  scales : Nat
  order : BitVec 15
  advise : Bool
  mbz : Nat
  deriving DecidableEq, Repr

def regionEntry (b : List Byte) : RegionEntry :=
  let o := cardN b 24 4
  { handle := BitVec.ofNat 64 (cardN b 0 8), offset := cardN b 8 8, format := BitVec.ofNat 32 (cardN b 16 4), scales := cardN b 20 4
    order := BitVec.ofNat 15 o, advise := o / 2 ^ 15 % 2 == 1, mbz := o / 2 ^ 16 + cardN b 28 4 }

/-- A source format: a format word of kinds 0 to 4. -/
def sourceFmtOk (w : Word) : Bool := fmtOk w && decide (fmtKind w ≤ 4)

namespace State

def setModel (s : State) (p m : Nat) (f : ModelRec → ModelRec) : State := s.updPart p (fun x => { x with models := x.models.modify m f })
def layerSt (s : State) (p m l : Nat) : Option LayerSt := (s.part p).layers.find? (fun y => y.model == m && y.layer == l)
def updLayer (s : State) (p m l : Nat) (f : LayerSt → LayerSt) : State :=
  s.updPart p (fun x => { x with layers := x.layers.map (fun y => if y.model == m && y.layer == l then f y else y) })

/-- The entry of layer l. -/
def layerAt (s : State) (p m l : Nat) : Option LayerEntry := (s.gpRead p ((s.modelRec p m).table.toNat + 64 * l) 64).map layerEntry
/-- The region entries of a layer; none when stage 2 refuses the list. -/
def regionsAt (s : State) (p : Nat) (e : LayerEntry) : Option (List RegionEntry) :=
  (s.gpRead p e.regionList (32 * e.count)).map (fun b => (List.range e.count).map (fun i => regionEntry (b.drop (32 * i))))

/-- The bytes of a layer's entry and of its region list. -/
def tableKeys (s : State) (p m l : Nat) : List Nat :=
  (s.gpKeys p ((s.modelRec p m).table.toNat + 64 * l) 1 64).getD [] ++ (match s.layerAt p m l with
    | some e => (s.gpKeys p e.regionList 1 (32 * e.count)).getD []
    | none => [])
/-- The front reads tables: lost data among them count (R348, R354). -/
def readTables (s : State) (p : Nat) (keys : List Nat) : State :=
  (if keys.any s.lostKey then s.countLost else s).frontReads { part := p } keys

/-- The context a model names. -/
def modelCtx (s : State) (p m : Nat) : Option Context :=
  s.contexts.find? (fun c => c.part == p && c.live && BitVec.ofNat 64 c.ctxidWord.toNat == (s.modelRec p m).context)

/-! ### Enabling a model (R325) -/

/-- A record field breaks the table, or the table fails stage 2. -/
def recordBad (s : State) (p m : Nat) : Bool :=
  let r := s.modelRec p m
  r.table.toNat % 64 != 0 || decide (r.layers < 1) || decide (4096 < r.layers) || decide (15 < r.gen) || r.ctl != 0 || r.rest != 0
    || r.context.extractLsb' 32 32 != 0
    || !(List.range r.layers).all (fun l => ((s.part p).stage2 (r.table.toNat + 64 * l) 3).isOk)

/-- Whether a layer's entry and its list are well formed, with regions of the context. -/
def layerOk (s : State) (p cid : Nat) (e : LayerEntry) : Bool :=
  e.mbz == 0 && decide (e.kind ≤ 2) && decide (1 ≤ e.count) && decide (e.count ≤ 64) && e.regionList % 32 == 0 && e.digest % 8 == 0
    && (match s.regionsAt p e with
      | none => false
      | some rs => rs.all (fun x => x.mbz == 0 && sourceFmtOk x.format && (match s.regionOf cid x.handle with
        | none => false
        | some r => (!x.advise || (orderOf r.dims x.order).isSome)
          && (x.scales == 0 || (r.side != 0 && rs.any (fun y => y.handle == r.side))))))

/-- The handles that a model's layers name, with the layer of each. -/
def modelHandles (s : State) (p m : Nat) : List (DWord × Nat) :=
  ((List.range (s.modelRec p m).layers).map (fun l => match (s.layerAt p m l).bind (s.regionsAt p) with
    | some rs => rs.map (fun x => (x.handle, l))
    | none => [])).flatten

/-- The part accepts an enable. -/
def enableOk (s : State) (p m : Nat) : Bool :=
  !s.recordBad p m && (match s.modelCtx p m with
    | none => false
    | some c =>
      let hs := s.modelHandles p m
      (List.range (s.modelRec p m).layers).all (fun l => match s.layerAt p m l with
        | some e => s.layerOk p c.id e
        | none => false)
      && decide ((hs.dedup.map (·.1)).dedup.length = hs.dedup.length)
      && hs.all (fun h => match s.regionOf c.id h.1 with
        | some r => !r.pooled
        | none => false))

/-- An accepted enable: every residency word epoch 0 and empty, every hold count 0, every region pooled and absent. -/
def enableModel (s : State) (p m : Nat) (cid : Nat) : State :=
  let r := s.modelRec p m
  let hs := s.modelHandles p m
  let s1 := s.setModel p m (fun x => { x with enabled := true, cid := cid, disabling := false })
  let s2 := (List.range r.layers).foldl (fun s l =>
    let k := s.layerKey p m l
    State.frontWrote { s with mem := ((s.mem.write k 8 0).write (k + 8) 4 0).setFull (k / 8) false } { part := p }
      ((List.range 12).map (k + ·)) [k / 8]) s1
  let region : Region → Region := fun x => if x.ctx == cid then (match hs.find? (fun h => h.1 == x.handle) with
    | some h => { x with pooled := true, absent := true, frames := [], layerRef := layerRefOf r.gen m h.2 }
    | none => x) else x
  let left : Nat → List Nat := fun l => ((s.layerSt p m l).map (fun (y : LayerSt) => y.leaving)).getD []
  let fresh : List LayerSt := (List.range r.layers).map (fun l =>
    { model := m, layer := l, frames := [], zeroAt := s.time, wasHeld := false, leaving := left l })
  let add : Part → Part := fun x =>
    { x with layers := x.layers.filter (fun (y : LayerSt) => y.model != m || decide (r.layers ≤ y.layer)) ++ fresh }
  State.updPart { s2 with regions := s2.regions.map region } p add

/-! ### Frames (R329, R334) -/

/-- The host address of a pool frame. -/
def poolAddr (s : State) (p f : Nat) : Nat := (s.part p).poolBase.toNat + f * 0x200000
/-- Free frames the pool may give: none with a retired 64 KiB frame (R349). -/
def freeFrames (s : State) (p : Nat) : List Nat :=
  (s.part p).poolFree.filter (fun f => !(s.part p).retired.any (fun t => t / 32 == s.poolAddr p f / 0x200000))

/-- The regions of a layer of an enabled model, each once: those of the context the model was enabled for, whether or not it has ended
(R332). -/
def layerRegions (s : State) (p m l : Nat) : List Region :=
  match (s.layerAt p m l).bind (s.regionsAt p) with
  | some rs => (rs.map (·.handle)).dedup.filterMap (fun h => s.regionOf (s.modelRec p m).cid h)
  | none => []
/-- Frames that a region needs. -/
def framesOf (r : Region) : Nat := (Region.needBytes r + 0x1FFFFF) / 0x200000
/-- Frames that a layer needs. -/
def layerNeeds (s : State) (p m l : Nat) : Nat := ((s.layerRegions p m l).map framesOf).foldl (· + ·) 0

/-- Gives a list of frames to the regions of a layer, in order. -/
def giveFrames (s : State) (p : Nat) : List Region → List Nat → State
  | [], _ => s
  | r :: t, fs =>
    let mine := (fs.take (framesOf r)).map (s.poolAddr p)
    let upd : Region → Region := fun x => if x.id == r.id then { x with frames := mine } else x
    State.giveFrames { s with regions := s.regions.map upd } p t (fs.drop (framesOf r))

/-- Marks the regions of a layer absent, or there. -/
def markAbsent (s : State) (p m l : Nat) (b : Bool) : State :=
  let ids := (s.layerRegions p m l).map (·.id)
  let upd : Region → Region := fun x => if ids.contains x.id then { x with absent := b, frames := if b then [] else x.frames } else x
  { s with regions := s.regions.map upd }

/-- An eviction's indivisible step (R335): nothing with a hold, or of an absent layer. -/
def evict (s : State) (p m l : Nat) : State :=
  if s.holdCount p m l != 0 || !s.resident p m l then s
  else
    let k := s.layerKey p m l
    let s1 := State.frontWrote { s with mem := s.mem.setFull (k / 8) false } { part := p } [] [k / 8]
    (s1.markAbsent p m l true).updLayer p m l (fun y => { y with frames := [], leaving := y.leaving ++ y.frames })

/-- An access accepted at a home before the eviction still waits on an element in one of these frames. -/
def framesBusy (s : State) (p : Nat) (fs : List Nat) : Bool :=
  let on : Loc → Bool := fun l => l.elem.isSome && l.keys.any (fun k => fs.any (fun f =>
    decide (s.poolAddr p f ≤ k) && decide (k < s.poolAddr p f + 0x200000)))
  s.accesses.any (fun a => match a.phase, a.loc with
    | .waiting .., some x => on x
    | .refused, some x => on x
    | _, _ => false)

/-- The victim of R334 for a swap-in of a model. -/
def victim (s : State) (p m : Nat) : Option (Nat × Nat) :=
  let pr := (s.modelRec p m).prio
  let key : LayerSt → List Nat := fun y => [(s.modelRec p y.model).prio, y.zeroAt, y.model, y.layer]
  let cand := (s.part p).layers.filter (fun y => s.resident p y.model y.layer && s.holdCount p y.model y.layer == 0
    && decide ((s.modelRec p y.model).prio ≤ pr) && (s.modelRec p y.model).enabled)
  (cand.foldl (fun (b : Option LayerSt) y => match b with
    | none => some y
    | some x => some (if keyLe (key x) (key y) then x else y)) none).map (fun y => (y.model, y.layer))

/-- Evicts victims until enough frames are free or draining, or none remain. -/
def makeRoom (s : State) (p m need : Nat) : Nat → State
  | 0 => s
  | n + 1 =>
    let coming := ((s.part p).layers.map (fun y => y.leaving.length)).foldl (· + ·) 0
    if need ≤ (s.freeFrames p).length + coming then s
    else match s.victim p m with
      | none => s
      | some v => (s.evict p v.1 v.2).makeRoom p m need n

/-! ### Reading and converting a source (R326, R327, R333 step 3) -/

end State

/-- What stops the reading of a source: a failure cause, or a fault that is answered first. -/
inductive SourceStop where
  | cause (c : Nat)
  | fault (cause gpa va : Nat)
  deriving DecidableEq, Repr

/-- Bits of a source's elements: narrow ones in blocks of 16 along the block dimension (R55). -/
def sourceBits (r : Region) (w : Word) : Nat :=
  let ext := if fmtNarrow w then r.extents.set r.block ((r.extents.getD r.block 1 + 15) / 16 * 16) else r.extents
  (ext.take r.dims).foldl (· * ·) 1 * fmtBits w

/-- The bit at which an element lies in its source. -/
def sourceBit (r : Region) (w : Word) (x : List Nat) : Nat :=
  if fmtNarrow w then
    let b := x.getD r.block 0
    let r1 := { r with extents := r.extents.set r.block ((r.extents.getD r.block 1 + 15) / 16) }
    (Region.linear r1 (x.set r.block (b / 16)) * 16 + b % 16) * fmtBits w
  else Region.linear r x * fmtBits w

/-- A field of bits of a byte string. -/
def bitsAt (b : List Byte) (off w : Nat) : Nat := natOfBytes ((b.drop (off / 8)).take ((off % 8 + w + 7) / 8)) / 2 ^ (off % 8) % 2 ^ w

namespace State

/-- One byte of a source. -/
def sourceByte (s : State) (p cid : Nat) (e : LayerEntry) (off : Nat) : Except SourceStop Byte :=
  match e.kind with
  | 0 => match s.jobXlat cid (e.source + off) .read with
    | .error f => .error (.fault f.1 f.2 (e.source + off))
    | .ok k => if s.lostKey k.1 then .error (.cause 1) else .ok (s.mem.byte k.1)
  | 1 => match (s.part p).stage2 (e.source + off) 1 with
    | .error c => .error (.fault c (e.source + off) (e.source + off))
    | .ok (k, _) => if !s.pf.hostLink || !isHostMem k || s.lostKey k then .error (.cause 1) else .ok (s.mem.byte (s.forward k))
  | _ =>
    let n := e.source / 2 ^ 58
    let o := e.source % 2 ^ 58 + off
    match s.session p n with
    | none => .error (.cause 1)
    | some x => if o < x.peerLen then .ok (Config.peerByte p x.peer n o s.time) else .error (.cause 1)

/-- n bytes of a source. -/
def sourceBytes (s : State) (p cid : Nat) (e : LayerEntry) (off : Nat) : Nat → Except SourceStop (List Byte)
  | 0 => .ok []
  | n + 1 => match s.sourceByte p cid e off with
    | .error x => .error x
    | .ok b => match s.sourceBytes p cid e (off + 1) n with
      | .error x => .error x
      | .ok t => .ok (b :: t)

/-- The keys of n bytes of a source that lies in memory. -/
def sourceKeys (s : State) (p cid : Nat) (e : LayerEntry) (off n : Nat) : List Nat :=
  (List.range n).filterMap (fun i => match e.kind with
    | 0 => (s.jobXlat cid (e.source + off + i) .read).toOption.map (·.1)
    | 1 => ((s.part p).stage2 (e.source + off + i) 1).toOption.map (fun x => s.forward x.1)
    | _ => none)
/-- Those of all that a region's entry names. -/
def entryKeys (s : State) (p cid : Nat) (e : LayerEntry) (x : RegionEntry) (r : Region) : List Nat :=
  let n := (sourceBits r x.format + 7) / 8
  let scales := match s.regionOf cid r.side with
    | some sd => (sd.extents.take sd.dims).foldl (· * ·) 1
    | none => 0
  s.sourceKeys p cid e x.offset n ++ (if x.scales == 0 then [] else s.sourceKeys p cid e x.scales scales)
    ++ (if e.key == 0 then [] else s.sourceKeys p cid e (x.offset + n) 16)

/-- A region's element bytes and scale bytes, decrypted where a key is named. DESIGN CHOICE: log entry 53. -/
def regionSource (s : State) (p cid m l i : Nat) (e : LayerEntry) (x : RegionEntry) (r : Region) : Except SourceStop (List Byte × List Byte) :=
  let n := (sourceBits r x.format + 7) / 8
  let scaleCount := match s.regionOf cid r.side with
    | some sd => (sd.extents.take sd.dims).foldl (· * ·) 1
    | none => 0
  match s.sourceBytes p cid e x.offset n, (if x.scales == 0 then .ok [] else s.sourceBytes p cid e x.scales scaleCount) with
  | .error f, _ => .error f
  | _, .error f => .error f
  | .ok eb, .ok sb =>
    if e.key == 0 then .ok (eb, sb)
    else match s.sourceBytes p cid e (x.offset + n) 16 with
      | .error f => .error f
      | .ok tag => match Config.gcmOpen (p * 2 ^ 32 + e.key) (bytesOfNat 12 (p + m * 2 ^ 16 + l * 2 ^ 32 + i * 2 ^ 48)) [] eb tag with
        | some pt => .ok (pt, sb)
        | none => .error (.cause 3)

/-- The coordinates of every element of a region, in linear order. -/
def allCoords (r : Region) : List (List Nat) := (List.range ((r.extents.take r.dims).foldl (· * ·) 1)).map r.coords

/-- Writes one element, full under policy 1 or 2. -/
def putElem (s : State) (r : Region) (x : List Nat) (v : Nat) : State :=
  match s.elemLoc r x .write with
  | .error _ => s
  | .ok l =>
    let m := l.store s.mem v
    ((State.placeWrote { s with mem := if r.policy == 0 then m else l.setFull m true } { part := r.part } l true (r.policy != 0)).frontTook
      r.part (placeKeys l)).scanKeys (placeKeys l)

/-- Writes a region's elements, its pads as code 0 (R55), and the scale bytes into its side tensor. -/
def putRegion (s : State) (cid : Nat) (x : RegionEntry) (r : Region) (eb sb : List Byte) : State :=
  let w := fmtBits x.format
  let scale : List Nat → Option Nat := fun c =>
    if x.scales == 0 then (if r.side == 0 then none else some 127)
    else (s.sideOf r c).map (fun y => (sb.getD (Region.linear y.1 y.2) 127).toNat)
  let s1 := (allCoords r).foldl (fun s c =>
    s.putElem r c (convertElem x.format r.format (x.scales != 0) none (scale c) [] 0 0 (bitsAt eb (sourceBit r x.format c) w)).1) s
  let pad : State → List Nat → State := fun s c => match s.elemLoc r c .write with
    | .ok l => (State.placeWrote { s with mem := l.store s.mem 0 } { part := r.part } l true false).frontTook r.part l.keys
    | .error _ => s
  let s2 := (pads r).foldl pad s1
  match (if x.scales == 0 then none else s.regionOf cid r.side) with
  | none => s2
  | some sd => (allCoords sd).foldl (fun s c => s.putElem sd c (sb.getD (Region.linear sd c) 127).toNat) s2

/-- A swap-in's record in its partition. -/
def setSwap (s : State) (p : Nat) (w : Swap) : State :=
  s.updPart p (fun x => { x with swaps := x.swaps.map (fun y => if y.id == w.id then w else y) })

/-- Steps 2 and 3 of a swap-in that has its frames, in the context of its model, which may have ended: a fault of that one is not
answered any more, and counts as a failed answer. DEDUCED: log entry 54. -/
def loadLayer (s0 : State) (p : Nat) (w : Swap) : State :=
  let cid := (s0.modelRec p w.model).cid
  match s0.layerAt p w.model w.layer with
  | some e =>
    let entries := (s0.regionsAt p e).getD []
    let pairs := entries.zipIdx.filterMap (fun x => (s0.regionOf cid x.1.handle).map (fun r => (x.1, r, x.2)))
    let srcs := pairs.map (fun x => s0.regionSource p cid w.model w.layer x.2.2 e x.1 x.2.1)
    let s := s0.readTables p (s0.tableKeys p w.model w.layer ++ (pairs.map (fun x => s0.entryKeys p cid e x.1 x.2.1)).flatten)
    let stop : Option SourceStop := srcs.findSome? (fun x => match x with
      | .error f => some f
      | .ok _ => none)
    match stop with
    | some (.cause n) => s.setSwap p { w with cause := n, stage := 3 }
    | some (.fault cause gpa va) =>
      if !s.liveContext cid then s.setSwap p { w with cause := 1, stage := 3 }
      else (s.setSwap p { w with stallRange := some (cid, va / 65536) }).pageRequest cid va cause gpa 4
    | none =>
      let bs := srcs.filterMap (fun x => match x with
        | .ok b => some b
        | .error _ => none)
      let sum := Config.sha384 ((bs.map (fun b => b.1 ++ b.2)).flatten)
      if e.digest != 0 && s.gpRead p e.digest 48 != some sum then s.setSwap p { w with cause := 2, stage := 3 }
      else
        let s1 := s.giveFrames p (s.layerRegions p w.model w.layer) w.frames
        let s2 := (pairs.zip bs).foldl (fun s x =>
          match s.region x.1.2.1.id with
          | none => s
          | some rg => s.putRegion cid x.1.1 rg x.2.1 x.2.2) s1
        -- a tensor element's write has the current time as its completion time (R259)
        s2.setSwap p { w with stage := 2, ctime := max w.ctime s.time, stallRange := none }
  | none => (s0.readTables p (s0.tableKeys p w.model w.layer)).setSwap p { w with cause := 1, stage := 3 }

/-- The advice of a swap-in's region entries (R333 step 2). -/
def adviseLayer (s : State) (p m l : Nat) : State :=
  match (s.layerAt p m l).bind (s.regionsAt p) with
  | some rs => rs.foldl (fun s x =>
      if !x.advise then s
      else match s.regionOf (s.modelRec p m).cid x.handle with
        | none => s
        | some r => s.setRegion (r.advise (BitVec.ofNat 64 (x.order.toNat * 2 ^ 17 + 2 ^ 16))).2) s
  | none => s

/-- One of the four swap-ins at work for its partition, and first in line for frames (R333). -/
def swapActive (s : State) (p : Nat) (w : Swap) : Bool := (((s.part p).swaps.take 4).map (·.id)).contains w.id
def firstForFrames (s : State) (p : Nat) (w : Swap) : Bool :=
  !((s.part p).swaps.takeWhile (fun y => y.id != w.id)).any (fun y => y.stage == 0)

/-- A source in a peer's window is read while the session's link is up (R364, R377). -/
def sourceReachable (s : State) (p : Nat) (w : Swap) : Bool :=
  match s.layerAt p w.model w.layer with
  | some e => decide (e.kind < 2) || (match s.session p (e.source / 2 ^ 58) with
    | some x => (s.link x.link).up
    | none => true)
  | none => true

/-- A swap-in takes its frames, evicts for them, or reads its source. -/
def swapStep (s : State) (p : Nat) (w : Swap) : Option State :=
  if !s.serving p || !s.swapActive p w then none
  else if w.stage == 1 then (if w.stallRange.isSome || w.cause != 0 || !s.sourceReachable p w then none else some (s.loadLayer p w))
  else if w.stage != 0 || !s.firstForFrames p w then none
  else
    let need := s.layerNeeds p w.model w.layer
    let free := s.freeFrames p
    if need ≤ free.length then
      let mine := free.take need
      let s1 := s.updPart p (fun x => { x with poolFree := x.poolFree.filter (fun f => !mine.contains f) })
      let s2 := s1.readTables p (s1.tableKeys p w.model w.layer)
      some ((s2.setSwap p { w with stage := 1, frames := mine }).adviseLayer p w.model w.layer)
    else
      let s1 := s.makeRoom p w.model need ((s.part p).layers.length + 1)
      if (s1.part p).layers == (s.part p).layers then none else some s1

/-- Where a swap-in is: its partition and record. -/
def swapOf (s : State) (id : Nat) : Option (Nat × Swap) :=
  (List.range Config.partitions).findSome? (fun p => ((s.part p).swaps.find? (fun w => w.id == id)).map (fun w => (p, w)))

/-- A disable that holds no longer stop (R325): every resident layer is evicted, and the model's regions are pooled no more; one of a
model that has come to be held is refused. -/
def disableNow (s : State) (p m : Nat) : State :=
  let ls := List.range (s.modelRec p m).layers
  if ls.any (fun l => s.holdCount p m l != 0) then
    (s.setModel p m (fun x => { x with disabling := false })).updPart p (fun x => { x with vfRefused := true })
  else
    let hs := (s.modelHandles p m).map (·.1)
    let s1 := (ls.foldl (fun s l => s.evict p m l) s).setModel p m (fun x => { x with enabled := false, disabling := false })
    let upd : Region → Region := fun r => if r.part == p && hs.contains r.handle && r.ctx == (s.modelRec p m).cid then
      { r with pooled := false, absent := false } else r
    { s1 with regions := s1.regions.map upd }
/-- The end of a model's last swap-in in flight lets an accepted disable take place. -/
def swapEnded (s : State) (p m : Nat) : State :=
  if (s.modelRec p m).disabling && !(s.part p).swaps.any (fun w => w.model == m) then s.disableNow p m else s

/-- Step 4: the residency word is force-filled with the next epoch, and its waiters are performed. -/
def swapDone (s : State) (p : Nat) (w : Swap) : State :=
  let old := s.residency p w.model w.layer
  let s1 := s.setResidency p w.model w.layer ((old + 1) &&& 0xFFFFFFFF)
  let key := s1.layerKey p w.model w.layer
  let s2 := State.frontWrote { s1 with mem := s1.mem.setFull (key / 8) true } { part := p } [] [key / 8]
  let ids := (s2.layerRegions p w.model w.layer).map (·.id)
  let upd : Region → Region := fun x => if ids.contains x.id then { x with absent := false } else x
  let s3 := ({ s2 with regions := s2.regions.map upd }.updLayer p w.model w.layer (fun y => { y with frames := w.frames, zeroAt := if y.wasHeld then y.zeroAt else s.time })).updPart p
    (fun x => { x with swaps := x.swaps.filter (fun y => y.id != w.id) })
  let s4 := s3.scanAll (s3.residencyLoc p w.model w.layer)
  (w.nodes.foldl (fun s n => s.endNode p n 0 0) s4).swapEnded p w.model

/-- A failed swap-in (R336): frames back, the cause kept, its waiters removed and trapped, a record, its nodes ended. -/
def swapFail (s : State) (p : Nat) (w : Swap) : State :=
  let old := s.residency p w.model w.layer
  let s0 := (s.markAbsent p w.model w.layer true).updPart p (fun x => { x with
    poolFree := (sortBy id (x.poolFree ++ w.frames)), swaps := x.swaps.filter (fun y => y.id != w.id) })
  let s1 := s0.setResidency p w.model w.layer ((old &&& 0xFFFFFFFF) ||| BitVec.ofNat 64 (w.cause * 2 ^ 32))
  let key := s1.layerKey p w.model w.layer
  let waits := s1.accesses.filter (fun a => a.op == .layacq && (match a.phase, a.loc with
    | .waiting .., some l => l.first == key
    | .refused, some l => l.first == key
    | _, _ => false))
  let s2 := waits.foldl (fun s a => (s.dropAcquire a).accessTrap a 0x19 w.cause a.addr) s1
  let s3 := s2.noteFatal (s2.modelRec p w.model).cid 8 (w.model * 4096 + w.layer)
  (w.nodes.foldl (fun s n => s.endNode p n 7 0) s3).swapEnded p w.model

/-! ### Swap nodes (R301, R333, R334) -/

/-- A swap record: reference, E; none when it is malformed. -/
def swapRec (b : List Byte) : Option (DWord × Bool) :=
  if cardN b 9 7 != 0 || decide (1 < cardN b 8 1) then none else some (BitVec.ofNat 64 (cardN b 0 8), cardN b 8 1 == 1)

/-- A loading node. -/
def swapInNode (s : State) (p n : Nat) (d : Node) (ref : DWord) : State :=
  let m := refModel ref
  let l := refLayer ref
  if !s.refValid p d.ctx ref then s.endNode p n 2 0
  else if s.resident p m l then s.endNode p n 0 0
  else
    let w := s.residency p m l
    let s1 := s.setNode p n { d with phase := .dispatched }
    if w.getLsbD 40 then
      s1.updPart p (fun x => { x with swaps := x.swaps.map (fun y => if y.model == m && y.layer == l then { y with nodes := y.nodes ++ [n] } else y) })
    else (s1.setResidency p m l (w ||| 0x10000000000)).startSwap p m l [n]

/-- An evicting node. -/
def swapOutNode (s : State) (p n : Nat) (d : Node) (ref : DWord) : State :=
  let m := refModel ref
  let l := refLayer ref
  if !s.refValid p d.ctx ref then s.endNode p n 2 0
  else if s.holdCount p m l != 0 then s.endNode p n 7 0
  else (s.evict p m l).endNode p n 0 0

/-- A kind-2 node whose record is read; `e` is the E bit the row serves, a malformed record ending with error 2. -/
def dispatchSwap (s : State) (p n : Nat) (d : Node) (e : Bool) (f : DWord → State) : Option State :=
  match s.frontRead d.ctx d.payload.toNat 16 with
  | .error x => if e then none else some (s.payloadStop p n d 2 0 x)
  | .ok b => match swapRec b with
    | none => if e then none else some (s.endNode p n 2 0)
    | some r => if r.2 == e then some (f r.1) else none

/-! ### The completion of a node (R303) -/

/-- Every gang of a launch has been placed and has ended, and in deterministic mode has been released. -/
def launchDone (s : State) (l : Launch) : Bool :=
  let stopped := l.error != 0 && l.error != 8
  let gs := s.gangs.filter (fun g => g.launch == l.id)
  (stopped || l.next == l.gangCount) && gs.all (fun g => s.gangDone g) && (stopped || !l.det || gs.all (·.released))

/-- Step 1 of R303: the node with its error and result, once its work has ended. -/
def nodeWork (s : State) (p n : Nat) : Option (State × Node × Nat × Nat) :=
  match s.node p n with
  | none => none
  | some d =>
    match s.launches.find? (fun l => l.part == p && l.node == n && d.kind == 0) with
    | some l =>
      if !s.launchDone l then none
      else
        let det := (if l.detx then 1 else 0) + (if l.deta then 2 else 0) + (if l.deto then 4 else 0)
        let s1 := s.dropHolds l.id
        some ({ s1 with launches := s1.launches.filter (fun x => x.id != l.id), gangs := s1.gangs.filter (fun g => g.launch != l.id) },
          { d with det := det, ctime := max d.ctime l.ctime }, l.error, 0)
    | none => match d.phase with
      | .ended e r => some (s, d, e, r)
      | _ => none

end State

/-- MODEL_RECORD_WRITE (R325): word k of a model record; while it is enabled only the eviction priority. The enable bit has
rows of its own. DEDUCED: log entry 52. -/
def execModelRecordWrite (part m k : Nat) (v : DWord) (s : State) : Host.Outcome State Fault Refusal :=
  ev "MODEL_RECORD_WRITE" <| s.vfWrite (if part ≥ Config.partitions ∨ m ≥ 64 ∨ k ≥ 4 then none
    else
      let r := s.modelRec part m
      let refuse := s.updPart part (fun x => { x with vfRefused := true })
      let layers := (v.extractLsb' 0 16).toNat
      let prio := (v.extractLsb' 16 8).toNat
      let ctl := (v.extractLsb' 25 7).toNat
      let gen := (v.extractLsb' 32 32).toNat
      some (if r.enabled then
          (if k == 1 then
            let s1 := s.setModel part m (fun x => { x with prio := prio })
            if layers == r.layers && ctl == r.ctl && gen == r.gen then s1 else s1.updPart part (fun x => { x with vfRefused := true })
          else refuse)
        else match k with
          | 0 => s.setModel part m (fun x => { x with table := v })
          | 1 => s.setModel part m (fun x => { x with layers := layers, prio := prio, ctl := ctl, gen := gen })
          | 2 => s.setModel part m (fun x => { x with context := v })
          | _ => s.setModel part m (fun x => { x with rest := v })))

/-- MODEL_ENABLE (R325): the model is checked and its residency words written, or the enable is refused. -/
def execModelEnable (part m : Nat) (s : State) : Host.Outcome State Fault Refusal :=
  evPort "MODEL_ENABLE" <| s.vfWrite (if part ≥ Config.partitions ∨ m ≥ 64 ∨ (s.modelRec part m).enabled = true then none
    else match s.modelCtx part m with
      | some c =>
        let s1 := if s.enableOk part m then s.enableModel part m c.id else s.updPart part (fun x => { x with vfRefused := true })
        some (if s.recordBad part m then s1
          else s1.readTables part ((List.range (s.modelRec part m).layers).map (s.tableKeys part m)).flatten)
      | none => some (s.updPart part (fun x => { x with vfRefused := true })))

/-- MODEL_DISABLE (R325): refused while a hold stands; else every resident layer is evicted and the model disabled, its regions no longer
pooled, at once or, where a swap-in of it is in flight, when that has ended. DEDUCED: log entry 52. -/
def execModelDisable (part m : Nat) (s : State) : Host.Outcome State Fault Refusal :=
  evPort "MODEL_DISABLE" <| s.vfWrite (if part ≥ Config.partitions ∨ m ≥ 64 ∨ (s.modelRec part m).enabled = false then none
    else
      let held := (List.range (s.modelRec part m).layers).any (fun l => s.holdCount part m l != 0)
      some (if !held && (s.part part).swaps.any (fun w => w.model == m) then s.setModel part m (fun x => { x with disabling := true })
        else s.disableNow part m))

/-- NODE_SWAP_IN (R333): a ready swap node loads its layer, or joins the swap-in in flight. -/
def execNodeSwapIn (part node : Nat) (s : State) : Host.Outcome State Fault Refusal :=
  evPort "NODE_SWAP_IN" (s.dispatch part node (· == 2) (fun s d => s.dispatchSwap part node d false (s.swapInNode part node d)))

/-- NODE_SWAP_EVICT (R334): a ready swap node with E = 1 evicts its layer unless it is held. -/
def execNodeSwapEvict (part node : Nat) (s : State) : Host.Outcome State Fault Refusal :=
  evPort "NODE_SWAP_EVICT" (s.dispatch part node (· == 2) (fun s d => s.dispatchSwap part node d true (s.swapOutNode part node d)))

/-- SWAP_IN_FRAMES (R333): a swap-in obtains its frames, advises the layouts, then reads and converts its source. -/
def execSwapInFrames (swap : Nat) (s : State) : Host.Outcome State Fault Refusal :=
  evPort "SWAP_IN_FRAMES" ((s.swapOf swap).bind (fun x => s.swapStep x.1 x.2))

/-- EVICTION_FRAMES_RETURN (R335): accepted accesses done, an evicted layer's frames return to the pool. -/
def execEvictionFramesReturn (part m layer : Nat) (s : State) : Host.Outcome State Fault Refusal :=
  ev "EVICTION_FRAMES_RETURN" (match s.layerSt part m layer with
    | none => none
    | some y =>
      if y.leaving.isEmpty || s.framesBusy part y.leaving then none
      else
        some ((s.updLayer part m layer (fun y => { y with leaving := [] })).updPart part (fun x => { x with
          poolFree := sortBy id (x.poolFree ++ y.leaving) })))

/-- SWAP_IN_COMPLETE (R333): its writes have passed; the residency word is filled. -/
def execSwapInComplete (swap : Nat) (s : State) : Host.Outcome State Fault Refusal :=
  evPort "SWAP_IN_COMPLETE" (match s.swapOf swap with
    | some (p, w) => if w.stage == 2 && decide (w.ctime ≤ s.time) then some (s.swapDone p w) else none
    | none => none)

/-- SWAP_IN_FAILURE (R336): the swap-in has failed. -/
def execSwapInFailure (swap : Nat) (s : State) : Host.Outcome State Fault Refusal :=
  evPort "SWAP_IN_FAILURE" (match s.swapOf swap with
    | some (p, w) => if w.cause != 0 then some (s.swapFail p w) else none
    | none => none)

/-- NODE_COMPLETE (R303): the node's work has ended and its writes are released; the status is written and the successors
are decremented. -/
def execNodeComplete (part node : Nat) (s : State) : Host.Outcome State Fault Refusal :=
  evPort "NODE_COMPLETE" (match s.nodeWork part node with
    | none => none
    | some (s1, d, e, r) =>
      if s.time < d.ctime then none
      else match s1.completeNode part node d e r with
        | some s2 => some s2
        | none => (s1.completionFault part d).map (fun f => s.frontFault d.ctx f 1))

end Sys2Proof.Machine
end

