-- ==== Sys2Proof/Machine/Sync.lean ====
section
/-! DEFINITION. Sys2Proof/Machine/Sync.lean: barriers, fences, engine postings, layout and layer words, ICINV (R159 to R166,
R179, R191, R192, R212, R270 to R273, R305, R332, R369). Each posts one access or posting per fibre; the events of the
part carry it out. -/

namespace Sys2Proof.Machine

/-- BARI (R164): Initialises a barrier word in scratch and sets it full. -/
def execBari (h : Head) (a : BitVec 6) (b : BitVec 6) (s : State) :
    Host.Outcome State Fault Refusal :=
  posts (.bari h a b) h s (fun r => ⟨0, r.pair a, .bari (r.reg b), 0⟩)

/-- BARV (R165): Arrives at a barrier as a release and returns the phase. -/
def execBarv (h : Head) (d : BitVec 6) (a : BitVec 6) (s : State) :
    Host.Outcome State Fault Refusal :=
  posts (.barv h d a) h s (fun r => ⟨d.toNat, r.pair a, .barv, 0⟩)

/-- BARW (R166): Waits for a barrier phase as an acquire and returns the elect flag. -/
def execBarw (h : Head) (d : BitVec 6) (a : BitVec 6) (b : BitVec 6) (s : State) :
    Host.Outcome State Fault Refusal :=
  posts (.barw h d a b) h s (fun r => ⟨d.toNat, r.pair a, .barw ((r.reg b).toNat % 65536), 0⟩)

/-- FENCE (R160): Orders the fibre's later accesses by kind and scope, optionally including engine jobs. -/
def execFence (h : Head) (e : BitVec 1) (k : BitVec 2) (scope : BitVec 3) (s : State) :
    Host.Outcome State Fault Refusal :=
  posts (.fence h e k scope) h s (fun _ => ⟨0, 0, .fence (e == 1) k.toNat scope.toNat, 0⟩)

/-- LAYQ (R271): Reads a region's layout record at its place in the notice stream. -/
def execLayq (h : Head) (d : BitVec 6) (a : BitVec 6) (s : State) :
    Host.Outcome State Fault Refusal :=
  posts (.layq h d a) h s (fun r => ⟨2 * d.toNat, r.pair a, .layq, 0⟩)

/-- LAYADV (R272): Presents layout advice and window length to a region's monitor. -/
def execLayadv (h : Head) (d : BitVec 6) (a : BitVec 6) (b : BitVec 6) (s : State) :
    Host.Outcome State Fault Refusal :=
  posts (.layadv h d a b) h s (fun r => ⟨d.toNat, r.pair a, .layadv (r.pair b), 0⟩)

/-- LAYPIN (R273): Pins or unpins a region's layout. -/
def execLaypin (h : Head) (d : BitVec 6) (a : BitVec 6) (b : BitVec 6) (s : State) :
    Host.Outcome State Fault Refusal :=
  posts (.laypin h d a b) h s (fun r => ⟨d.toNat, r.pair a, .laypin (r.pair b), 0⟩)

/-- LAYACQ (R332): Acquires a layer, raising its hold count and starting a swap-in if absent. -/
def execLayacq (h : Head) (a : BitVec 6) (s : State) :
    Host.Outcome State Fault Refusal :=
  posts (.layacq h a) h s (fun r => ⟨0, r.pair a, .layacq, 0⟩)

/-- LAYREL (R332): Releases a hold on a layer after the fibre's accesses are performed. -/
def execLayrel (h : Head) (a : BitVec 6) (s : State) :
    Host.Outcome State Fault Refusal :=
  posts (.layrel h a) h s (fun r => ⟨0, r.pair a, .layrel, 0⟩)

/-- SIGN (R192): Adds one signature to a sign register, posting its command at zero. -/
def execSign (h : Head) (k : BitVec 5) (s : State) :
    Host.Outcome State Fault Refusal :=
  posts (.sign h k) h s (fun _ => ⟨0, k.setWidth 64, .sign k.toNat, 0⟩)

/-- MARM (R191): Arms a sign register with a checked matrix command card and count. -/
def execMarm (h : Head) (d : BitVec 6) (a : BitVec 6) (b : BitVec 6) (s : State) :
    Host.Outcome State Fault Refusal :=
  posts (.marm h d a b) h s (fun r => ⟨0, r.pair a, .marm d.toNat (r.reg b), 0⟩)

/-- CPYQ (R212): Checks and posts one copy job from a card. -/
def execCpyq (h : Head) (a : BitVec 6) (s : State) :
    Host.Outcome State Fault Refusal :=
  posts (.cpyq h a) h s (fun r => ⟨0, r.pair a, .cpyq, 0⟩)

/-- TGPOST (R305): Adds a node to the partition's task graph from a record in memory. -/
def execTgpost (h : Head) (d : BitVec 6) (a : BitVec 6) (s : State) :
    Host.Outcome State Fault Refusal :=
  posts (.tgpost h d a) h s (fun r => ⟨d.toNat, r.pair a, .tgpost, 0⟩)

/-- LNKQ (R369): Checks and posts one link job from a card. -/
def execLnkq (h : Head) (a : BitVec 6) (s : State) :
    Host.Outcome State Fault Refusal :=
  posts (.lnkq h a) h s (fun r => ⟨0, r.pair a, .lnkq, 0⟩)

/-- ICINV (R179): Invalidates instruction-fetch copies of the cores in scope. -/
def execIcinv (h : Head) (scope : BitVec 3) (s : State) :
    Host.Outcome State Fault Refusal :=
  posts (.icinv h scope) h s (fun _ => ⟨0, 0, .icinv scope.toNat, 0⟩)

end Sys2Proof.Machine
end

