-- ==== Sys2Proof/Machine/System.lean ====
section
/-! DEFINITION. Sys2Proof/Machine/System.lean: the privileged words CARVE, TLBINV, RDFS, WRFS, SAVED (R134, R174 to R177,
R240). -/

namespace Sys2Proof.Machine

/-- CARVE (R134): Records a pending scratch size for the issuing core. -/
def execCarve (h : Head) (k : BitVec 3) (s : State) :
    Host.Outcome State Fault Refusal :=
  word (.carve h k) h s (fun s ks => match ks with
    | [] => s
    | _ => s.updCore s.issue.core (fun c => { c with pendCarve := some k.toNat }))

/-- TLBINV (R240): Removes selected cached translations of the partition and waits for their users. -/
def execTlbinv (h : Head) (a : BitVec 6) (b : BitVec 6) (s : State) :
    Host.Outcome State Fault Refusal :=
  posts (.tlbinv h a b) h s (fun r => ⟨0, r.pair a, .tlbinv (r.reg b), 0⟩)

/-- RDFS (R174): Reads saved state of a fibre or core of the gang; a fibre of the group is read as it stood before it (R22). -/
def execRdfs (h : Head) (d : BitVec 6) (a : BitVec 6) (b : BitVec 6) (s : State) :
    Host.Outcome State Fault Refusal :=
  word (.rdfs h d a b) h s (fun s ks => s.sendResults false ks (fun k =>
    let r := s.srcOf k
    ([(d.toNat, match s.saveTarget r.gang (r.reg a) with
      | some (.fib t) => s.readFibreState t ((s.issue.src.lookup t).getD (s.fibre t)) (r.reg b).toNat
      | some (.core c) => (s.core c).readState (r.reg b).toNat
      | none => 0)], [], 0)))

/-- WRFS (R174): Writes saved state of a fibre or core of the gang, lane by lane in lane order. DESIGN CHOICE: log entry 79. -/
def execWrfs (h : Head) (d : BitVec 6) (a : BitVec 6) (b : BitVec 6) (s : State) :
    Host.Outcome State Fault Refusal :=
  word (.wrfs h d a b) h s (fun s ks => ks.foldl (fun s k =>
    let r := s.srcOf k
    match s.saveTarget r.gang (r.reg a) with
    | some (.fib t) => s.updFibre t (fun f => f.writeState (r.reg b).toNat (r.reg d))
    | some (.core c) => s.updCore c (fun x => x.writeState (r.reg b).toNat (r.reg d))
    | none => s) s)

/-- SAVED (R177): Ends the fibre's part in the save routine. -/
def execSaved (h : Head) (s : State) :
    Host.Outcome State Fault Refusal :=
  word (.saved h) h s (fun s ks => s.request ks (fun _ => .savedF))

end Sys2Proof.Machine
end

