-- ==== Sys2Proof/Machine/Dispatch.lean ====
section
/-! DEFINITION. Sys2Proof/Machine/Dispatch.lean: one arm per constructor of Instr. -/

namespace Sys2Proof.Machine

def exec (i : Instr) (s : State) : Host.Outcome State Fault Refusal :=
  match i with
  | .iadd h d a b => Sys2Proof.Machine.execIadd h d a b s
  | .isub h d a b => Sys2Proof.Machine.execIsub h d a b s
  | .imul h d a b => Sys2Proof.Machine.execImul h d a b s
  | .imulhS h d a b => Sys2Proof.Machine.execImulhS h d a b s
  | .imulhN h d a b => Sys2Proof.Machine.execImulhN h d a b s
  | .imac h d a b => Sys2Proof.Machine.execImac h d a b s
  | .iminS h d a b => Sys2Proof.Machine.execIminS h d a b s
  | .iminN h d a b => Sys2Proof.Machine.execIminN h d a b s
  | .imaxS h d a b => Sys2Proof.Machine.execImaxS h d a b s
  | .imaxN h d a b => Sys2Proof.Machine.execImaxN h d a b s
  | .and h d a b => Sys2Proof.Machine.execAnd h d a b s
  | .or h d a b => Sys2Proof.Machine.execOr h d a b s
  | .xor h d a b => Sys2Proof.Machine.execXor h d a b s
  | .andn h d a b => Sys2Proof.Machine.execAndn h d a b s
  | .shl h d a b => Sys2Proof.Machine.execShl h d a b s
  | .shr h d a b => Sys2Proof.Machine.execShr h d a b s
  | .sar h d a b => Sys2Proof.Machine.execSar h d a b s
  | .rol h d a b => Sys2Proof.Machine.execRol h d a b s
  | .bfx h d a b => Sys2Proof.Machine.execBfx h d a b s
  | .bfi h d a b => Sys2Proof.Machine.execBfi h d a b s
  | .icmpS h n p a b => Sys2Proof.Machine.execIcmpS h n p a b s
  | .icmpN h n p a b => Sys2Proof.Machine.execIcmpN h n p a b s
  | .popc h d a => Sys2Proof.Machine.execPopc h d a s
  | .clz h d a => Sys2Proof.Machine.execClz h d a s
  | .brev h d a => Sys2Proof.Machine.execBrev h d a s
  | .mov h d a => Sys2Proof.Machine.execMov h d a s
  | .ladd h d a b => Sys2Proof.Machine.execLadd h d a b s
  | .lsub h d a b => Sys2Proof.Machine.execLsub h d a b s
  | .lmul h d a b => Sys2Proof.Machine.execLmul h d a b s
  | .lmulhS h d a b => Sys2Proof.Machine.execLmulhS h d a b s
  | .lmulhN h d a b => Sys2Proof.Machine.execLmulhN h d a b s
  | .lshl h d a b => Sys2Proof.Machine.execLshl h d a b s
  | .lshr h d a b => Sys2Proof.Machine.execLshr h d a b s
  | .lsar h d a b => Sys2Proof.Machine.execLsar h d a b s
  | .lcmpS h n p a b => Sys2Proof.Machine.execLcmpS h n p a b s
  | .lcmpN h n p a b => Sys2Proof.Machine.execLcmpN h n p a b s
  | .land h d a b => Sys2Proof.Machine.execLand h d a b s
  | .lor h d a b => Sys2Proof.Machine.execLor h d a b s
  | .lxor h d a b => Sys2Proof.Machine.execLxor h d a b s
  | .lea1 h d a b => Sys2Proof.Machine.execLea1 h d a b s
  | .lea2 h d a b => Sys2Proof.Machine.execLea2 h d a b s
  | .lea4 h d a b => Sys2Proof.Machine.execLea4 h d a b s
  | .lea8 h d a b => Sys2Proof.Machine.execLea8 h d a b s
  | .fadd h d a b => Sys2Proof.Machine.execFadd h d a b s
  | .fsub h d a b => Sys2Proof.Machine.execFsub h d a b s
  | .fmul h d a b => Sys2Proof.Machine.execFmul h d a b s
  | .fmac h d a b => Sys2Proof.Machine.execFmac h d a b s
  | .fnmac h d a b => Sys2Proof.Machine.execFnmac h d a b s
  | .fmin h d a b => Sys2Proof.Machine.execFmin h d a b s
  | .fmax h d a b => Sys2Proof.Machine.execFmax h d a b s
  | .fcmp h n p a b => Sys2Proof.Machine.execFcmp h n p a b s
  | .fneg h d a => Sys2Proof.Machine.execFneg h d a s
  | .fabs h d a => Sys2Proof.Machine.execFabs h d a s
  | .hadd2 h d a b => Sys2Proof.Machine.execHadd2 h d a b s
  | .hmul2 h d a b => Sys2Proof.Machine.execHmul2 h d a b s
  | .hfmac2 h d a b => Sys2Proof.Machine.execHfmac2 h d a b s
  | .badd2 h d a b => Sys2Proof.Machine.execBadd2 h d a b s
  | .bmul2 h d a b => Sys2Proof.Machine.execBmul2 h d a b s
  | .bfmac2 h d a b => Sys2Proof.Machine.execBfmac2 h d a b s
  | .dadd h d a b => Sys2Proof.Machine.execDadd h d a b s
  | .dmul h d a b => Sys2Proof.Machine.execDmul h d a b s
  | .dfmac h d a b => Sys2Proof.Machine.execDfmac h d a b s
  | .dcmp h n p a b => Sys2Proof.Machine.execDcmp h n p a b s
  | .iaddi h d a k => Sys2Proof.Machine.execIaddi h d a k s
  | .andi h d a k => Sys2Proof.Machine.execAndi h d a k s
  | .ori h d a k => Sys2Proof.Machine.execOri h d a k s
  | .xori h d a k => Sys2Proof.Machine.execXori h d a k s
  | .shli h d a k => Sys2Proof.Machine.execShli h d a k s
  | .shri h d a k => Sys2Proof.Machine.execShri h d a k s
  | .sari h d a k => Sys2Proof.Machine.execSari h d a k s
  | .icmpiS h n p a k => Sys2Proof.Machine.execIcmpiS h n p a k s
  | .icmpiN h n p a k => Sys2Proof.Machine.execIcmpiN h n p a k s
  | .movi h d k => Sys2Proof.Machine.execMovi h d k s
  | .laddi h d a k => Sys2Proof.Machine.execLaddi h d a k s
  | .imuli h d a k => Sys2Proof.Machine.execImuli h d a k s
  | .ldb h q d a p off => Sys2Proof.Machine.execLdb h q d a p off s
  | .ldbs h q d a p off => Sys2Proof.Machine.execLdbs h q d a p off s
  | .ldh h q d a p off => Sys2Proof.Machine.execLdh h q d a p off s
  | .ldhs h q d a p off => Sys2Proof.Machine.execLdhs h q d a p off s
  | .ldw h q d a p off => Sys2Proof.Machine.execLdw h q d a p off s
  | .ldd h q d a p off => Sys2Proof.Machine.execLdd h q d a p off s
  | .ldq h q d a p off => Sys2Proof.Machine.execLdq h q d a p off s
  | .stb h q d a p off => Sys2Proof.Machine.execStb h q d a p off s
  | .sth h q d a p off => Sys2Proof.Machine.execSth h q d a p off s
  | .stw h q d a p off => Sys2Proof.Machine.execStw h q d a p off s
  | .std h q d a p off => Sys2Proof.Machine.execStd h q d a p off s
  | .stq h q d a p off => Sys2Proof.Machine.execStq h q d a p off s
  | .ldt h q d a p lit => Sys2Proof.Machine.execLdt h q d a p lit s
  | .stt h q d a p lit => Sys2Proof.Machine.execStt h q d a p lit s
  | .atom h q d a p off => Sys2Proof.Machine.execAtom h q d a p off s
  | .atomn h q d a p off => Sys2Proof.Machine.execAtomn h q d a p off s
  | .atomd h q d a p off => Sys2Proof.Machine.execAtomd h q d a p off s
  | .atomdn h q d a p off => Sys2Proof.Machine.execAtomdn h q d a p off s
  | .atomf h q d a p off => Sys2Proof.Machine.execAtomf h q d a p off s
  | .atomfn h q d a p off => Sys2Proof.Machine.execAtomfn h q d a p off s
  | .xchg h d a p off => Sys2Proof.Machine.execXchg h d a p off s
  | .cas h d a p off => Sys2Proof.Machine.execCas h d a p off s
  | .casd h d a p off => Sys2Proof.Machine.execCasd h d a p off s
  | .tagr h d a p off => Sys2Proof.Machine.execTagr h d a p off s
  | .tags h d a p off => Sys2Proof.Machine.execTags h d a p off s
  | .pref h a p off => Sys2Proof.Machine.execPref h a p off s
  | .bra h o => Sys2Proof.Machine.execBra h o s
  | .call h o => Sys2Proof.Machine.execCall h o s
  | .brx h a => Sys2Proof.Machine.execBrx h a s
  | .ret h => Sys2Proof.Machine.execRet h s
  | .loop h d k => Sys2Proof.Machine.execLoop h d k s
  | .endF h => Sys2Proof.Machine.execEndF h s
  | .endJ h a => Sys2Proof.Machine.execEndJ h a s
  | .fork h d a b => Sys2Proof.Machine.execFork h d a b s
  | .yield h => Sys2Proof.Machine.execYield h s
  | .nop h => Sys2Proof.Machine.execNop h s
  | .trap h k => Sys2Proof.Machine.execTrap h k s
  | .rett h => Sys2Proof.Machine.execRett h s
  | .rds h d x => Sys2Proof.Machine.execRds h d x s
  | .wrs h d x => Sys2Proof.Machine.execWrs h d x s
  | .movl h d lit => Sys2Proof.Machine.execMovl h d lit s
  | .shfl h d m k => Sys2Proof.Machine.execShfl h d m k s
  | .bcast h d l => Sys2Proof.Machine.execBcast h d l s
  | .vote h d a v => Sys2Proof.Machine.execVote h d a v s
  | .matchL h d a => Sys2Proof.Machine.execMatchL h d a s
  | .red h d a o => Sys2Proof.Machine.execRed h d a o s
  | .scan h d a o e => Sys2Proof.Machine.execScan h d a o e s
  | .sign h k => Sys2Proof.Machine.execSign h k s
  | .marm h d a b => Sys2Proof.Machine.execMarm h d a b s
  | .cpyq h a => Sys2Proof.Machine.execCpyq h a s
  | .bari h a b => Sys2Proof.Machine.execBari h a b s
  | .barv h d a => Sys2Proof.Machine.execBarv h d a s
  | .barw h d a b => Sys2Proof.Machine.execBarw h d a b s
  | .fence h e k scope => Sys2Proof.Machine.execFence h e k scope s
  | .layq h d a => Sys2Proof.Machine.execLayq h d a s
  | .layadv h d a b => Sys2Proof.Machine.execLayadv h d a b s
  | .laypin h d a b => Sys2Proof.Machine.execLaypin h d a b s
  | .layacq h a => Sys2Proof.Machine.execLayacq h a s
  | .layrel h a => Sys2Proof.Machine.execLayrel h a s
  | .tgpost h d a => Sys2Proof.Machine.execTgpost h d a s
  | .icinv h scope => Sys2Proof.Machine.execIcinv h scope s
  | .idivS h d a b => Sys2Proof.Machine.execIdivS h d a b s
  | .idivN h d a b => Sys2Proof.Machine.execIdivN h d a b s
  | .iremS h d a b => Sys2Proof.Machine.execIremS h d a b s
  | .iremN h d a b => Sys2Proof.Machine.execIremN h d a b s
  | .fdiv h d a b => Sys2Proof.Machine.execFdiv h d a b s
  | .fsqrt h d a => Sys2Proof.Machine.execFsqrt h d a s
  | .frcp h d a => Sys2Proof.Machine.execFrcp h d a s
  | .frsq h d a => Sys2Proof.Machine.execFrsq h d a s
  | .fexp2 h d a => Sys2Proof.Machine.execFexp2 h d a s
  | .flog2 h d a => Sys2Proof.Machine.execFlog2 h d a s
  | .fsinp h d a => Sys2Proof.Machine.execFsinp h d a s
  | .fcosp h d a => Sys2Proof.Machine.execFcosp h d a s
  | .ddiv h d a b => Sys2Proof.Machine.execDdiv h d a b s
  | .dsqrt h d a => Sys2Proof.Machine.execDsqrt h d a s
  | .cvt h d a x y => Sys2Proof.Machine.execCvt h d a x y s
  | .narrow h d a b => Sys2Proof.Machine.execNarrow h d a b s
  | .widen h d a b => Sys2Proof.Machine.execWiden h d a b s
  | .fclass h d a => Sys2Proof.Machine.execFclass h d a s
  | .lnkq h a => Sys2Proof.Machine.execLnkq h a s
  | .carve h k => Sys2Proof.Machine.execCarve h k s
  | .tlbinv h a b => Sys2Proof.Machine.execTlbinv h a b s
  | .rdfs h d a b => Sys2Proof.Machine.execRdfs h d a b s
  | .wrfs h d a b => Sys2Proof.Machine.execWrfs h d a b s
  | .saved h => Sys2Proof.Machine.execSaved h s
  | .instructionFetch b => Sys2Proof.Machine.execInstructionFetch b s
  | .variableResultReturn id => Sys2Proof.Machine.execVariableResultReturn id s
  | .switchMarkerResume b => Sys2Proof.Machine.execSwitchMarkerResume b s
  | .crewMismatch gang crew => Sys2Proof.Machine.execCrewMismatch gang crew s
  | .yieldExpiry b => Sys2Proof.Machine.execYieldExpiry b s
  | .carveApply core => Sys2Proof.Machine.execCarveApply core s
  | .bankAccess id => Sys2Proof.Machine.execBankAccess id s
  | .homeRequest id => Sys2Proof.Machine.execHomeRequest id s
  | .waitRepresent id => Sys2Proof.Machine.execWaitRepresent id s
  | .storeAcknowledgement id => Sys2Proof.Machine.execStoreAcknowledgement id s
  | .l1LeaseExpiry core line => Sys2Proof.Machine.execL1LeaseExpiry core line s
  | .releaseConditionMet id => Sys2Proof.Machine.execReleaseConditionMet id s
  | .feTimeout id => Sys2Proof.Machine.execFeTimeout id s
  | .dequeTake core => Sys2Proof.Machine.execDequeTake core s
  | .dequeSteal core => Sys2Proof.Machine.execDequeSteal core s
  | .preemptDecision part => Sys2Proof.Machine.execPreemptDecision part s
  | .preemptTrap gang => Sys2Proof.Machine.execPreemptTrap gang s
  | .restorePlacement gang => Sys2Proof.Machine.execRestorePlacement gang s
  | .traceSample core => Sys2Proof.Machine.execTraceSample core s
  | .trctlWrite core v => Sys2Proof.Machine.execTrctlWrite core v s
  | .trlostClear core => Sys2Proof.Machine.execTrlostClear core s
  | .histogramClear core k => Sys2Proof.Machine.execHistogramClear core k s
  | .eventSelectWrite core k v => Sys2Proof.Machine.execEventSelectWrite core k v s
  | .counterStatusClear core v => Sys2Proof.Machine.execCounterStatusClear core v s
  | .commandPost id => Sys2Proof.Machine.execCommandPost id s
  | .mma job => Sys2Proof.Machine.execMma job s
  | .drain job => Sys2Proof.Machine.execDrain job s
  | .prime job => Sys2Proof.Machine.execPrime job s
  | .streamFetchReturn job => Sys2Proof.Machine.execStreamFetchReturn job s
  | .entryRaise job => Sys2Proof.Machine.execEntryRaise job s
  | .copyJobStart job => Sys2Proof.Machine.execCopyJobStart job s
  | .jobComplete job => Sys2Proof.Machine.execJobComplete job s
  | .completionAction job => Sys2Proof.Machine.execCompletionAction job s
  | .faultAnswer part tag status tagArea => Sys2Proof.Machine.execFaultAnswer part tag status tagArea s
  | .sideLogReplay id => Sys2Proof.Machine.execSideLogReplay id s
  | .rangeEntryWrite part k base limit off ctl => Sys2Proof.Machine.execRangeEntryWrite part k base limit off ctl s
  | .migrationStart part old new size bitmap checkpoint => Sys2Proof.Machine.execMigrationStart part old new size bitmap checkpoint s
  | .migrationRound m => Sys2Proof.Machine.execMigrationRound m s
  | .migrationFreeze m => Sys2Proof.Machine.execMigrationFreeze m s
  | .migrationEndForwarding m => Sys2Proof.Machine.execMigrationEndForwarding m s
  | .mapcommit v => Sys2Proof.Machine.execMapcommit v s
  | .mapApply => Sys2Proof.Machine.execMapApply s
  | .pctlWrite part v => Sys2Proof.Machine.execPctlWrite part v s
  | .pfstatClear v => Sys2Proof.Machine.execPfstatClear v s
  | .registerWrite part vf off v => Sys2Proof.Machine.execRegisterWrite part vf off v s
  | .regionCreate part node => Sys2Proof.Machine.execRegionCreate part node s
  | .regionDestroy part node => Sys2Proof.Machine.execRegionDestroy part node s
  | .monitorNotice region => Sys2Proof.Machine.execMonitorNotice region s
  | .windowEnd region => Sys2Proof.Machine.execWindowEnd region s
  | .driftTile region => Sys2Proof.Machine.execDriftTile region s
  | .hostCxlRead addr size => Sys2Proof.Machine.execHostCxlRead addr size s
  | .hostCxlWrite addr data => Sys2Proof.Machine.execHostCxlWrite addr data s
  | .sqtail part q v => Sys2Proof.Machine.execSqtail part q v s
  | .cqhead part q v => Sys2Proof.Machine.execCqhead part q v s
  | .qsize part q v => Sys2Proof.Machine.execQsize part q v s
  | .nodePost part q => Sys2Proof.Machine.execNodePost part q s
  | .nodeLaunch part node => Sys2Proof.Machine.execNodeLaunch part node s
  | .nodeCopy part node => Sys2Proof.Machine.execNodeCopy part node s
  | .nodeSwapIn part node => Sys2Proof.Machine.execNodeSwapIn part node s
  | .nodeSwapEvict part node => Sys2Proof.Machine.execNodeSwapEvict part node s
  | .nodeLink part node => Sys2Proof.Machine.execNodeLink part node s
  | .nodeMarker part node => Sys2Proof.Machine.execNodeMarker part node s
  | .nodeReservedKind part node => Sys2Proof.Machine.execNodeReservedKind part node s
  | .nodeComplete part node => Sys2Proof.Machine.execNodeComplete part node s
  | .priorityAging part node => Sys2Proof.Machine.execPriorityAging part node s
  | .gangPlacement part => Sys2Proof.Machine.execGangPlacement part s
  | .detRound gang => Sys2Proof.Machine.execDetRound gang s
  | .carillonRelease part node => Sys2Proof.Machine.execCarillonRelease part node s
  | .modelRecordWrite part m k v => Sys2Proof.Machine.execModelRecordWrite part m k v s
  | .modelEnable part m => Sys2Proof.Machine.execModelEnable part m s
  | .modelDisable part m => Sys2Proof.Machine.execModelDisable part m s
  | .swapInFrames swap => Sys2Proof.Machine.execSwapInFrames swap s
  | .evictionFramesReturn part m layer => Sys2Proof.Machine.execEvictionFramesReturn part m layer s
  | .swapInComplete swap => Sys2Proof.Machine.execSwapInComplete swap s
  | .swapInFailure swap => Sys2Proof.Machine.execSwapInFailure swap s
  | .readSector ch tag => Sys2Proof.Machine.execReadSector ch tag s
  | .readLine ch tag => Sys2Proof.Machine.execReadLine ch tag s
  | .writeSector ch tag => Sys2Proof.Machine.execWriteSector ch tag s
  | .writeLine ch tag => Sys2Proof.Machine.execWriteLine ch tag s
  | .partialWrite ch tag => Sys2Proof.Machine.execPartialWrite ch tag s
  | .scrubRead ch sector => Sys2Proof.Machine.execScrubRead ch sector s
  | .portReservedKind ch hdr => Sys2Proof.Machine.execPortReservedKind ch hdr s
  | .readData ch tag => Sys2Proof.Machine.execReadData ch tag s
  | .writeDone ch tag => Sys2Proof.Machine.execWriteDone ch tag s
  | .spareRowCopy ch row => Sys2Proof.Machine.execSpareRowCopy ch row s
  | .spareChannelTakeover ch readable => Sys2Proof.Machine.execSpareChannelTakeover ch readable s
  | .laneReplace link lane => Sys2Proof.Machine.execLaneReplace link lane s
  | .clusterSpareTakeover k => Sys2Proof.Machine.execClusterSpareTakeover k s
  | .powerGood => Sys2Proof.Machine.execPowerGood s
  | .mplim v => Sys2Proof.Machine.execMplim v s
  | .mshare part v => Sys2Proof.Machine.execMshare part v s
  | .powerThrottle part watts => Sys2Proof.Machine.execPowerThrottle part watts s
  | .thermalTrip => Sys2Proof.Machine.execThermalTrip s
  | .thermalShutdown => Sys2Proof.Machine.execThermalShutdown s
  | .vfReset part => Sys2Proof.Machine.execVfReset part s
  | .pfReset => Sys2Proof.Machine.execPfReset s
  | .getMeasurements k => Sys2Proof.Machine.execGetMeasurements k s
  | .sessionOpen part link peer n base len => Sys2Proof.Machine.execSessionOpen part link peer n base len s
  | .rekey part n => Sys2Proof.Machine.execRekey part n s
  | .sessionClose part n => Sys2Proof.Machine.execSessionClose part n s
  | .sessionLoss part n => Sys2Proof.Machine.execSessionLoss part n s
  | .linkDownExpiry link => Sys2Proof.Machine.execLinkDownExpiry link s
  | .flitData link flit => Sys2Proof.Machine.execFlitData link flit s
  | .flitAcknowledgement link flit => Sys2Proof.Machine.execFlitAcknowledgement link flit s
  | .flitContribution link flit => Sys2Proof.Machine.execFlitContribution link flit s
  | .flitControl link flit => Sys2Proof.Machine.execFlitControl link flit s
  | .flitReservedKind link flit => Sys2Proof.Machine.execFlitReservedKind link flit s
  | .nak link seq => Sys2Proof.Machine.execNak link seq s
  | .linkRetrain link => Sys2Proof.Machine.execLinkRetrain link s
  | .linkPut job => Sys2Proof.Machine.execLinkPut job s
  | .linkGet job => Sys2Proof.Machine.execLinkGet job s
  | .linkReduce job => Sys2Proof.Machine.execLinkReduce job s
  | .putFlagFill put => Sys2Proof.Machine.execPutFlagFill put s
  | .reduceDeadline job => Sys2Proof.Machine.execReduceDeadline job s
  | .linkJobEnd job => Sys2Proof.Machine.execLinkJobEnd job s
  | .cxlCacheSnoop addr data => Sys2Proof.Machine.execCxlCacheSnoop addr data s
  | .linkRetrained link => Sys2Proof.Machine.execLinkRetrained link s
  | .temperatureFall => Sys2Proof.Machine.execTemperatureFall s
  | .hostLinkLoss => Sys2Proof.Machine.execHostLinkLoss s
  | .clusterLost k => Sys2Proof.Machine.execClusterLost k s

end Sys2Proof.Machine
end

