-- ==== Sys2Proof/Machine/Choose.lean ====
section
/-! DEFINITION. Sys2Proof/Machine/Choose.lean: what may happen next (R9, R17, R21, R78, R184, R229, R314). A step is one word
of the issue group in progress, or, while none is, one turn: an event of the part, the issue of a group, a tick of device
time, an element of a copy job, or an event from outside. Which turn comes is a free value: the manual orders turns only by the
conditions its events carry. -/

namespace Sys2Proof.Machine

/-- A turn of the part between issue groups. -/
inductive Turn where
  | ev (i : Instr)
  /-- Bands outside a deterministic rotation issue, or park at a meeting (R78, R85). -/
  | band (b : Nat)
  /-- A core of a deterministic gang takes its turn of the round (R314). -/
  | core (gang c : Nat)
  /-- A copy job moves an element, or writes a piece of a tile's header, padding or bits (R216, R219). -/
  | move (job : Nat)
  | tick
  /-- The oldest event from outside. -/
  | input
  deriving DecidableEq, Repr

/-- Events whose cause lies outside the part: host and hypervisor writes, links, the environment.
DESIGN CHOICE: log entry 7. -/
def external (i : Instr) : Bool :=
  match i with
  | .trctlWrite .. => true
  | .trlostClear .. => true
  | .histogramClear .. => true
  | .eventSelectWrite .. => true
  | .counterStatusClear .. => true
  | .faultAnswer .. => true
  | .rangeEntryWrite .. => true
  | .migrationStart .. => true
  | .migrationEndForwarding .. => true
  | .mapcommit .. => true
  | .pctlWrite .. => true
  | .pfstatClear .. => true
  | .registerWrite .. => true
  | .hostCxlRead .. => true
  | .hostCxlWrite .. => true
  | .sqtail .. => true
  | .cqhead .. => true
  | .qsize .. => true
  | .modelRecordWrite .. => true
  | .modelEnable .. => true
  | .modelDisable .. => true
  | .portReservedKind .. => true
  | .spareChannelTakeover .. => true
  | .laneReplace .. => true
  | .clusterSpareTakeover .. => true
  | .powerGood => true
  | .mplim .. => true
  | .mshare .. => true
  | .powerThrottle .. => true
  | .thermalTrip => true
  | .vfReset .. => true
  | .pfReset => true
  | .getMeasurements .. => true
  | .sessionOpen .. => true
  | .sessionClose .. => true
  | .sessionLoss .. => true
  | .flitData .. => true
  | .flitAcknowledgement .. => true
  | .flitContribution .. => true
  | .flitControl .. => true
  | .flitReservedKind .. => true
  | .nak .. => true
  | .cxlCacheSnoop .. => true
  | .linkRetrained .. => true
  | .temperatureFall => true
  | .hostLinkLoss => true
  | .clusterLost .. => true
  | _ => false

namespace State

/-- Turns of the bands, results and accesses. -/
def bandTurns (s : State) : List Turn :=
  (s.bands.map (fun b => [Turn.band b.bid, .ev (.instructionFetch b.bid), .ev (.switchMarkerResume b.bid), .ev (.yieldExpiry b.bid)])).flatten
  ++ s.results.map (fun r => .ev (.variableResultReturn r.id))
  ++ (s.accesses.map (fun a => [Turn.ev (.homeRequest a.id), .ev (.bankAccess a.id), .ev (.waitRepresent a.id)
    , .ev (.storeAcknowledgement a.id), .ev (.releaseConditionMet a.id), .ev (.feTimeout a.id), .ev (.variableResultReturn a.id)
    , .ev (.commandPost a.id)])).flatten
  ++ s.sideLog.map (fun e => .ev (.sideLogReplay e.acc.id))
  ++ s.l1.map (fun l => .ev (.l1LeaseExpiry l.core l.line))
  ++ ((List.range Config.cores).map (fun c => [Turn.ev (.carveApply c), .ev (.dequeTake c), .ev (.dequeSteal c)
    , .ev (.traceSample c)])).flatten
  ++ (s.cores.map (fun c => (c.trq.map (fun r => [Turn.ev (.homeRequest r.id), .ev (.storeAcknowledgement r.id)])).flatten)).flatten

/-- Turns of gangs, engines, nodes, regions and models. -/
def frontTurns (s : State) : List Turn :=
  (s.gangs.map (fun g => [Turn.ev (.preemptTrap g.id), .ev (.restorePlacement g.id), .ev (.detRound g.id)]
    ++ (List.range g.size).map (fun w => Turn.core g.id (g.core w))
    ++ (List.range (g.size * ((g.slots + Config.width - 1) / Config.width))).map (fun c => Turn.ev (.crewMismatch g.id c)))).flatten
  ++ (s.jobs.map (fun j => [Turn.move j.id, .ev (.commandPost j.id), .ev (.mma j.id), .ev (.drain j.id), .ev (.prime j.id)
    , .ev (.streamFetchReturn j.id), .ev (.entryRaise j.id), .ev (.copyJobStart j.id), .ev (.jobComplete j.id)
    , .ev (.completionAction j.id)])).flatten
  ++ (s.regions.map (fun r => [Turn.ev (.monitorNotice r.id), .ev (.windowEnd r.id), .ev (.driftTile r.id)])).flatten
  ++ (s.parts.mapIdx (fun p pt =>
    [Turn.ev (.preemptDecision p), .ev (.gangPlacement p)] ++ (List.range 9).map (fun q => Turn.ev (.nodePost p q))
    ++ (pt.nodes.map (fun n => [Turn.ev (.nodeLaunch p n.n), .ev (.nodeCopy p n.n), .ev (.nodeSwapIn p n.n), .ev (.nodeSwapEvict p n.n)
      , .ev (.nodeLink p n.n), .ev (.nodeMarker p n.n), .ev (.nodeReservedKind p n.n), .ev (.nodeComplete p n.n)
      , .ev (.priorityAging p n.n), .ev (.carillonRelease p n.n), .ev (.regionCreate p n.n), .ev (.regionDestroy p n.n)])).flatten
    ++ (pt.swaps.map (fun w => [Turn.ev (.swapInFrames w.id), .ev (.swapInComplete w.id), .ev (.swapInFailure w.id)])).flatten
    ++ pt.layers.map (fun l => Turn.ev (.evictionFramesReturn p l.model l.layer))
    ++ pt.sessions.map (fun x => Turn.ev (.rekey p x.n)))).flatten

/-- Turns of the memory, the links, migrations and the module. -/
def moduleTurns (s : State) : List Turn :=
  (s.ports.map (fun p => [Turn.ev (.readSector p.ch p.tag), .ev (.readLine p.ch p.tag), .ev (.writeSector p.ch p.tag)
    , .ev (.writeLine p.ch p.tag), .ev (.partialWrite p.ch p.tag), .ev (.readData p.ch p.tag), .ev (.writeDone p.ch p.tag)])).flatten
  ++ s.rowFixes.map (fun x => .ev (.spareRowCopy (x.1 / 2 ^ 32) (x.1 % 2 ^ 32)))
  ++ (s.migrations.map (fun m => [Turn.ev (.migrationRound m.id), .ev (.migrationFreeze m.id)])).flatten
  ++ (s.links.mapIdx (fun i _ => [Turn.ev (.linkRetrain i), .ev (.linkDownExpiry i)])).flatten
  ++ (s.linkJobs.map (fun j => [Turn.ev (.linkPut j.id), .ev (.linkGet j.id), .ev (.linkReduce j.id), .ev (.reduceDeadline j.id)
    , .ev (.linkJobEnd j.id)])).flatten
  ++ s.remotePuts.map (fun p => .ev (.putFlagFill p.id))
  ++ (List.range Config.clusters).filterMap (fun k =>
    if 4 ≤ (s.cluster k).sramEvents.length then some (.ev (.clusterSpareTakeover k)) else none)
  ++ [.ev .mapApply, .ev .thermalShutdown]

/-- A scrub read of a free channel and sector (R349); which one is a free value. -/
def scrubTurn (s : State) : Turn × State :=
  let r := s.pick 256
  let q := r.2.pick 50331648
  (.ev (.scrubRead r.1 q.1), q.2)

/-- The turns to choose from: nothing but time and the outside while power is off; bring-up first. -/
def turns (s : State) : List Turn :=
  if !s.pf.powered then [.input, .tick]
  else if s.pf.step == 1 && !s.pf.ready && !s.pf.fail then [.ev .powerGood, .input]
  else [.input, .tick] ++ s.bandTurns ++ s.frontTurns ++ s.moduleTurns

/-- The state an event leads to; itself where the event does not take place. -/
def attempt (s : State) (i : Instr) : State :=
  match exec i s with
  | .next t => t
  | .fault _ => s
  | .refused _ => s

/-- One turn. -/
def take (s : State) : Turn → State
  | .ev i => s.attempt i
  | .band b => ((s.band b).bind s.tryIssue).getD s
  | .core g c => (s.coreTurn g c).getD s
  | .move j => match s.job j with
    | some x => if s.canMove x then (match s.moveNext x with
        -- a move that wants a tag of a port comes later (R343)
        | some t => if t.portWait then s else t
        | none => s) else s
    | none => s
  | .tick => s.tick
  | .input => match s.inputs with
    | [] => s
    | i :: rest =>
      let s1 := { s with inputs := rest }
      if !external i then s1
      else match exec i s1 with
        | .refused (.portBusy _) => s
        | _ => s1.attempt i

/-- A free turn of the part. DESIGN CHOICE: log entry 4. -/
def anyTurn (s : State) : State :=
  let sc := s.scrubTurn
  let ts := sc.1 :: s.turns
  let r := sc.2.pick ts.length
  r.2.take (if s.pf.ready || r.1 != 0 then ts.getD r.1 .tick else .tick)

/-! ### The word in progress -/

/-- The instruction at the current slot of the group in progress (R20). -/
def wordNow (s : State) : Except Illegal Instr := decodeAt (s.issue.words.drop s.issue.slot)

/-- Before the first word the group as a whole is checked (R97). -/
def ready1 (s : State) : State := if s.issue.slot == s.issue.first then s.screen else s

/-- A word that does not decode: the lanes that the check of the group left take the illegal-instruction trap (R33). -/
def badWord (s : State) (e : Illegal) : State :=
  let t : Trap := { cls := 1, cause := e.cause, pc := s.wordPc, addr := 0, flags := 0 }
  let s1 := s.trapAtIssue (s.issue.lanes.map (fun k => (k, t)))
  { s1 with issue := .idle }

end State

end Sys2Proof.Machine
end

