-- ==== Sys2Proof/Machine/Step.lean ====
section
/-! DEFINITION. Sys2Proof/Machine/Step.lean: one step of the part: the word at the slot of the issue group in progress, or a
turn of the part when no group is in progress (R9, R20 to R22); and the placing of a packet where the next step runs it. -/

namespace Sys2Proof.Machine

/-- One step. A word of a group runs in the lanes that the check of the group left (R97); between groups any turn may come.
DESIGN CHOICE: log entry 4. -/
def step (s : State) : Host.Outcome State Fault Refusal :=
  if s.issue.lanes.isEmpty then .next s.anyTurn
  else match s.wordNow with
    | .ok i => exec i s.ready1
    | .error e => .next (s.ready1.badWord e)

namespace State

/-- The packet that holds an instruction of at most two words in slots 0 and 1. -/
def packetOf (w : Nat) : List Word := [BitVec.ofNat 32 w, BitVec.ofNat 32 (w / 2 ^ 32), 0]

/-- The context, gang, launch and fibre of a packet placed from outside: one live fibre at packet 0 of code base 0, with 64
registers, as R68 creates it. -/
def guestContext (s : State) : Context :=
  { id := s.nextId, part := 0, ctxid := 0, gen := 0, asid := 0, asidGen := 0, root := 0, fqBase := 0, fqSize := 4, fqTail := 0
    fatal := [], live := true, nextRequest := 0, requests := [], checks := [] }
def guestGang (s : State) : Gang :=
  { id := s.nextId, part := 0, ctx := s.nextId, launch := s.nextId, index := 0, gangs := 1, prio := 0, det := false
    forkable := false, size := 1, regs := 64, scratch := 0, accum := 0, signCount := 0, slots := 64, liveCount := 1, codeBase := 0
    packets := 1, handler := 0, safePoints := [], groups := [], args := [], phase := .resident, cluster := 0, base := 0
    scratchBase := [0], placedAt := s.time, waitSince := s.time, saveBlock := none, banks := [], bankBusy := [], signs := []
    savedLive := [], staged := [], stagedPosts := [], released := false, round := 0, turns := [] }
def guestLaunch (s : State) : Launch :=
  { id := s.nextId, part := 0, node := 0, ctx := s.nextId, gangCount := 1, det := false, holds := [], detx := false, deta := false
    deto := false, error := 0, track := [], atoms := [], next := 1, proto := s.guestGang, entry := 0, ctime := 0 }
def guestFibre (s : State) : Fibre :=
  { gang := s.nextId, idx := 0, wg := 0, live := true, used := true, regs := List.replicate 64 0, preds := 0
    ctl := .created 0 0 0 s.nextId }

/-- The state with an instruction where the next step runs it: in the packet of the group in progress, or, where none is, in a
packet that a fibre placed for it has just fetched (notes/assumptions/1.md). DESIGN CHOICE: log entry 1. -/
def withFetchWord (s : State) (_nbits w : Nat) : State :=
  let ws := packetOf w
  match s.issue.lanes with
  | _ :: _ => { s with issue := { s.issue with words := ws, slot := 0, first := 0 } }
  | [] =>
    let k := s.fibres.length
    let f := s.guestFibre
    let is : Issue :=
      { gang := s.nextId, core := 0, crew := 0, lanes := [k], pkt := 0, words := ws, slot := 0, first := 0, src := [(k, f)]
        reqs := [], marker := false, meeting := false }
    let b : Band := { bid := s.nextId, gang := s.nextId, crew := 0, members := [k], park := .none }
    { s with
      nextId := s.nextId + 1, issue := is, fibres := s.fibres ++ [f], bands := s.bands ++ [b]
      contexts := s.contexts ++ [s.guestContext], gangs := s.gangs ++ [s.guestGang], launches := s.launches ++ [s.guestLaunch] }

end State

end Sys2Proof.Machine
end

