-- ==== Sys2Proof/Safety.lean ====
section
/-! DEFINITION. Sys2Proof/Safety.lean: the terms the statements are written in: the invariant of a step, when a word traps
nowhere at issue, and what a word leaves behind before the end of its issue group (R15, R21 to R26, R97). -/

namespace Sys2Proof.Machine

namespace State

/-- What every step keeps: bytes and full/empty bits stand in their one canonical form. -/
def Inv (s : State) : Prop := s.mem.wf = true

/-- No lane of the group in progress traps at this word (R97, R380). -/
def clear (s : State) (i : Instr) : Prop := ∀ k ∈ s.issue.lanes, s.issueTrap i k s.wordPc = none

/-- What a memory address on its own raises in no fibre `f`: legal for the gang, and a multiple of the size (R135, R147, R148). -/
def addressOk (s : State) (f : Fibre) : Touch → Prop
  | .none => True
  | .bytes a n => (∃ x, s.scratchOf f a = .ok x) ∧ a.toNat % n = 0
  | .barrier a => (∃ x, s.scratchOf f a = .ok (some x)) ∧ a.toNat % 8 = 0

/-- The conditions under which lane k raises no trap at a word: it is well-formed and legal for the fibre, names registers of
the window only, and, where its guard is on, reads no lost register and touches a good address (R33, R65, R70, R97, R347). -/
def Admits (s : State) (i : Instr) (h : Head) (k : Nat) : Prop :=
  let f := s.srcOf k
  i.wf = true ∧ s.lateCause i f (f.guard h.g) = none ∧ (∀ r ∈ i.regsNamed, r < f.regs.length) ∧
    (f.guard h.g = true → (∀ r ∈ i.sources, SramWord.reg k r ∉ s.sram) ∧ s.addressOk f (touchOf i f))

/-- The group in progress is one live fibre k of gang g, at the last word of the group, with nothing asked for, nothing due and
nothing under way. -/
def Lone (s : State) (h : Head) (k : Nat) (g : Gang) : Prop :=
  s.issue.lanes = [k] ∧ s.on h = [k] ∧ h.c = false ∧ s.issue.reqs = [] ∧ s.gang s.issue.gang = some g ∧
    (s.fibre k).gang = s.issue.gang ∧ k < s.fibres.length ∧ (s.fibre k).ctl.after = .next ∧ (s.fibre k).ctl.due = [] ∧ (s.fibre k).ctl.pendTrap = false ∧
    (s.fibre k).ctl.v = (s.srcOf k).ctl.v ∧ s.outstanding k = false ∧ (s.srcOf k).gang = s.issue.gang

/-- No access stands in a wait list. -/
def calm (s : State) : Prop := ∀ a ∈ s.accesses, ∀ st parked, a.phase ≠ .waiting st parked

/-- The channel ports let an event go: it wants no tag of a channel whose 512 are in use, and no sector to which a request is still to
be performed. Where they do not, the event waits (R343). -/
def portsServe (s : State) (i : Instr) : Prop := ∀ n, exec i s ≠ .refused (.portBusy n)

/-- Node n of partition p is ready, its partition is served and its context lives (R301). -/
def nodeReady (s : State) (p n : Nat) (d : Node) : Prop :=
  s.serving p = true ∧ s.node p n = some d ∧ d.phase = .ready ∧ s.liveContext d.ctx = true

end State

/-- What a word of fixed latency leaves: fibres `ks` hold `v k r` in each register r and `p k n` in each predicate n for which
that is given, the group asks for `rs` beside what it asked for, and nothing else differs. -/
structure Wrote (s t : State) (ks : List Nat) (v : Nat → Nat → Option Word) (p : Nat → Nat → Option Bool)
    (rs : List (Nat × Req)) : Prop where
  rest : t = { s with fibres := t.fibres, issue := { s.issue with reqs := s.issue.reqs ++ rs } }
  count : t.fibres.length = s.fibres.length
  control : ∀ k, t.fibre k = { s.fibre k with regs := (t.fibre k).regs, preds := (t.fibre k).preds }
  window : ∀ k, (t.fibre k).regs.length = (s.fibre k).regs.length
  reg : ∀ k r, k < s.fibres.length → r < (s.fibre k).regs.length →
    (t.fibre k).regN r = if k ∈ ks then (v k r).getD ((s.fibre k).regN r) else (s.fibre k).regN r
  pred : ∀ k n, k < s.fibres.length → n < 12 →
    (t.fibre k).pred n = if k ∈ ks then (p k n).getD ((s.fibre k).pred n) else (s.fibre k).pred n

/-- What a word of variable latency leaves: one result under way for each fibre of `ks`, in that order, with the writes,
predicate pairs and flags `r` gives; the group asks for `rs` beside what it asked for, and nothing else differs. -/
def Sent (s t : State) (ks : List Nat) (xu : Bool) (r : Nat → List (Nat × Word) × List (Nat × Bool × Bool) × Flags)
    (rs : List (Nat × Req)) : Prop :=
  t = { s with
    nextId := s.nextId + ks.length
    issue := { s.issue with reqs := s.issue.reqs ++ rs }
    results := s.results ++ (List.range ks.length).map (fun j =>
      let k := ks.getD j 0
      { id := s.nextId + j, fibre := k, pc := s.wordPc, xu := xu, mem := false, writes := (r k).1, preds := (r k).2.1
        flags := (r k).2.2, trap := none, batch := s.nextId, lanes := ks }) }

/-- What a word that posts leaves: one access under way for each fibre of `ks`, in that order and in one batch, as `g` gives
it from the fibre before the group; the group asks for `rs` beside what it asked for, and nothing else differs. -/
def Posted (s t : State) (i : Instr) (ks : List Nat) (g : Fibre → Post) (rs : List (Nat × Req)) : Prop :=
  t = { s with
    nextId := s.nextId + ks.length
    issue := { s.issue with reqs := s.issue.reqs ++ rs }
    accesses := s.accesses ++ (List.range ks.length).map (fun j =>
      let k := ks.getD j 0
      let f := s.srcOf k
      { id := s.nextId + j, batch := s.nextId, fibre := k, gang := f.gang, core := s.issue.core, pc := s.wordPc
        word := (encode i).headD 0, dst := (g f).dst, addr := (g f).addr, op := (g f).op, policy := (g f).policy
        budget := f.ctl.budget.toNat, arrived := none, phase := .issued, released := false, sys := f.ctl.v }) }

/-- Nothing differs but what the reads of an event at their homes leave there: the lines the slices hold, what the channel ports and
the bookkeeping of errors and frames then say, whose turn at a slice it was, and the translations kept (R228, R229, R236, R343, R345,
R349). -/
def UpToHomes (s t : State) : Prop :=
  t = { s with
    l2 := t.l2, ports := t.ports, portWait := t.portWait, badSectors := t.badSectors, rowFixes := t.rowFixes, sram := t.sram
    frameCtx := t.frameCtx, sliceLast := t.sliceLast, tlb := t.tlb, walks := t.walks, tlbPick := t.tlbPick, fresh := t.fresh
    pf := { s.pf with eccHbm := t.pf.eccHbm, eccLost := t.pf.eccLost } }

/-- Nothing differs but what core c holds. -/
def OnlyCore (s t : State) (c : Nat) : Prop :=
  t = { s with cores := t.cores } ∧ t.cores.length = s.cores.length ∧ ∀ j, j ≠ c → t.core j = s.core j

/-- Nothing differs but the block of partition p. -/
def OnlyPart (s t : State) (p : Nat) : Prop :=
  t = { s with parts := t.parts } ∧ t.parts.length = s.parts.length ∧ ∀ j, j ≠ p → t.part j = s.part j

/-- Nothing differs but the registers of the physical function. -/
def OnlyPf (s t : State) : Prop := t = { s with pf := t.pf }

/-- A register write was refused: PFSTAT holds bit 63, the reason in bits [31:24] and the offset, and nothing else differs (R359). -/
def Refused (s t : State) (off reason : Nat) : Prop :=
  t = { s with pf := { s.pf with pfstat := BitVec.ofNat 64 (2 ^ 63 + reason * 2 ^ 24 + off) } }

/-- What a condition code 0 eq, 1 ne, 2 lt, 3 le, 4 gt, 5 ge says of two numbers (R28). -/
def orderHolds (n : BitVec 3) (x y : Int) : Bool :=
  match n.toNat with
  | 0 => decide (x = y)
  | 1 => decide (x ≠ y)
  | 2 => decide (x < y)
  | 3 => decide (x ≤ y)
  | 4 => decide (y < x)
  | _ => decide (y ≤ x)

/-! ### Shapes of words: each says that the word completes and what it leaves before the end of its group -/

/-- Register d takes `v` of the fibre as it stood before the group. -/
def RegWord (i : Instr) (h : Head) (d : BitVec 6) (v : Fibre → Word) : Prop :=
  ∀ s : State, s.clear i → ∃ t, exec i s = .next (t.endWord h (slotsOf i)) ∧
    Wrote s t (s.on h) (fun k r => if r = d.toNat then some (v (s.srcOf k)) else none) (fun _ _ => none) []

/-- Pair d takes `v`, the low half in the even register. -/
def PairWord (i : Instr) (h : Head) (d : BitVec 6) (v : Fibre → DWord) : Prop :=
  ∀ s : State, s.clear i → ∃ t, exec i s = .next (t.endWord h (slotsOf i)) ∧
    Wrote s t (s.on h) (fun k r =>
      if r = 2 * d.toNat then some (BitVec.ofNat 32 (v (s.srcOf k)).toNat)
      else if r = 2 * d.toNat + 1 then some (BitVec.ofNat 32 ((v (s.srcOf k)).toNat / 2 ^ 32)) else none) (fun _ _ => none) []

/-- Predicate 2p takes `v` and predicate 2p + 1 its negation. -/
def PredWord (i : Instr) (h : Head) (p : BitVec 3) (v : Fibre → Bool) : Prop :=
  ∀ s : State, s.clear i → ∃ t, exec i s = .next (t.endWord h (slotsOf i)) ∧
    Wrote s t (s.on h) (fun _ _ => none) (fun k n =>
      if n = 2 * p.toNat then some (v (s.srcOf k)) else if n = 2 * p.toNat + 1 then some (!v (s.srcOf k)) else none) []

/-- Register d takes the value and the group asks for the flags of a floating-point result. -/
def FloatWord (i : Instr) (h : Head) (d : BitVec 6) (v : Fibre → Nat × Flags) : Prop :=
  ∀ s : State, s.clear i → ∃ t, exec i s = .next (t.endWord h (slotsOf i)) ∧
    Wrote s t (s.on h) (fun k r => if r = d.toNat then some (BitVec.ofNat 32 (v (s.srcOf k)).1) else none) (fun _ _ => none)
      ((s.on h).map (fun k => (k, .flags s.wordPc (v (s.srcOf k)).2)))

/-- A result is under way that writes what `r` says. -/
def SendWord (i : Instr) (h : Head) (xu : Bool) (r : Fibre → List (Nat × Word) × List (Nat × Bool × Bool) × Flags) : Prop :=
  ∀ s : State, s.clear i → ∃ t, exec i s = .next (t.endWord h (slotsOf i)) ∧ Sent s t (s.on h) xu (fun k => r (s.srcOf k)) []

/-- An access is under way in each lane whose guard is on. -/
def PostWord (i : Instr) (h : Head) (g : Fibre → Post) : Prop :=
  ∀ s : State, s.clear i → ∃ t, exec i s = .next (t.endWord h (slotsOf i)) ∧ Posted s t i (s.on h) g []

/-- The group asks for `r` in each lane whose guard is on. -/
def AskWord (i : Instr) (h : Head) (r : State → Nat → Req) : Prop :=
  ∀ s : State, s.clear i → exec i s =
    .next (({ s with issue := { s.issue with reqs := s.issue.reqs ++ (s.on h).map (fun k => (k, r s k)) } } : State).endWord h (slotsOf i))

end Sys2Proof.Machine
end

