-- ==== Sys2Proof/Certificates/Slice0/Obligations.lean ====
section
/-! DEFINITION. Sys2Proof/Certificates/Slice0/Obligations.lean: what the model is claimed to do, one definition a claim; each
docstring names the rules of spec/ it formalises. -/

open Sys2Proof Sys2Proof.Machine

/-! ### Words, decoding and the step -/

/-- Words written out in the manual decode to the instructions they stand for (R12, R18, R27 to R31): one or more of every format
and family. -/
def Obligations.ManualWordsDecode : Prop :=
  let hd : Head := ⟨false, false, 12⟩
  let one : Nat → Except Illegal Instr := fun w => decodeAt [BitVec.ofNat 32 w]
  one 0x33000003 = .ok (.bra hd 3) ∧ one 0x33040005 = .ok (.call hd 5) ∧ one 0x33107FFD = .ok (.loop hd 7 0xFFD) ∧
  one 0x33080140 = .ok (.brx hd 5) ∧ one 0x330C0000 = .ok (.ret hd) ∧ one 0x33140000 = .ok (.endF hd) ∧
  one 0x33140181 = .ok (.endJ hd 6) ∧ one 0x32280C40 = .ok (.ldd hd 0 3 2 0 none) ∧
  one 0x33385401 = .ok (.shfl hd 5 1 1) ∧ one 0x331827C5 = .ok (.fork hd 2 31 5) ∧ one 0x33643084 = .ok (.barw hd 3 2 4) ∧
  one 0x33542106 = .ok (.marm hd 2 4 6) ∧ one 0x33500002 = .ok (.sign hd 2) ∧ one 0x33580100 = .ok (.cpyq hd 4) ∧
  one 0x336C3080 = .ok (.layq hd 3 2) ∧ one 0x33803100 = .ok (.tgpost hd 3 4) ∧ one 0x33D00100 = .ok (.lnkq hd 4) ∧
  one 0x33D80084 = .ok (.tlbinv hd 2 4) ∧ one 0x33DC3042 = .ok (.rdfs hd 3 1 2) ∧ one 0x33E40000 = .ok (.saved hd) ∧
  one 0x33240005 = .ok (.trap hd 5) ∧ one 0x33840003 = .ok (.icinv hd 3) ∧ one 0x32A00C40 = .ok (.xchg hd 3 2 0 none) ∧
  one 0x3368000B = .ok (.fence hd 0 1 3) ∧ one 0x33883042 = .ok (.idivS hd 3 1 2) ∧ one 0x30AC324A = .ok (.fadd hd 3 9 10) ∧
  one 0x70B4A2CC = .ok (.fmul ⟨false, true, 12⟩ 10 11 12) ∧
  decodeAt [0xB2202454, 0x40] = .ok (.ldw ⟨true, false, 12⟩ 0 9 2 2 (some 0x40)) ∧ one 0x33200000 = .ok (.nop hd)

/-- Every well-formed issue word, with every operand at every value its encoding admits, decodes from its own encoding, whatever
words follow it (R12 to R31). -/
def Obligations.DecodeOfEncode : Prop := ∀ i : Instr, i.isWord = true → i.wf = true → ∀ more : List Word, decodeAt (encode i ++ more) = .ok i

/-- What decodes is well-formed, and encodes to exactly the word it was read from and the literal it owns: no bit of a word is
ignored (R12, R18 to R20). Guard codes 13 to 15 are illegal: a word that carries one decodes to no instruction, for the guard
unless its opcode is reserved (R12, R380). -/
def Obligations.DecodingLosesNoBit : Prop :=
  (∀ (w : Word) (rest : List Word) (i : Instr), decodeAt (w :: rest) = .ok i →
    i.isWord = true ∧ i.wf = true ∧ encode i = w :: rest.take (if ownsLiteral w then 1 else 0)) ∧
  (∀ (w : Word) (rest : List Word), 12 < w.toNat / 2 ^ 26 % 16 →
    decodeAt (w :: rest) = .error .reservedOpcode ∨ decodeAt (w :: rest) = .error .reservedGuard)

/-- A step of a group in progress runs the instruction its current slot decodes to: in the state itself, or at the group's first
word in the state the check of the whole group leaves (R9, R20, R97), which, where nothing traps, differs from it by one group issued
in the counters (R186); and a packet placed by withFetchWord is what the next step runs. -/
def Obligations.StepRunsDecodedWord : Prop :=
  (∀ (s : State) (i : Instr), s.issue.lanes ≠ [] → decodeAt (s.issue.words.drop s.issue.slot) = .ok i →
    step s = exec i (if s.issue.slot = s.issue.first then s.screen else s)) ∧
  (∀ (s : State) (nbits w : Nat) (i : Instr), decodeTableWord nbits w = some i →
    step (s.withFetchWord nbits w) = exec i (s.withFetchWord nbits w).screen) ∧
  (∀ s : State, s.breakTrap = none → s.groupBad = [] → s.screen = s.count s.issue.core 0x11 1)

/-- No state stops the part: every step has a next state. A step at which no event is enabled leaves the state as it is, which is
the model's choice (log entries 4 and 75). -/
def Obligations.StepNeverStops : Prop := ∀ s : State, ∃ t, step s = .next t

/-- Every step, a word or any turn of the part, keeps memory and full/empty bits in their one canonical form. -/
def Obligations.StepKeepsInvariant : Prop := ∀ s t : State, s.Inv → step s = .next t → t.Inv

/-- What reset leaves where the manual gives a value: device time 0 (R9), bring-up at step 1 and not READY (R353), every core with
scratch size 4 (R133), every partition with a lease of 4,096 ticks (R359), and a module power limit of 1,800 W (R356). Reset
leaves memory in its canonical form, with no byte listed and every word full, which is the model's choice (log entry 5). -/
def Obligations.ResetValues : Prop :=
  (State.reset.time = 0 ∧ State.reset.pf.step = 1 ∧ State.reset.pf.ready = false ∧ State.reset.pf.mplim = 1800 ∧
    State.reset.cores.length = 192 ∧ (∀ c < 192, (State.reset.core c).carve = 4) ∧
    State.reset.parts.length = 16 ∧ (∀ p < 16, (State.reset.part p).lease = 4096) ∧ State.reset.issue.lanes = []) ∧
  (State.reset.Inv ∧ (∀ a, State.reset.mem.byte a = 0) ∧ (∀ w, State.reset.mem.full w = true))

/-- Every issue word leaves memory as it was, every byte and every full/empty bit: loads, stores, atomics and postings act later,
at their bank or home (R139, R151). Only where a trap in the system handler ends the word's context do waiting LAYACQs take their
hold counts back (R171, R332); even then no full/empty bit changes. -/
def Obligations.WordsLeaveMemory : Prop := ∀ (i : Instr) (s t : State), i.isWord = true → exec i s = .next t →
  (∀ w, t.mem.full w = s.mem.full w) ∧
  ((∀ a ∈ s.accesses, a.op = .layacq → a.phase ≠ .refused ∧ ∀ st p, a.phase ≠ .waiting st p) →
    t.mem = s.mem ∧ ∀ a, t.mem.byte a = s.mem.byte a)

/-- The frame of the general registers and predicates: at its issue a word changes no register outside its destinations and no
fibre in which its guard is off, and no predicate unless it is a compare or WRS to %PRED. RETT, which restores g0 to g7 and %PRED, and WRFS,
which writes a saved fibre, are not meant; no fibre of the group is on its way through RETT. -/
def Obligations.WordsLeaveOtherRegisters : Prop := ∀ (i : Instr) (h : Head) (s t : State), i.head? = some h → exec i s = .next t →
  (∀ h', i ≠ .rett h') → (∀ h' d a b, i ≠ .wrfs h' d a b) →
  (∀ k ∈ s.issue.lanes, (s.fibre k).ctl.after = .next) → (∀ r ∈ s.issue.reqs, ∀ pc to', r.2 ≠ .rett pc to') →
  ∀ k, (t.fibre k).regs.length = (s.fibre k).regs.length ∧
    (∀ r, k ∉ s.on h ∨ r ∉ i.dests → (t.fibre k).regN r = (s.fibre k).regN r) ∧
    ((∀ h' d, i ≠ .wrs h' d 29) → k ∉ s.on h ∨ i.predDests = [] → (t.fibre k).preds = (s.fibre k).preds)

/-! ### Integer words -/

/-- IADD, ISUB, IMUL, IMULH, IMAC, IMIN, IMAX complete with the arithmetic of R105, and the words R105 prints decode to them. -/
def Obligations.IntegerArithmeticCompletes : Prop := ∀ (h : Head) (d a b : BitVec 6),
  RegWord (.iadd h d a b) h d (fun f => BitVec.ofNat 32 ((f.reg a).toNat + (f.reg b).toNat)) ∧
  RegWord (.isub h d a b) h d (fun f => BitVec.ofInt 32 ((f.reg a).toNat - (f.reg b).toNat : Int)) ∧
  RegWord (.imul h d a b) h d (fun f => BitVec.ofNat 32 ((f.reg a).toNat * (f.reg b).toNat)) ∧
  RegWord (.imulhS h d a b) h d (fun f => BitVec.ofInt 32 ((f.reg a).toInt * (f.reg b).toInt / 2 ^ 32)) ∧
  RegWord (.imulhN h d a b) h d (fun f => BitVec.ofNat 32 ((f.reg a).toNat * (f.reg b).toNat / 2 ^ 32)) ∧
  RegWord (.imac h d a b) h d (fun f => BitVec.ofNat 32 ((f.reg d).toNat + (f.reg a).toNat * (f.reg b).toNat)) ∧
  RegWord (.iminS h d a b) h d (fun f => BitVec.ofInt 32 (min (f.reg a).toInt (f.reg b).toInt)) ∧
  RegWord (.iminN h d a b) h d (fun f => BitVec.ofNat 32 (min (f.reg a).toNat (f.reg b).toNat)) ∧
  RegWord (.imaxS h d a b) h d (fun f => BitVec.ofInt 32 (max (f.reg a).toInt (f.reg b).toInt)) ∧
  RegWord (.imaxN h d a b) h d (fun f => BitVec.ofNat 32 (max (f.reg a).toNat (f.reg b).toNat)) ∧
  ∀ x ∈ [((0x30003042 : Word), Instr.iadd ⟨false, false, 12⟩ 3 1 2), (0x30043042, .isub ⟨false, false, 12⟩ 3 1 2),
      (0x30083042, .imul ⟨false, false, 12⟩ 3 1 2), (0x300C3042, .imulhS ⟨false, false, 12⟩ 3 1 2),
      (0x30103042, .imulhN ⟨false, false, 12⟩ 3 1 2), (0x30143042, .imac ⟨false, false, 12⟩ 3 1 2),
      (0x30183042, .iminS ⟨false, false, 12⟩ 3 1 2), (0x301C3042, .iminN ⟨false, false, 12⟩ 3 1 2),
      (0x30203042, .imaxS ⟨false, false, 12⟩ 3 1 2), (0x30243042, .imaxN ⟨false, false, 12⟩ 3 1 2)],
    decodeAt [x.1] = .ok x.2

/-- AND, OR, XOR, ANDN and the shifts complete; a shift count is the low five bits of the second register; the words R106 prints
decode to them (R106). -/
def Obligations.LogicAndShiftsComplete : Prop := ∀ (h : Head) (d a b : BitVec 6),
  RegWord (.and h d a b) h d (fun f => BitVec.ofNat 32 ((f.reg a).toNat &&& (f.reg b).toNat)) ∧
  RegWord (.or h d a b) h d (fun f => BitVec.ofNat 32 ((f.reg a).toNat ||| (f.reg b).toNat)) ∧
  RegWord (.xor h d a b) h d (fun f => BitVec.ofNat 32 ((f.reg a).toNat ^^^ (f.reg b).toNat)) ∧
  RegWord (.andn h d a b) h d (fun f => BitVec.ofNat 32 ((f.reg a).toNat &&& (2 ^ 32 - 1 - (f.reg b).toNat))) ∧
  RegWord (.shl h d a b) h d (fun f => BitVec.ofNat 32 ((f.reg a).toNat * 2 ^ ((f.reg b).toNat % 32))) ∧
  RegWord (.shr h d a b) h d (fun f => BitVec.ofNat 32 ((f.reg a).toNat / 2 ^ ((f.reg b).toNat % 32))) ∧
  RegWord (.sar h d a b) h d (fun f => BitVec.ofInt 32 ((f.reg a).toInt / 2 ^ ((f.reg b).toNat % 32))) ∧
  RegWord (.rol h d a b) h d (fun f => BitVec.ofNat 32
    ((f.reg a).toNat * 2 ^ ((f.reg b).toNat % 32) + (f.reg a).toNat / 2 ^ (32 - (f.reg b).toNat % 32))) ∧
  ∀ x ∈ [((0x30283042 : Word), Instr.and ⟨false, false, 12⟩ 3 1 2), (0x302C3042, .or ⟨false, false, 12⟩ 3 1 2),
      (0x30303042, .xor ⟨false, false, 12⟩ 3 1 2), (0x30343042, .andn ⟨false, false, 12⟩ 3 1 2),
      (0x30383042, .shl ⟨false, false, 12⟩ 3 1 2), (0x303C3042, .shr ⟨false, false, 12⟩ 3 1 2),
      (0x30403042, .sar ⟨false, false, 12⟩ 3 1 2), (0x30443042, .rol ⟨false, false, 12⟩ 3 1 2)],
    decodeAt [x.1] = .ok x.2

/-- BFX, BFI, POPC, CLZ and BREV complete: a field begins at bit B mod 32 and ends at its length or at bit 31; the words R107 and
R108 print decode to them, and the three words of one operand with a nonzero B decode to nothing (R107, R108). -/
def Obligations.BitFieldsComplete : Prop := ∀ (h : Head) (d a b : BitVec 6),
  RegWord (.bfx h d a b) h d (fun f => BitVec.ofNat 32
    ((f.reg a).toNat / 2 ^ ((f.reg b).toNat % 32)
      % 2 ^ min ((f.reg b).toNat / 256 % 64) (32 - (f.reg b).toNat % 32))) ∧
  RegWord (.bfi h d a b) h d (fun f =>
    let p := (f.reg b).toNat % 32
    let n := min ((f.reg b).toNat / 256 % 64) (32 - p)
    BitVec.ofNat 32 ((f.reg d).toNat - (f.reg d).toNat / 2 ^ p % 2 ^ n * 2 ^ p + (f.reg a).toNat % 2 ^ n * 2 ^ p)) ∧
  RegWord (.popc h d a) h d (fun f => BitVec.ofNat 32 ((List.range 32).map (fun i => (f.reg a).toNat / 2 ^ i % 2)).sum) ∧
  RegWord (.clz h d a) h d (fun f => BitVec.ofNat 32 (32 - (f.reg a).toNat.size)) ∧
  RegWord (.brev h d a) h d (fun f => BitVec.ofNat 32
    ((List.range 32).map (fun i => (f.reg a).toNat / 2 ^ i % 2 * 2 ^ (31 - i))).sum) ∧
  (∀ x ∈ [((0x30483042 : Word), Instr.bfx ⟨false, false, 12⟩ 3 1 2), (0x304C3042, .bfi ⟨false, false, 12⟩ 3 1 2),
      (0x30583040, .popc ⟨false, false, 12⟩ 3 1), (0x305C3040, .clz ⟨false, false, 12⟩ 3 1),
      (0x30603040, .brev ⟨false, false, 12⟩ 3 1)], decodeAt [x.1] = .ok x.2) ∧
  (h.g.toNat ≤ 12 → b ≠ 0 → ∀ w ∈ [tWord h 0 22 d a b, tWord h 0 23 d a b, tWord h 0 24 d a b], decodeAt [w] = .error .mustBeZero)

/-- The 64-bit words complete modulo 2^64, the high products included, with shift counts of six bits and the index of LEA
sign-extended and scaled (R102, R111, R112). -/
def Obligations.PairWordsComplete : Prop := ∀ (h : Head) (d a b : BitVec 6),
  PairWord (.ladd h d a b) h d (fun f => BitVec.ofNat 64 ((f.pair a).toNat + (f.pair b).toNat)) ∧
  PairWord (.lsub h d a b) h d (fun f => BitVec.ofInt 64 ((f.pair a).toNat - (f.pair b).toNat : Int)) ∧
  PairWord (.lmul h d a b) h d (fun f => BitVec.ofNat 64 ((f.pair a).toNat * (f.pair b).toNat)) ∧
  PairWord (.lmulhS h d a b) h d (fun f => BitVec.ofInt 64 ((f.pair a).toInt * (f.pair b).toInt / 2 ^ 64)) ∧
  PairWord (.lmulhN h d a b) h d (fun f => BitVec.ofNat 64 ((f.pair a).toNat * (f.pair b).toNat / 2 ^ 64)) ∧
  PairWord (.lshl h d a b) h d (fun f => BitVec.ofNat 64 ((f.pair a).toNat * 2 ^ ((f.reg b).toNat % 64))) ∧
  PairWord (.lshr h d a b) h d (fun f => BitVec.ofNat 64 ((f.pair a).toNat / 2 ^ ((f.reg b).toNat % 64))) ∧
  PairWord (.lsar h d a b) h d (fun f => BitVec.ofInt 64 ((f.pair a).toInt / 2 ^ ((f.reg b).toNat % 64))) ∧
  PairWord (.land h d a b) h d (fun f => BitVec.ofNat 64 ((f.pair a).toNat &&& (f.pair b).toNat)) ∧
  PairWord (.lor h d a b) h d (fun f => BitVec.ofNat 64 ((f.pair a).toNat ||| (f.pair b).toNat)) ∧
  PairWord (.lxor h d a b) h d (fun f => BitVec.ofNat 64 ((f.pair a).toNat ^^^ (f.pair b).toNat)) ∧
  PairWord (.lea1 h d a b) h d (fun f => BitVec.ofInt 64 ((f.pair a).toNat + (f.reg b).toInt)) ∧
  PairWord (.lea2 h d a b) h d (fun f => BitVec.ofInt 64 ((f.pair a).toNat + 2 * (f.reg b).toInt)) ∧
  PairWord (.lea4 h d a b) h d (fun f => BitVec.ofInt 64 ((f.pair a).toNat + 4 * (f.reg b).toInt)) ∧
  PairWord (.lea8 h d a b) h d (fun f => BitVec.ofInt 64 ((f.pair a).toNat + 8 * (f.reg b).toInt))

/-- The immediate words complete: arithmetic and MOVI sign-extend the immediate, the logical words zero-extend it, and a shift
count is the immediate; MOV and MOVL copy a register and the literal (R84, R110). -/
def Obligations.ImmediatesAndMovesComplete : Prop := ∀ (h : Head) (d a : BitVec 6) (k : BitVec 8) (c : BitVec 5) (lit : Word),
  RegWord (.iaddi h d a k) h d (fun f => BitVec.ofInt 32 ((f.reg a).toNat + k.toInt)) ∧
  RegWord (.imuli h d a k) h d (fun f => BitVec.ofInt 32 ((f.reg a).toNat * k.toInt)) ∧
  RegWord (.andi h d a k) h d (fun f => BitVec.ofNat 32 ((f.reg a).toNat &&& k.toNat)) ∧
  RegWord (.ori h d a k) h d (fun f => BitVec.ofNat 32 ((f.reg a).toNat ||| k.toNat)) ∧
  RegWord (.xori h d a k) h d (fun f => BitVec.ofNat 32 ((f.reg a).toNat ^^^ k.toNat)) ∧
  RegWord (.shli h d a c) h d (fun f => BitVec.ofNat 32 ((f.reg a).toNat * 2 ^ c.toNat)) ∧
  RegWord (.shri h d a c) h d (fun f => BitVec.ofNat 32 ((f.reg a).toNat / 2 ^ c.toNat)) ∧
  RegWord (.sari h d a c) h d (fun f => BitVec.ofInt 32 ((f.reg a).toInt / 2 ^ c.toNat)) ∧
  PairWord (.laddi h d a k) h d (fun f => BitVec.ofInt 64 ((f.pair a).toNat + k.toInt)) ∧
  RegWord (.movi h d k) h d (fun _ => BitVec.ofInt 32 k.toInt) ∧
  RegWord (.mov h d a) h d (fun f => f.reg a) ∧
  RegWord (.movl h d lit) h d (fun _ => lit)

/-- The integer compares complete: predicate 2p takes the condition and 2p + 1 its negation, signed or unsigned as the word
says, the immediate sign-extended for the signed form and zero-extended for the unsigned one (R28, R67, R109, R110, R113). -/
def Obligations.ComparesComplete : Prop := ∀ (h : Head) (n p : BitVec 3) (a b : BitVec 6) (k : BitVec 8),
  let cond : Int → Int → Bool := orderHolds n
  PredWord (.icmpS h n p a b) h p (fun f => cond (f.reg a).toInt (f.reg b).toInt) ∧
  PredWord (.icmpN h n p a b) h p (fun f => cond (f.reg a).toNat (f.reg b).toNat) ∧
  PredWord (.lcmpS h n p a b) h p (fun f => cond (f.pair a).toInt (f.pair b).toInt) ∧
  PredWord (.lcmpN h n p a b) h p (fun f => cond (f.pair a).toNat (f.pair b).toNat) ∧
  PredWord (.icmpiS h n p a k) h p (fun f => cond (f.reg a).toInt k.toInt) ∧
  PredWord (.icmpiN h n p a k) h p (fun f => cond (f.reg a).toNat k.toNat)

/-! ### Floating-point words -/

/-- The binary32 and packed words of the ALU pipe complete: the value goes to the destination and the flags to the end of the
group, rounding in %RMODE as the fibre holds it before the group; FMAC and FNMAC read the destination (R45, R49, R115, R116, R118, R120). -/
def Obligations.FloatWordsComplete : Prop := ∀ (h : Head) (d a b : BitVec 6),
  let x : Fibre → Nat := fun f => (f.reg a).toNat
  let y : Fibre → Nat := fun f => (f.reg b).toNat
  let z : Fibre → Nat := fun f => (f.reg d).toNat
  FloatWord (.fadd h d a b) h d (fun f => fAdd .f32 (rmodeOf f) (x f) (y f)) ∧
  FloatWord (.fsub h d a b) h d (fun f => fSub .f32 (rmodeOf f) (x f) (y f)) ∧
  FloatWord (.fmul h d a b) h d (fun f => fMul .f32 (rmodeOf f) (x f) (y f)) ∧
  FloatWord (.fmac h d a b) h d (fun f => fFma .f32 (rmodeOf f) (x f) (y f) (z f)) ∧
  FloatWord (.fnmac h d a b) h d (fun f => fFnma .f32 (rmodeOf f) (x f) (y f) (z f)) ∧
  FloatWord (.fmin h d a b) h d (fun f => fMinMax .f32 false (x f) (y f)) ∧
  FloatWord (.fmax h d a b) h d (fun f => fMinMax .f32 true (x f) (y f)) ∧
  FloatWord (.fneg h d a) h d (fun f => fNegAbs .f32 false (x f)) ∧
  FloatWord (.fabs h d a) h d (fun f => fNegAbs .f32 true (x f)) ∧
  FloatWord (.hadd2 h d a b) h d (fun f => packed2 (fun u v _ => fAdd .f16 (rmodeOf f) u v) (x f) (y f) 0) ∧
  FloatWord (.hmul2 h d a b) h d (fun f => packed2 (fun u v _ => fMul .f16 (rmodeOf f) u v) (x f) (y f) 0) ∧
  FloatWord (.hfmac2 h d a b) h d (fun f => packed2 (fun u v w => fFma .f16 (rmodeOf f) u v w) (x f) (y f) (z f)) ∧
  FloatWord (.badd2 h d a b) h d (fun f => packed2 (fun u v _ => fAdd .bf16 (rmodeOf f) u v) (x f) (y f) 0) ∧
  FloatWord (.bmul2 h d a b) h d (fun f => packed2 (fun u v _ => fMul .bf16 (rmodeOf f) u v) (x f) (y f) 0) ∧
  FloatWord (.bfmac2 h d a b) h d (fun f => packed2 (fun u v w => fFma .bf16 (rmodeOf f) u v w) (x f) (y f) (z f))

/-- FCMP, FCLASS, CVT, NARROW and WIDEN complete: FCMP writes a predicate pair and its flags, FCLASS one bit, CVT a register or a
pair by its destination type, NARROW and WIDEN by the descriptor in the second register (R117, R119, R127, R131, R132). -/
def Obligations.CompareAndConvertComplete : Prop := ∀ (h : Head) (n p x y : BitVec 3) (d a b : BitVec 6),
  (∀ s : State, s.clear (.fcmp h n p a b) → ∃ t, exec (.fcmp h n p a b) s = .next (t.endWord h 1) ∧
    let r : Nat → Bool × Flags := fun k => fCompare .f32 n ((s.srcOf k).reg a).toNat ((s.srcOf k).reg b).toNat
    Wrote s t (s.on h) (fun _ _ => none)
      (fun k q => if q = 2 * p.toNat then some (r k).1 else if q = 2 * p.toNat + 1 then some (!(r k).1) else none)
      ((s.on h).map (fun k => (k, .flags s.wordPc (r k).2)))) ∧
  RegWord (.fclass h d a) h d (fun f => BitVec.ofNat 32 (2 ^ fClassBit .f32 (f.reg a).toNat)) ∧
  (∀ s : State, s.clear (.cvt h d a x y) → ∃ t, exec (.cvt h d a x y) s = .next (t.endWord h 1) ∧
    let r : Nat → Nat × Flags := fun k => cvt (rmodeOf (s.srcOf k)) x y
      (if 5 ≤ x.toNat then ((s.srcOf k).pair a).toNat else ((s.srcOf k).reg a).toNat % 2 ^ cvtBits x)
    Wrote s t (s.on h) (fun k q =>
        if 5 ≤ y.toNat then
          (if q = 2 * d.toNat then some (BitVec.ofNat 32 (r k).1)
           else if q = 2 * d.toNat + 1 then some (BitVec.ofNat 32 ((r k).1 / 2 ^ 32)) else none)
        else if q = d.toNat then some (BitVec.ofNat 32 (r k).1) else none)
      (fun _ _ => none) ((s.on h).map (fun k => (k, .flags s.wordPc (r k).2)))) ∧
  FloatWord (.narrow h d a b) h d (fun f =>
    ((narrow32 (.ofWord (f.reg b)) (f.reg a).toNat).1, (narrow32 (.ofWord (f.reg b)) (f.reg a).toNat).2.2)) ∧
  RegWord (.widen h d a b) h d (fun f => BitVec.ofNat 32 (widen32 (.ofWord (f.reg b)) (f.reg a).toNat))

/-- Integer division completes on the XU pipe and raises no flag: a zero divisor gives quotient -1 (signed, 1 for a negative
dividend) or 2^32 - 1 and the dividend as remainder; otherwise the quotient is truncated toward zero (R114, R126). -/
def Obligations.DivisionCompletes : Prop := ∀ (h : Head) (d a b : BitVec 6),
  let one : BitVec 6 → Word → List (Nat × Word) × List (Nat × Bool × Bool) × Flags := fun d v => ([(d.toNat, v)], [], 0)
  SendWord (.idivS h d a b) h true (fun f => one d (if (f.reg b).toNat = 0 then (if (f.reg a).toInt < 0 then 1 else BitVec.ofInt 32 (-1))
    else BitVec.ofInt 32 ((f.reg a).toInt.tdiv (f.reg b).toInt))) ∧
  SendWord (.idivN h d a b) h true (fun f => one d (if (f.reg b).toNat = 0 then BitVec.ofNat 32 (2 ^ 32 - 1)
    else BitVec.ofNat 32 ((f.reg a).toNat / (f.reg b).toNat))) ∧
  SendWord (.iremS h d a b) h true (fun f => one d (if (f.reg b).toNat = 0 then f.reg a
    else BitVec.ofInt 32 ((f.reg a).toInt.tmod (f.reg b).toInt))) ∧
  SendWord (.iremN h d a b) h true (fun f => one d (BitVec.ofNat 32 ((f.reg a).toNat % (f.reg b).toNat)))

/-- The floating-point words of the XU pipe complete: each sends one register, pair or predicate pair and its flags (R121 to R126). -/
def Obligations.ExtendedFloatCompletes : Prop := ∀ (h : Head) (n p : BitVec 3) (d a b : BitVec 6),
  let x : Fibre → Nat := fun f => (f.reg a).toNat
  let y : Fibre → Nat := fun f => (f.reg b).toNat
  let xx : Fibre → Nat := fun f => (f.pair a).toNat
  let yy : Fibre → Nat := fun f => (f.pair b).toNat
  let one : Nat × Flags → List (Nat × Word) × List (Nat × Bool × Bool) × Flags :=
    fun r => ([(d.toNat, BitVec.ofNat 32 r.1)], [], r.2)
  let two : Nat × Flags → List (Nat × Word) × List (Nat × Bool × Bool) × Flags :=
    fun r => ([(2 * d.toNat, BitVec.ofNat 32 r.1), (2 * d.toNat + 1, BitVec.ofNat 32 (r.1 / 2 ^ 32))], [], r.2)
  SendWord (.fdiv h d a b) h true (fun f => one (fDiv .f32 (rmodeOf f) (x f) (y f))) ∧
  SendWord (.fsqrt h d a) h true (fun f => one (fSqrt .f32 (rmodeOf f) (x f))) ∧
  SendWord (.frcp h d a) h true (fun f => one (fRcp .f32 (rmodeOf f) (x f))) ∧
  SendWord (.frsq h d a) h true (fun f => one (fRsqrt .f32 (rmodeOf f) (x f))) ∧
  SendWord (.fexp2 h d a) h true (fun f => one (fExp2 (x f))) ∧
  SendWord (.flog2 h d a) h true (fun f => one (fLog2 (x f))) ∧
  SendWord (.fsinp h d a) h true (fun f => one (fSinPi (x f))) ∧
  SendWord (.fcosp h d a) h true (fun f => one (fCosPi (x f))) ∧
  SendWord (.dadd h d a b) h true (fun f => two (fAdd .f64 (rmodeOf f) (xx f) (yy f))) ∧
  SendWord (.dmul h d a b) h true (fun f => two (fMul .f64 (rmodeOf f) (xx f) (yy f))) ∧
  SendWord (.dfmac h d a b) h true (fun f => two (fFma .f64 (rmodeOf f) (xx f) (yy f) (f.pair d).toNat)) ∧
  SendWord (.ddiv h d a b) h true (fun f => two (fDiv .f64 (rmodeOf f) (xx f) (yy f))) ∧
  SendWord (.dsqrt h d a) h true (fun f => two (fSqrt .f64 (rmodeOf f) (xx f))) ∧
  SendWord (.dcmp h n p a b) h true (fun f =>
    ([], [(p.toNat, (fCompare .f64 n (xx f) (yy f)).1, !(fCompare .f64 n (xx f) (yy f)).1)], (fCompare .f64 n (xx f) (yy f)).2))

/-- Special values of binary32 arithmetic in every rounding mode: a NaN operand gives the canonical NaN, invalid only for a
signalling one; infinity minus infinity, infinity times zero, zero by zero and the square root of a negative number are invalid; a
number divided by zero is an infinity and raises divide-by-zero (R46 to R50, R115, R123, R124). -/
def Obligations.SpecialValuesOfArithmetic : Prop := ∀ (rm : RMode) (a b : Nat),
  let va := unpack .f32 a
  let vb := unpack .f32 b
  (va.isNan = true ∨ vb.isNan = true →
    let r : Nat × Flags := (0x7FC00000, if va.isSnan || vb.isSnan then 1 else 0)
    fAdd .f32 rm a b = r ∧ fSub .f32 rm a b = r ∧ fMul .f32 rm a b = r ∧ fDiv .f32 rm a b = r) ∧
  (∀ sa, va = .inf sa → vb = .inf (!sa) → fAdd .f32 rm a b = (0x7FC00000, 1)) ∧
  (∀ sa sb, va = .inf sa → vb = .inf sb → fDiv .f32 rm a b = (0x7FC00000, 1)) ∧
  (∀ sa sb e, va = .inf sa → vb = .fin sb 0 e → fMul .f32 rm a b = (0x7FC00000, 1)) ∧
  (∀ sa sb e e', va = .fin sa 0 e → vb = .fin sb 0 e' → fDiv .f32 rm a b = (0x7FC00000, 1)) ∧
  (∀ sa sb m e e', va = .fin sa (m + 1) e → vb = .fin sb 0 e' →
    fDiv .f32 rm a b = (if sa = sb then 0x7F800000 else 0xFF800000, 2)) ∧
  (∀ m e, va = .fin true (m + 1) e → fSqrt .f32 rm a = (0x7FC00000, 1))

/-- Rounding to nearest even in binary32: the result of rounding m times 2^e with sign s, where it is finite, is at least as near
to that value as every binary32 number, and inexact is raised exactly when it differs from it (R48 to R50). -/
def Obligations.RoundingIsNearest : Prop := ∀ (s : Bool) (m : Nat) (e : Int),
  let exact : ℚ := (if s then -1 else 1) * m * (2 : ℚ) ^ e
  let r := roundTo .f32 .rne s m e false
  ∀ sr mr er, unpack .f32 r.1 = .fin sr mr er →
    let v : ℚ := (if sr then -1 else 1) * mr * (2 : ℚ) ^ er
    (r.2.getLsbD 4 = true ↔ v ≠ exact) ∧
    ∀ z sz mz ez, unpack .f32 z = .fin sz mz ez →
      |v - exact| ≤ |(if sz then -1 else 1) * mz * (2 : ℚ) ^ ez - exact|

/-! ### Words that post accesses -/

/-- The loads and stores complete at issue: each lane posts one access at w[A] plus the sign-extended literal, a load with its
size, extension and first destination, a store with the bytes of its register, pair or two pairs, in the F/E form of Q (R25, R141,
R147, R152). -/
def Obligations.LoadsAndStoresPost : Prop := ∀ (h : Head) (q : BitVec 3) (d : BitVec 6) (a : BitVec 5) (p : BitVec 2)
    (off : Option Word) (lit : Word),
  let at' : Fibre → DWord := fun f => BitVec.ofInt 64 ((f.pairN a.toNat).toNat + (match off with
    | some l => l.toInt
    | none => 0))
  PostWord (.ldb h q d a p off) h (fun f => ⟨d.toNat, at' f, .load 1 false (formOf q), p.toNat⟩) ∧
  PostWord (.ldbs h q d a p off) h (fun f => ⟨d.toNat, at' f, .load 1 true (formOf q), p.toNat⟩) ∧
  PostWord (.ldh h q d a p off) h (fun f => ⟨d.toNat, at' f, .load 2 false (formOf q), p.toNat⟩) ∧
  PostWord (.ldhs h q d a p off) h (fun f => ⟨d.toNat, at' f, .load 2 true (formOf q), p.toNat⟩) ∧
  PostWord (.ldw h q d a p off) h (fun f => ⟨d.toNat, at' f, .load 4 false (formOf q), p.toNat⟩) ∧
  PostWord (.ldd h q d a p off) h (fun f => ⟨2 * d.toNat, at' f, .load 8 false (formOf q), p.toNat⟩) ∧
  PostWord (.ldq h q d a p off) h (fun f => ⟨2 * d.toNat, at' f, .load 16 false (formOf q), p.toNat⟩) ∧
  PostWord (.stb h q d a p off) h (fun f => ⟨0, at' f, .store 1 (formOf q) (f.reg d).toNat, p.toNat⟩) ∧
  PostWord (.sth h q d a p off) h (fun f => ⟨0, at' f, .store 2 (formOf q) (f.reg d).toNat, p.toNat⟩) ∧
  PostWord (.stw h q d a p off) h (fun f => ⟨0, at' f, .store 4 (formOf q) (f.reg d).toNat, p.toNat⟩) ∧
  PostWord (.std h q d a p off) h (fun f => ⟨0, at' f, .store 8 (formOf q) (f.pair d).toNat, p.toNat⟩) ∧
  PostWord (.stq h q d a p off) h (fun f =>
    ⟨0, at' f, .store 16 (formOf q) ((f.pairN d.toNat).toNat + 2 ^ 64 * (f.pairN (d.toNat + 1)).toNat), p.toNat⟩) ∧
  PostWord (.ldt h q d a p lit) h (fun f => ⟨d.toNat, f.pairN a.toNat,
    .ldt (formOf q) ((f.regs.drop lit.toNat).take 5) (f.regs.length - lit.toNat) (d.toNat % 2 == 1), p.toNat⟩) ∧
  PostWord (.stt h q d a p lit) h (fun f => ⟨d.toNat, f.pairN a.toNat,
    .stt (formOf q) ((f.regs.drop lit.toNat).take 5) (f.regs.length - lit.toNat) (d.toNat % 2 == 1)
      ((f.regN d.toNat).toNat + 2 ^ 32 * (f.regN (d.toNat + 1)).toNat), p.toNat⟩)

/-- The atomic class, TAGR, TAGS and PREF complete at issue with one access a lane: the operation Q names on 4 or 8 bytes, with
the operand of the destination register or pair and, for CAS, the expected value below the new one (R30, R154, R156 to R158). -/
def Obligations.AtomicsPost : Prop := ∀ (h : Head) (q : BitVec 3) (d : BitVec 6) (a : BitVec 5) (p : BitVec 2) (off : Option Word),
  let at' : Fibre → DWord := fun f => memAddr f a off
  PostWord (.atom h q d a p off) h (fun f => ⟨d.toNat, at' f, .rmw 4 (intRmw q) (f.reg d).toNat true, p.toNat⟩) ∧
  PostWord (.atomn h q d a p off) h (fun f => ⟨d.toNat, at' f, .rmw 4 (intRmw q) (f.reg d).toNat false, p.toNat⟩) ∧
  PostWord (.atomd h q d a p off) h (fun f => ⟨2 * d.toNat, at' f, .rmw 8 (intRmw q) (f.pair d).toNat true, p.toNat⟩) ∧
  PostWord (.atomdn h q d a p off) h (fun f => ⟨2 * d.toNat, at' f, .rmw 8 (intRmw q) (f.pair d).toNat false, p.toNat⟩) ∧
  PostWord (.atomf h q d a p off) h (fun f => ⟨d.toNat, at' f, .rmw 4 (fpRmw q) (f.reg d).toNat true, p.toNat⟩) ∧
  PostWord (.atomfn h q d a p off) h (fun f => ⟨d.toNat, at' f, .rmw 4 (fpRmw q) (f.reg d).toNat false, p.toNat⟩) ∧
  PostWord (.xchg h d a p off) h (fun f => ⟨d.toNat, at' f, .rmw 4 .swap (f.reg d).toNat true, p.toNat⟩) ∧
  PostWord (.cas h d a p off) h (fun f => ⟨2 * d.toNat, at' f,
    .rmw 4 (.cas ((f.pair d).toNat % 2 ^ 32)) ((f.pair d).toNat / 2 ^ 32) true, p.toNat⟩) ∧
  PostWord (.casd h d a p off) h (fun f => ⟨2 * d.toNat, at' f,
    .rmw 8 (.cas (f.pairN d.toNat).toNat) (f.pairN (d.toNat + 1)).toNat true, p.toNat⟩) ∧
  PostWord (.tagr h d a p off) h (fun f => ⟨d.toNat, at' f, .tagr, p.toNat⟩) ∧
  PostWord (.tags h d a p off) h (fun f => ⟨0, at' f, .tags ((f.reg d).toNat % 2 == 1), p.toNat⟩) ∧
  PostWord (.pref h a p off) h (fun f => ⟨0, at' f, .pref, p.toNat⟩)

/-- The barrier, fence, layout, layer, engine and invalidation words complete at issue with one posting a lane (R160, R164 to R166,
R179, R191, R192, R212, R240, R271 to R273, R305, R332, R369). -/
def Obligations.PostingWordsPost : Prop := ∀ (h : Head) (d a b : BitVec 6) (e : BitVec 1) (k : BitVec 2) (scope : BitVec 3) (n : BitVec 5),
  PostWord (.bari h a b) h (fun f => ⟨0, f.pair a, .bari (f.reg b), 0⟩) ∧
  PostWord (.barv h d a) h (fun f => ⟨d.toNat, f.pair a, .barv, 0⟩) ∧
  PostWord (.barw h d a b) h (fun f => ⟨d.toNat, f.pair a, .barw ((f.reg b).toNat % 2 ^ 16), 0⟩) ∧
  PostWord (.fence h e k scope) h (fun _ => ⟨0, 0, .fence (e == 1) k.toNat scope.toNat, 0⟩) ∧
  PostWord (.layq h d a) h (fun f => ⟨2 * d.toNat, f.pair a, .layq, 0⟩) ∧
  PostWord (.layadv h d a b) h (fun f => ⟨d.toNat, f.pair a, .layadv (f.pair b), 0⟩) ∧
  PostWord (.laypin h d a b) h (fun f => ⟨d.toNat, f.pair a, .laypin (f.pair b), 0⟩) ∧
  PostWord (.layacq h a) h (fun f => ⟨0, f.pair a, .layacq, 0⟩) ∧
  PostWord (.layrel h a) h (fun f => ⟨0, f.pair a, .layrel, 0⟩) ∧
  PostWord (.sign h n) h (fun _ => ⟨0, BitVec.ofNat 64 n.toNat, .sign n.toNat, 0⟩) ∧
  PostWord (.marm h d a b) h (fun f => ⟨0, f.pair a, .marm d.toNat (f.reg b), 0⟩) ∧
  PostWord (.cpyq h a) h (fun f => ⟨0, f.pair a, .cpyq, 0⟩) ∧
  PostWord (.tgpost h d a) h (fun f => ⟨d.toNat, f.pair a, .tgpost, 0⟩) ∧
  PostWord (.lnkq h a) h (fun f => ⟨0, f.pair a, .lnkq, 0⟩) ∧
  PostWord (.icinv h scope) h (fun _ => ⟨0, 0, .icinv scope.toNat, 0⟩) ∧
  PostWord (.tlbinv h a b) h (fun f => ⟨0, f.pair a, .tlbinv (f.reg b), 0⟩)

/-! ### Control, meetings, special registers and the privileged words -/

/-- The control words complete: a branch asks for the packet at a signed offset of twelve bytes a packet, BRX and RET for the
address in a pair, CALL also sends the next packet's address to w31, LOOP sends the count less one and branches while it is not
zero, END and RETT ask for their end, RETT at the %TRESUME that the group found, YIELD and TRAP for theirs, NOP for nothing (R22, R79
to R83, R172). -/
def Obligations.ControlWordsComplete : Prop := ∀ (h : Head) (d a : BitVec 6) (o : BitVec 18) (k : BitVec 12),
  let away : State → Int → DWord := fun s n => BitVec.ofInt 64 (s.issue.pkt.toNat + 12 * n)
  AskWord (.bra h o) h (fun s _ => .jump s.wordPc (away s o.toInt)) ∧
  AskWord (.brx h a) h (fun s x => .jump s.wordPc ((s.srcOf x).pair a)) ∧
  AskWord (.ret h) h (fun s x => .jump s.wordPc ((s.srcOf x).pairN 31)) ∧
  AskWord (.endF h) h (fun s _ => .endF s.wordPc) ∧
  AskWord (.rett h) h (fun s x => .rett s.wordPc (s.srcOf x).ctl.tresume) ∧
  AskWord (.yield h) h (fun _ _ => .yielded) ∧
  AskWord (.trap h k) h (fun s _ => .trap { cls := 6, cause := k.toNat % 256, pc := s.wordPc, addr := BitVec.ofNat 64 k.toNat, flags := 0 }) ∧
  (∀ s : State, s.clear (.nop h) → exec (.nop h) s = .next (s.endWord h 1)) ∧
  (∀ s : State, s.clear (.call h o) → ∃ t, exec (.call h o) s = .next (t.endWord h 1) ∧
    Sent s t (s.on h) false (fun _ => ([(62, BitVec.ofNat 32 (s.issue.pkt + 12).toNat), (63, BitVec.ofNat 32 ((s.issue.pkt + 12).toNat / 2 ^ 32))], [], 0))
      ((s.on h).map (fun x => (x, .jump s.wordPc (away s o.toInt))))) ∧
  (∀ s : State, s.clear (.loop h d k) → ∃ t, exec (.loop h d k) s = .next (t.endWord h 1) ∧
    let left : Nat → Word := fun x => BitVec.ofInt 32 (((s.srcOf x).reg d).toNat - 1 : Int)
    Sent s t (s.on h) false (fun x => ([(d.toNat, left x)], [], 0))
      (((s.on h).filter (fun x => left x != 0)).map (fun x => (x, .jump s.wordPc (away s k.toInt)))))

/-- END.J posts the decrement of its join word and asks for the end of the fibre; FORK posts entry, argument and join word, and
asks for the illegal-target trap where the entry is no packet of the gang's code (R16, R82, R168). -/
def Obligations.JoinAndForkComplete : Prop := ∀ (h : Head) (d a b : BitVec 6),
  (∀ s : State, s.clear (.endJ h a) → ∃ t, exec (.endJ h a) s = .next (t.endWord h 1) ∧
    Posted s t (.endJ h a) (s.on h) (fun f => ⟨0, f.pair a, .dec, 0⟩) ((s.on h).map (fun x => (x, .endF s.wordPc)))) ∧
  (∀ s : State, s.clear (.fork h d a b) → ∃ t, exec (.fork h d a b) s = .next (t.endWord h 1) ∧
    let good : Nat → Bool := fun x =>
      decide ((s.codeBase (s.srcOf x)).toNat ≤ ((s.srcOf x).pair a).toNat)
        && (((s.srcOf x).pair a).toNat - (s.codeBase (s.srcOf x)).toNat) % 12 == 0
    Posted s t (.fork h d a b) ((s.on h).filter good) (fun f => ⟨0, f.pair d, .fork (f.pair a) (f.pair b), 0⟩)
      (((s.on h).filter (fun x => !good x)).map (fun x =>
        (x, .trap { cls := 5, cause := 0, pc := s.wordPc, addr := (s.srcOf x).pair a, flags := 0 }))))

/-- The meeting words complete: every fibre at the meeting, contributing or not, is sent its value, and p10:p11 saying whether
any lane contributed (R85, R86, R89 to R92). `x` is a lane's value, `c` whether it contributes. -/
def Obligations.MeetingWordsComplete : Prop := ∀ (h : Head) (d a : BitVec 6) (m v : BitVec 2) (k l : BitVec 7) (o : BitVec 4) (e : BitVec 1),
  let met : Instr → (State → Nat → List (Nat × Word)) → (State → Flags) → Prop := fun i w fl =>
    ∀ s : State, s.clear i → ∃ t, exec i s = .next (t.endWord h 1) ∧
      Sent s t s.issue.lanes false (fun j => (w s (s.srcOf j).lane,
        [(5, decide (∃ j ∈ s.issue.lanes, (s.srcOf j).guard h.g = true), !decide (∃ j ∈ s.issue.lanes, (s.srcOf j).guard h.g = true))], fl s)) []
  let lanes : State → (Nat → Bool) → List Nat := fun s p => (List.range 64).filter (fun i => s.contributes h i && p i)
  let from' : State → Nat → Nat → Word := fun s i j =>
    if decide (j < 64) && s.contributes h j then s.laneValue d j else s.laneValue d i
  met (.shfl h d m k) (fun s i => [(d.toNat,
    if m = 0 then (if k.toNat ≤ i then from' s i (i - k.toNat) else s.laneValue d i)
    else if m = 1 then from' s i (i + k.toNat)
    else if m = 2 then from' s i (i ^^^ k.toNat) else from' s i (i ^^^ (64 >>> k.toNat)))]) (fun _ => 0) ∧
  met (.bcast h d l) (fun s i => [(d.toNat, from' s i l.toNat)]) (fun _ => 0) ∧
  met (.vote h d a v) (fun s _ =>
    let votes := lanes s (fun i => s.laneValue a i != 0)
    if v = 2 then [(2 * d.toNat, BitVec.ofNat 32 (votes.map (fun i => 2 ^ i)).sum), (2 * d.toNat + 1, BitVec.ofNat 32 ((votes.map (fun i => 2 ^ i)).sum / 2 ^ 32))]
    else [(d.toNat, if v = 0 then (if votes = [] then 0 else 1) else (if votes = lanes s (fun _ => true) then 1 else 0))]) (fun _ => 0) ∧
  met (.matchL h d a) (fun s i =>
    let eq := lanes s (fun j => s.laneValue a j == s.laneValue a i)
    [(2 * d.toNat, BitVec.ofNat 32 (eq.headD i)), (2 * d.toNat + 1, BitVec.ofNat 32 eq.length)]) (fun _ => 0) ∧
  met (.red h d a o) (fun s _ => [(d.toNat, (redTree o.toNat 6 (s.meetValues h a (redIdentity o.toNat))).1)])
    (fun s => (redTree o.toNat 6 (s.meetValues h a (redIdentity o.toNat))).2) ∧
  met (.scan h d a o e) (fun s i => [(d.toNat, (scanGo o.toNat (e == 1) (redIdentity o.toNat)
      ((List.range 64).map (fun j => if s.contributes h j then some (s.laneValue a j) else none))).1.getD i 0)])
    (fun s => (scanGo o.toNat (e == 1) (redIdentity o.toNat)
      ((List.range 64).map (fun j => if s.contributes h j then some (s.laneValue a j) else none))).2)

/-- RED of the integer operations combines the contributing lanes in any order: the sum modulo 2^32, the and, or, exclusive or,
and the minima and maxima of the values of lanes 0 to 63, each lane that does not contribute holding the identity (R60, R92). -/
def Obligations.IntegerReductions : Prop := ∀ l : List Word, l.length = 64 →
  (redTree 0 6 l).1 = BitVec.ofNat 32 ((l.map (·.toNat)).sum) ∧
  (redTree 1 6 l).1 = l.foldl (· &&& ·) 0xFFFFFFFF ∧
  (redTree 2 6 l).1 = l.foldl (· ||| ·) 0 ∧
  (redTree 3 6 l).1 = l.foldl (· ^^^ ·) 0 ∧
  (redTree 4 6 l).1.toInt = l.foldl (fun m x => min m x.toInt) (2 ^ 31 - 1) ∧
  (redTree 5 6 l).1.toNat = l.foldl (fun m x => min m x.toNat) (2 ^ 32 - 1) ∧
  (redTree 6 6 l).1.toInt = l.foldl (fun m x => max m x.toInt) (-2 ^ 31) ∧
  (redTree 7 6 l).1.toNat = l.foldl (fun m x => max m x.toNat) 0 ∧
  ∀ o < 8, (redTree o 6 l).2 = 0

/-- RDS and WRS complete in every lane, for every special register there is and may be read or written: RDS writes the register's
value to its destination and latches a high half, WRS writes the special register and no general one (R69 to R71, R84). -/
def Obligations.SpecialMovesComplete : Prop := ∀ (h : Head) (d i : BitVec 6) (s : State),
  (s.clear (.rds h d i) → exec (.rds h d i) s = .next ((s.updFibres (s.on h) (fun k x =>
      (x.setRegN d.toNat (s.readSpecial (s.srcOf k) i.toNat)).latch i.toNat (s.timeOf (s.srcOf k)))).endWord h 1)) ∧
  (s.clear (.wrs h d i) → exec (.wrs h d i) s = .next ((s.updFibres (s.on h) (fun k x =>
      x.setSpecial i.toNat ((s.srcOf k).reg d))).endWord h 1))

/-- The privileged words complete in lanes whose V is set: CARVE records a pending scratch size of the issuing core, RDFS sends a
saved word of the fibre or core its selector names, a fibre of the group as it stood before it, WRFS writes one, SAVED asks for the end
of the fibre's part (R22, R134, R174 to R177). That lanes of one WRFS which name one word write it in their order is the model's
choice (log entry 79). -/
def Obligations.SystemWordsComplete : Prop := ∀ (h : Head) (d a b : BitVec 6) (k : BitVec 3),
  (∀ s : State, s.clear (.carve h k) → s.on h ≠ [] → exec (.carve h k) s =
    .next ((s.updCore s.issue.core (fun c => { c with pendCarve := some k.toNat })).endWord h 1)) ∧
  (∀ s : State, s.clear (.rdfs h d a b) → ∃ t, exec (.rdfs h d a b) s = .next (t.endWord h 1) ∧
    Sent s t (s.on h) false (fun j =>
      let f := s.srcOf j
      ([(d.toNat, match s.saveTarget f.gang (f.reg a) with
        | some (.fib x) => s.readFibreState x ((s.issue.src.lookup x).getD (s.fibre x)) (f.reg b).toNat
        | some (.core c) => (s.core c).readState (f.reg b).toNat
        | none => 0)], [], 0)) []) ∧
  (∀ s : State, s.clear (.wrfs h d a b) → ∃ t : State, exec (.wrfs h d a b) s = .next (t.endWord h 1) ∧
    t = { s with fibres := t.fibres, cores := t.cores } ∧
    let names := fun (x : SaveTarget) => (s.on h).filter (fun j => s.saveTarget (s.srcOf j).gang ((s.srcOf j).reg a) == some x)
    (∀ k < s.fibres.length, t.fibre k = (names (.fib k)).foldl
      (fun f j => f.writeState ((s.srcOf j).reg b).toNat ((s.srcOf j).reg d)) (s.fibre k)) ∧
    ∀ c < s.cores.length, t.core c = (names (.core c)).foldl
      (fun y j => y.writeState ((s.srcOf j).reg b).toNat ((s.srcOf j).reg d)) (s.core c)) ∧
  AskWord (.saved h) h (fun _ _ => .savedF)

/-! ### Traps at issue -/

/-- A word traps in no lane in which it is well-formed, legal, within the register window, and, where its guard is on, reads no
lost register and touches a legal aligned address; in every other lane it traps (R33, R65, R70, R97, R135, R147, R347). That the
checks of encoding and privilege hold where the guard is off is the model's reading (DEDUCED: log entry 65). -/
def Obligations.IssueTrapConditions : Prop := ∀ (s : State) (i : Instr) (h : Head) (k : Nat) (pc : DWord), i.head? = some h →
  (s.issueTrap i k pc = none ↔ s.Admits i h k)

/-- Traps of one word in one lane: a privileged word where V is 0 takes class 0x01 with cause 6 at its own PC, even where its
guard is off (DEDUCED: log entry 65), and where V is 1 does not; but SAVED outside the save routine with its guard on takes cause 3,
whatever V; a register at or above the window raises class 0x02 whether or not the guard is on,
unless the word is illegal there; a misaligned load or store at an address the gang may use raises class 0x10 with its address,
and one outside raises class 0x11, aligned or not (R32, R65, R95, R97, R135, R147, R148, R177, R380). -/
def Obligations.IssueTrapsNamed : Prop :=
  (∀ (s : State) (i : Instr) (h : Head) (k : Nat) (pc : DWord), i.head? = some h →
    i.isPrivileged = true → i.wf = true →
    ((s.srcOf k).ctl.v = false → (i = .saved h → (s.srcOf k).guard h.g = true → (s.srcOf k).ctl.saving = true) →
      s.issueTrap i k pc = some { cls := 1, cause := 6, pc := pc, addr := 0, flags := 0 }) ∧
    ((s.srcOf k).ctl.v = true → s.issueTrap i k pc ≠ some { cls := 1, cause := 6, pc := pc, addr := 0, flags := 0 })) ∧
  (∀ (s : State) (h : Head) (k : Nat) (pc : DWord), (Instr.saved h).wf = true → (s.srcOf k).guard h.g = true →
    (s.srcOf k).ctl.saving = false →
    s.issueTrap (.saved h) k pc = some { cls := 1, cause := 3, pc := pc, addr := 0, flags := 0 }) ∧
  (∀ (s : State) (i : Instr) (h : Head) (k : Nat) (pc : DWord) (r : Nat), i.head? = some h →
    i.wf = true → s.lateCause i (s.srcOf k) ((s.srcOf k).guard h.g) = none → r ∈ i.regsNamed → (s.srcOf k).regs.length ≤ r →
    s.issueTrap i k pc = some { cls := 2, cause := 0, pc := pc, addr := 0, flags := 0 }) ∧
  (∀ (s : State) (h : Head) (q : BitVec 3) (d : BitVec 6) (a : BitVec 5) (p : BitVec 2)
      (off : Option Word) (k : Nat) (pc : DWord),
    let f := s.srcOf k
    ∀ i ∈ [Instr.ldw h q d a p off, .stw h q d a p off, .atom h q d a p off],
    i.wf = true → f.guard h.g = true → (∀ r ∈ i.regsNamed, r < f.regs.length) → (∀ r ∈ i.sources, SramWord.reg k r ∉ s.sram) →
    (∀ x, s.scratchOf f (memAddr f a off) = .ok x → (memAddr f a off).toNat % 4 ≠ 0 →
      s.issueTrap i k pc = some { cls := 0x10, cause := 0, pc := pc, addr := memAddr f a off, flags := 0 }) ∧
    (∀ c, s.scratchOf f (memAddr f a off) = .error c →
      s.issueTrap i k pc = some { cls := 0x11, cause := c, pc := pc, addr := memAddr f a off, flags := 0 }))

/-! ### Taking a trap and returning -/

/-- What a trapping fibre holds once it has taken its trap (R171): the record, H, the handler's entry at slot 0, and for a system
class also the shadow and V; class 0x43 stands for a tenant class with no tenant handler or in a handler, with the original in bits
[31:16] of %TCAUSE; classes 0x40 and 0x41 are never replaced; a pending trap keeps the original it was saved with (R176); no register
or predicate changes. That a missing handler comes before a handler in progress is the model's choice (log entry 79). -/
def Obligations.TrapEntry : Prop := ∀ (hd : Handlers) (t : Trap) (lane count : Nat) (resume : DWord) (f : Fibre),
  f.ctl.v = false → t.cls < 256 → t.cause < 256 →
  let g := f.enter hd t lane count resume
  let missing := t.cls < 0x40 ∧ hd.tenant = 0
  let nested := t.cls < 0x40 ∧ hd.tenant ≠ 0 ∧ f.ctl.h = true
  let system := 0x40 ≤ t.cls ∨ missing ∨ nested
  (system → g.ctl.shadow = f.toShadow ∧ g.ctl.v = true) ∧
  (¬ system → g.ctl.shadow = f.ctl.shadow ∧ g.ctl.v = false ∧ g.ctl.pkt = hd.tenant) ∧
  g.ctl.h = true ∧ g.ctl.slot = 0 ∧ g.ctl.trappc = t.pc ∧ g.ctl.tresume = resume ∧
  (t.cls ≠ 0x40 → g.ctl.taddr = t.addr) ∧ g.ctl.tinfo = BitVec.ofNat 32 (count * 2 ^ 16 + lane) ∧
  (¬ missing → ¬ nested → g.ctl.tcause = BitVec.ofNat 32 (t.orig * 2 ^ 16 + t.cause * 256 + t.cls)) ∧
  (missing → g.ctl.tcause = BitVec.ofNat 32 ((t.cause * 256 + t.cls) * 2 ^ 16 + 0x143)) ∧
  (nested → g.ctl.tcause = BitVec.ofNat 32 ((t.cause * 256 + t.cls) * 2 ^ 16 + 0x043)) ∧
  (system → t.cls ≠ 0x40 → g.ctl.pkt = hd.system) ∧ (t.cls = 0x40 → g.ctl.pkt = hd.save ∧ g.ctl.taddr = hd.saveBlock) ∧
  g.regs = f.regs ∧ g.preds = f.preds ∧ g.live = f.live

/-- Fibres that trap together take their trap, those that take it as one class, cause and original as one band: each of its fibres
enters with its own address and resume PC, and with the band's lowest lane unless the trap names one; every other fibre, all of
memory and all results and accesses stay (R96, R171, R381); but where their V is set the whole context ends, with a fatal record of a
trap, (1, cause * 256 + class), whose layout is the model's choice (log entry 45). -/
def Obligations.BandTakesTrap : Prop := ∀ (s : State) (ks : List (Nat × Trap × DWord)) (lane : Option Nat) (count gid : Nat), ks ≠ [] →
  (∀ x ∈ ks, x.1 < s.fibres.length ∧ (s.fibre x.1).live = true) → (ks.map (·.1)).Nodup → (∀ x ∈ ks, (s.fibre x.1).gang = gid) →
  let t := s.takeTrap ks lane count
  let band := fun (x : Nat × Trap × DWord) => ks.filter (fun y => s.takenAs y.1 y.2.1 == s.takenAs x.1 x.2.1)
  ((∀ x ∈ ks, (s.fibre x.1).ctl.v = false) →
    t.mem = s.mem ∧ t.results = s.results ∧ t.accesses = s.accesses ∧ t.gangs = s.gangs ∧
    (∀ x ∈ ks, t.fibre x.1 = (s.fibre x.1).enter (s.handlers gid) x.2.1
        (lane.getD (((band x).head?.map (fun y => (s.fibre y.1).lane)).getD 0)) count x.2.2 ∧
      ∃ b ∈ t.bands, b.park = .none ∧ ∀ k, k ∈ b.members ↔ k ∈ (band x).map (·.1)) ∧
    (∀ k, k ∉ ks.map (·.1) → t.fibre k = s.fibre k)) ∧
  ((∀ x ∈ ks, (s.fibre x.1).ctl.v = true) → ∀ g c, s.gang gid = some g → s.context g.ctx = some c →
    ∃ c' cls cause more, (∃ x ∈ ks, x.2.1.cls = cls ∧ x.2.1.cause = cause) ∧ t.context g.ctx = some c' ∧ c'.live = false ∧
      c'.fatal = c.fatal ++ (1, cause * 256 + cls) :: more ∧ ∀ k, (t.fibre k).gang = gid → (t.fibre k).live = false)

/-- RETT in one fibre (R172): from the system handler g0 to g7, %PRED, the trap record and H come back from the shadow and V
becomes 0; from a tenant handler H becomes 0 and nothing else of the record changes. Entering the system handler and leaving it by
RETT gives back every general register, predicate, and trap-record register, whatever the handler did to g0 to g7 and %PRED in
between (R171, R172). -/
def Obligations.TrapReturns : Prop :=
  (∀ f : Fibre, f.ctl.shadow.regs.length = 8 → 8 ≤ f.regs.length →
    (f.ctl.v = true →
      (∀ r < 8, f.leave.regN r = f.ctl.shadow.regs.getD r 0) ∧ (∀ r, 8 ≤ r → f.leave.regN r = f.regN r) ∧
      f.leave.preds = f.ctl.shadow.preds ∧ f.leave.ctl.tcause = f.ctl.shadow.tcause ∧ f.leave.ctl.tinfo = f.ctl.shadow.tinfo ∧
      f.leave.ctl.trappc = f.ctl.shadow.trappc ∧ f.leave.ctl.tresume = f.ctl.shadow.tresume ∧
      f.leave.ctl.taddr = f.ctl.shadow.taddr ∧ f.leave.ctl.h = f.ctl.shadow.h ∧ f.leave.ctl.v = false) ∧
    (f.ctl.v = false → f.leave.ctl.h = false ∧ f.leave.ctl.v = false ∧ f.leave.regs = f.regs ∧ f.leave.preds = f.preds ∧
      f.leave.ctl.tcause = f.ctl.tcause ∧ f.leave.ctl.trappc = f.ctl.trappc ∧ f.leave.ctl.tresume = f.ctl.tresume)) ∧
  (∀ (hd : Handlers) (t : Trap) (lane count : Nat) (resume : DWord) (f : Fibre)
      (rs : List Word) (ps : BitVec 12),
    f.ctl.v = false → 0x40 ≤ t.cls → 8 ≤ f.regs.length → rs.length = f.regs.length → rs.drop 8 = f.regs.drop 8 →
    let g := ({ f.enter hd t lane count resume with regs := rs, preds := ps } : Fibre).leave
    g.regs = f.regs ∧ g.preds = f.preds ∧ g.ctl.h = f.ctl.h ∧ g.ctl.v = false ∧ g.ctl.tcause = f.ctl.tcause ∧
    g.ctl.tinfo = f.ctl.tinfo ∧ g.ctl.trappc = f.ctl.trappc ∧ g.ctl.tresume = f.ctl.tresume ∧ g.ctl.taddr = f.ctl.taddr)

/-! ### The end of a word and of a group -/

/-- A word with C = 1 that is not the last of its packet hands over to the next word of its group: only the slot and the group's
switch marker change (R12, R21). A group that asks for nothing ends with every fibre of it at the next PC in sequence and one more
group in %RETIRED (but for a system handler of a deterministic gang: R322, log entry 26), free to issue again four cycles later;
registers, predicates, other fibres, memory, results and accesses stay (R15, R72, R76, R78). -/
def Obligations.GroupEndAdvances : Prop :=
  (∀ (s : State) (h : Head) (n : Nat), s.issue.lanes ≠ [] → h.c = true → s.issue.slot + n < 3 →
    s.endWord h n = { s with issue := { s.issue with slot := s.issue.slot + n, marker := s.issue.marker || h.s } }) ∧
  (∀ (s : State) (h : Head) (n : Nat) (g : Gang), s.issue.lanes ≠ [] →
    s.gang s.issue.gang = some g → h.c = false → h.s = false → s.issue.marker = false → s.issue.reqs = [] →
    (∀ k ∈ s.issue.lanes, k < s.fibres.length ∧ (s.fibre k).ctl.after = .next) →
    let t := s.endWord h n
    let next := s.issue.slot + n
    t.issue.lanes = [] ∧ t.mem = s.mem ∧ t.results = s.results ∧ t.accesses = s.accesses ∧ t.gangs = s.gangs ∧ t.parts = s.parts ∧
    (∀ k, k ∉ s.issue.lanes → t.fibre k = s.fibre k) ∧
    (∀ k ∈ s.issue.lanes, t.fibre k = { s.fibre k with ctl := { (s.fibre k).ctl with
        pkt := if 3 ≤ next then s.issue.pkt + 12 else s.issue.pkt
        slot := if 3 ≤ next then 0 else next
        retired := if g.det = true ∧ (s.srcOf k).ctl.v = true then (s.fibre k).ctl.retired else (s.fibre k).ctl.retired + 1
        readyAt := s.cycle s.issue.core + 4, yielding := none } } ∧
      ∃ b ∈ t.bands, k ∈ b.members ∧ b.park = .none))

/-- A group with a switch marker ends with its fibres parked together while some of them wait for a result (R12, R26). -/
def Obligations.MarkerParksBand : Prop := ∀ (s : State) (h : Head) (n : Nat) (g : Gang), s.issue.lanes ≠ [] →
  s.gang s.issue.gang = some g → h.c = false → (h.s = true ∨ s.issue.marker = true) → s.issue.reqs = [] →
  (∀ k ∈ s.issue.lanes, k < s.fibres.length ∧ (s.fibre k).ctl.after = .next) → (∃ k ∈ s.issue.lanes, s.outstanding k = true) →
  let t := s.endWord h n
  t.issue.lanes = [] ∧ t.mem = s.mem ∧ t.results = s.results ∧ t.accesses = s.accesses ∧
  ∃ b ∈ t.bands, b.park = .marker ∧ (∀ k, k ∈ b.members ↔ k ∈ s.issue.lanes)

/-- What the words of a group asked for, at its end: a branch takes its fibre to a packet of its code at slot 0, and an address
that is no packet of it leaves class 0x05 due, with the word's PC and the address, and the fibre at the next PC in sequence; the
flags of floating-point words go to %EXC together, and those that %TRAPEN enabled before the group leave one trap of class 0x04
due, with the enabled flags as cause and the PC of the lowest-slot word that raised one of them (R15, R16, R50, R97, R98, R103).
-/
def Obligations.GroupEndRequests : Prop :=
  (∀ (det : Bool) (base : DWord) (is : Issue) (next : Nat) (src : Fibre) (pc target : DWord) (c : Ctl),
    let r := endCtl det base is next src [.jump pc target] c
    let legal := base.toNat ≤ target.toNat ∧ (target.toNat - base.toNat) % 12 = 0
    (legal → r.pkt = target ∧ r.slot = 0 ∧ r.due = c.due) ∧
    (¬ legal → r.pkt = (if 3 ≤ next then is.pkt + 12 else is.pkt) ∧ r.slot = (if 3 ≤ next then 0 else next) ∧
      r.due = c.due ++ [{ cls := 5, cause := 0, pc := pc, addr := target, flags := 0 }]) ∧
    r.after = c.after ∧ r.exc = c.exc) ∧
  (∀ (det : Bool) (base : DWord) (is : Issue) (next : Nat) (src : Fibre)
      (pa pb : DWord) (fa fb : Flags) (c : Ctl),
    let r := endCtl det base is next src [.flags pa fa, .flags pb fb] c
    let on := (fa ||| fb) &&& src.ctl.trapen
    r.exc = c.exc ||| fa ||| fb ∧
    (on = 0 → r.due = c.due) ∧
    (on ≠ 0 → r.due = c.due ++ [{ cls := 4, cause := on.toNat, pc := if fa &&& src.ctl.trapen ≠ 0 then pa else pb, addr := 0, flags := on }]))

/-! ### Words that end, trap or return, to the end of their group -/

/-- END, TRAP and RETT as the last word of a group of one fibre that waits for nothing: END ends the fibre; TRAP enters the
tenant handler with class 0x06, the code's low 8 bits as cause and the whole code in %TADDR; RETT in a tenant handler goes to a
word of the code that %TRESUME named before the group, with H 0. No byte of memory and no register of the fibre changes (R16, R81, R171, R172). -/
def Obligations.LoneFibreEnds : Prop := ∀ (s : State) (h : Head) (k : Nat) (g : Gang) (code : BitVec 12), s.Lone h k g →
  (s.clear (.endF h) → ∃ t, exec (.endF h) s = .next t ∧ (t.fibre k).live = false ∧ (∀ b ∈ t.bands, k ∉ b.members) ∧
    (t.fibre k).regs = (s.fibre k).regs ∧ t.mem = s.mem ∧ t.issue.lanes = []) ∧
  (s.clear (.trap h code) → (s.fibre k).ctl.v = false → (s.fibre k).ctl.h = false → g.handler ≠ 0 →
    ∃ t, exec (.trap h code) s = .next t ∧ t.mem = s.mem ∧ (t.fibre k).regs = (s.fibre k).regs ∧ (t.fibre k).preds = (s.fibre k).preds ∧
      (t.fibre k).ctl.tcause = BitVec.ofNat 32 (code.toNat % 256 * 256 + 6) ∧ (t.fibre k).ctl.taddr = BitVec.ofNat 64 code.toNat ∧
      (t.fibre k).ctl.trappc = s.wordPc ∧ (t.fibre k).ctl.h = true ∧ (t.fibre k).ctl.v = false ∧
      (t.fibre k).ctl.pkt = g.handler ∧ (t.fibre k).ctl.slot = 0 ∧ (t.fibre k).live = (s.fibre k).live) ∧
  (∀ back, back = (s.srcOf k).ctl.tresume → s.clear (.rett h) → (s.fibre k).ctl.v = false → g.codeBase.toNat ≤ back.toNat → (back.toNat - g.codeBase.toNat) % 4 = 0 →
    g.phase = .resident →
    ∃ t, exec (.rett h) s = .next t ∧ t.mem = s.mem ∧ (t.fibre k).regs = (s.fibre k).regs ∧ (t.fibre k).preds = (s.fibre k).preds ∧
      (t.fibre k).ctl.h = false ∧ (t.fibre k).ctl.v = false ∧ (t.fibre k).ctl.pc = back)

/-! ### Events: observation and registers -/

/-- Writes to a core's observation block complete: TRLOST_CLEAR, HISTOGRAM_CLEAR and COUNTER_STATUS_CLEAR clear what they name;
TRCTL_WRITE takes a value whose fixed bits are 0, an interval under 256 reading back as 256 beside the enables written (DEDUCED: log
entry 33); EVENT_SELECT_WRITE follows the partition's two event maps, an event that this part has not reading as zero (DEDUCED: log
entry 29) and one that traps leaving the record (0x42, partition, core * 256 + event), whose layout is the model's choice (log entry
45); TRACE_SAMPLE takes a sample due and restarts its interval (R183, R185 to R187). -/
def Obligations.ObservationEventsComplete : Prop := ∀ (s : State) (core : Nat), core < 192 → core < s.cores.length →
  (∃ t, exec (.trlostClear core) s = .next t ∧ OnlyCore s t core ∧ t.core core = { s.core core with trlost := 0 }) ∧
  (∀ k < 17, ∃ t, exec (.histogramClear core k) s = .next t ∧ OnlyCore s t core ∧
    t.core core = { s.core core with hist := (s.core core).hist.set k 0 }) ∧
  (∀ v, ∃ t, exec (.counterStatusClear core v) s = .next t ∧ OnlyCore s t core ∧
    t.core core = { s.core core with ctrStatus := (s.core core).ctrStatus &&& ~~~ v }) ∧
  (∀ v : DWord, v.toNat < 2 ^ 32 → v.toNat / 4 % 64 = 0 → ∃ t, exec (.trctlWrite core v) s = .next t ∧ OnlyCore s t core ∧
    (t.core core).trctl = (if v.toNat / 256 < 256 then BitVec.ofNat 64 (256 * 256 + v.toNat % 4) else v)) ∧
  (∀ (k : Nat) (v : DWord) (p : Nat), k < 8 → s.clusterOwner (core / 4) = some p → v.toNat < 512 → s.pf.ready = true →
    ((s.part p).evAllow.getLsbD (v.toNat % 256) = true → ∃ t, exec (.eventSelectWrite core k v) s = .next t ∧ OnlyCore s t core ∧
      (t.core core).selectors = (s.core core).selectors.set k v ∧ (t.core core).muted = (s.core core).muted.set k false ∧
      (0x1A ≤ v.toNat % 256 → (t.core core).counters = (s.core core).counters.set k 0 ∧
        (256 ≤ v.toNat → (t.core core).ctrStatus = (s.core core).ctrStatus ||| 0x100))) ∧
    ((s.part p).evAllow.getLsbD (v.toNat % 256) = false → (s.part p).evTrap.getLsbD (v.toNat % 256) = true →
      ∃ t, exec (.eventSelectWrite core k v) s = .next t ∧ t = { s with pf := t.pf } ∧
        t.pf.records = s.pf.records ++ [⟨0x42, p, core * 256 + v.toNat % 256⟩]) ∧
    ((s.part p).evAllow.getLsbD (v.toNat % 256) = false → (s.part p).evTrap.getLsbD (v.toNat % 256) = false →
      ∃ t, exec (.eventSelectWrite core k v) s = .next t ∧ OnlyCore s t core ∧
        (t.core core).selectors = (s.core core).selectors.set k v ∧ (t.core core).muted = (s.core core).muted.set k true ∧
        (t.core core).counters = (s.core core).counters.set k 0)) ∧
  ((s.core core).trctl.getLsbD 1 = true → (s.core core).trctl.toNat / 256 % 2 ^ 24 ≤ (s.core core).sinceSample →
    ∃ t, exec (.traceSample core) s = .next t ∧ t.mem = s.mem ∧ t.fibres = s.fibres ∧
      (t.core core).sinceSample = (s.core core).sinceSample - (s.core core).trctl.toNat / 256 % 2 ^ 24)

/-- Host writes to the registers of the physical function complete: MAPCOMMIT of 1 schedules both maps for the next round and
MAP_APPLY then puts them in use where every enabled partition keeps a slot (that it takes them as they then stand, and that another
value of MAPCOMMIT is refused with reason 1, is DEDUCED: log entry 32); PFSTAT_CLEAR clears the refusal flag; MPLIM and MSHARE take a
limit and a share that fit and refuse the others with reason 1 (R249, R356, R359). Writes to a partition's block complete: PCTL
enables a partition that has its slots and share, which then reaches only what it owns, refuses one that has not with reason 1, and
disables one; a write to PCTL of an enabled partition is taken (DEDUCED: log entry 35); REGISTER_WRITE stores a lease under 2^24 and refuses a
save-block size that is no multiple of 4,096; RANGE_ENTRY_WRITE of an entry that keeps R237 and leads into the partition's memory
writes it and drops every cached translation of the partition, and of another leaves it invalid with reason 1 (R237, R238, R249,
R359). -/
def Obligations.RegisterWritesComplete : Prop :=
  (∀ (s : State) (v : DWord),
    (∃ t, exec (.mapcommit 1) s = .next t ∧ OnlyPf s t ∧ t.pf.commit = true ∧ t.pf.commitAt = State.pealRound s.time + 1 ∧
      t.pf.netLive = s.pf.netLive) ∧
    (v ≠ 1 → ∃ t, exec (.mapcommit v) s = .next t ∧ Refused s t 0x8080 1) ∧
    (s.pf.commit = true → s.pf.commitAt ≤ State.pealRound s.time →
      (∀ p < 16, (s.part p).enabled = true → s.slotsOk p s.pf.netmap s.pf.bridgemap = true) →
      ∃ t, exec .mapApply s = .next t ∧ OnlyPf s t ∧ t.pf.netLive = s.pf.netmap ∧ t.pf.bridgeLive = s.pf.bridgemap ∧ t.pf.commit = false) ∧
    (∃ t, exec (.pfstatClear v) s = .next t ∧ OnlyPf s t ∧
      t.pf.pfstat = (if v.getLsbD 63 then BitVec.ofNat 64 (s.pf.pfstat.toNat % 2 ^ 63) else s.pf.pfstat)) ∧
    (600 ≤ v.toNat → v.toNat ≤ 1800 → s.sharesOk v.toNat = true → ∃ t, exec (.mplim v) s = .next t ∧ OnlyPf s t ∧ t.pf.mplim = v.toNat) ∧
    (v.toNat < 600 ∨ 1800 < v.toNat ∨ s.sharesOk v.toNat = false → ∃ t, exec (.mplim v) s = .next t ∧ Refused s t 0x4008 1) ∧
    (∀ p, p < 16 → p < s.parts.length → v.toNat < 4096 →
      (s.updPart p (fun x => { x with mshare := v.toNat })).sharesOk s.pf.mplim = true →
      ∃ t, exec (.mshare p v) s = .next t ∧ OnlyPart s t p ∧ t.part p = { s.part p with mshare := v.toNat }) ∧
    (∀ p, p < 16 → 4096 ≤ v.toNat ∨ (s.updPart p (fun x => { x with mshare := v.toNat })).sharesOk s.pf.mplim = false →
      ∃ t, exec (.mshare p v) s = .next t ∧ Refused s t (0x4100 + 8 * p) 1)) ∧
  (∀ (s : State) (p : Nat) (v : DWord), p < 16 → p < s.parts.length →
    (∃ t, exec (.pctlWrite p 0) s = .next t ∧ OnlyPart s t p ∧ t.part p = { s.part p with enabled := false }) ∧
    ((s.part p).enabled = true → ∃ t, exec (.pctlWrite p 1) s = .next t ∧ OnlyPart s t p ∧ t.part p = s.part p) ∧
    ((s.part p).enabled = false →
      let ok := s.slotsOk p s.pf.netLive s.pf.bridgeLive = true ∧ (s.updPart p (fun x => { x with enabled := true })).sharesOk s.pf.mplim = true
      let out := fun (e : RangeEntry) => e.valid = true ∧
        s.inPartition p ((e.base + e.offset).toNat % 2 ^ 52) (e.limit.toNat - e.base.toNat) = false
      (ok → ∃ t, exec (.pctlWrite p 1) s = .next t ∧ t = { s with parts := t.parts, tlb := t.tlb, walks := t.walks } ∧
        (∀ j, j ≠ p → t.part j = s.part j) ∧ (t.part p).enabled = true ∧ (t.part p).queues = (s.part p).queues ∧
        (t.part p).ranges.length = (s.part p).ranges.length ∧
        (∀ k < (s.part p).ranges.length, let e := (s.part p).ranges.getD k .zero
          (out e → (t.part p).ranges.getD k .zero = { e with control := e.control &&& ~~~1 }) ∧
          (¬ out e → (t.part p).ranges.getD k .zero = e)) ∧
        ((∀ e ∈ (s.part p).ranges, ¬ out e) → t.tlb = s.tlb ∧ t.walks = s.walks)) ∧
      (¬ ok → ∃ t, exec (.pctlWrite p 1) s = .next t ∧ Refused s t (0x10000 + 0x1000 * p) 1)) ∧
    (v.toNat < 2 ^ 24 → ∃ t, exec (.registerWrite p false (0x10000 + 0x1000 * p + 8) v) s = .next t ∧ OnlyPart s t p ∧
      t.part p = { s.part p with lease := v.toNat }) ∧
    ((s.part p).enabled = false → v.toNat % 4096 ≠ 0 →
      ∃ t, exec (.registerWrite p false (0x10000 + 0x1000 * p + 0x50) v) s = .next t ∧ Refused s t (0x10000 + 0x1000 * p + 0x50) 1) ∧
    ((s.part p).enabled = true → ∃ t, exec (.registerWrite p false (0x10000 + 0x1000 * p + 0x50) v) s = .next t ∧
      Refused s t (0x10000 + 0x1000 * p + 0x50) 3) ∧
    (∀ k < 48, ∀ base limit off ctl : DWord,
      let ok := base.toNat % 65536 = 0 ∧ limit.toNat % 65536 = 0 ∧ off.toNat % 65536 = 0 ∧ base.toNat < limit.toNat ∧ ctl.toNat < 64 ∧
        ctl.toNat / 16 ≠ 3 ∧ s.inPartition p ((base + off).toNat % 2 ^ 52) (limit.toNat - base.toNat) = true
      (ok → ∃ t, exec (.rangeEntryWrite p k base limit off ctl) s = .next t ∧
        t = { s with parts := t.parts, tlb := s.tlb.filter (fun e => e.part != p), walks := s.walks.filter (fun e => e.part != p) } ∧
        (t.part p).ranges = (s.part p).ranges.set k ⟨base, limit, off, ctl⟩) ∧
      (¬ ok → ∃ t, exec (.rangeEntryWrite p k base limit off ctl) s = .next t ∧ t = { s with parts := t.parts, pf := t.pf } ∧
        t.pf.pfstat = BitVec.ofNat 64 (2 ^ 63 + 2 ^ 24 + (0x10000 + 0x1000 * p + 0x100 + 32 * k + 24)) ∧
        (t.part p).ranges = (s.part p).ranges.set k ⟨base, limit, off, ctl &&& ~~~1⟩)))

/-! ### Events: bands -/

/-- The events of a band complete: INSTRUCTION_FETCH copies the packet of a band's PC, which system code reads untranslated, as a
unit, in its core's turn where its bytes are intact, a deterministic gang's as it sees memory; SWITCH_MARKER_RESUME lets a parked band whose results are in go on at its PC; YIELD_EXPIRY frees
a band after 64 cycles, or once the bands it waits for have issued; and a crew whose live fibres are all parked at meetings, and
not all at one, takes the crew-mismatch trap (R17, R26, R83, R87, R229; that a fetch reads through the view of R317 is DEDUCED: log
entry 24). CREW_MISMATCH: no fibre of the crew is left at its meeting, and
where all of them wait for nothing, outside a handler, each enters the tenant handler with class 0x03 and the PC of its own
meeting (R87, R97, R171). -/
def Obligations.BandEventsComplete : Prop :=
  (∀ (s : State) (b : Band) (g : Gang), s.band b.bid = some b → s.gang b.gang = some g →
    g.phase = .resident →
    let lead := s.fibre (b.members.headD 0)
    (lead.ctl.v = true → s.packetKeys b = .ok ((List.range 12).map (fun i => lead.ctl.pkt.toNat + i), false)) ∧
    (∀ ks, b.park = .none → s.holdsIssue b = false → s.bandCopy b = none → s.packetKeys b = .ok (ks, false) →
      s.bandCore b < s.cores.length → s.coreTurns g.part (s.bandCore b) ks = true → (∀ k ∈ ks, s.lostAt k = none) →
      s.portsServe (.instructionFetch b.bid) →
      let seen := if g.det = true ∧ lead.ctl.v = false then s.view g.id else s.mem
      ∃ t c, exec (.instructionFetch b.bid) s = .next t ∧ t.mem = s.mem ∧ t.fibres = s.fibres ∧ t.bands = s.bands ∧
        c ∈ (t.core (s.bandCore b)).fetch ∧ c.pkt = lead.ctl.pkt ∧ c.sys = lead.ctl.v ∧ c.ctx = g.ctx ∧
        c.words = (List.range 3).map (fun i => BitVec.ofNat 32 (natOfBytes (((ks.map seen.byte).drop (4 * i)).take 4)))) ∧
    (b.park = .marker → b.members ≠ [] → (∀ k ∈ b.members, k < s.fibres.length ∧ s.outstanding k = false ∧ (s.fibre k).ctl.after = .next ∧
        (s.fibre k).ctl.due = [] ∧ (s.fibre k).ctl.pendTrap = false) →
      ∃ t, exec (.switchMarkerResume b.bid) s = .next t ∧ t.mem = s.mem ∧ (∀ k, k ∉ b.members → t.fibre k = s.fibre k) ∧
        ∀ k ∈ b.members, t.fibre k = { s.fibre k with ctl := { (s.fibre k).ctl with yielding := none } } ∧
          ∃ b' ∈ t.bands, k ∈ b'.members ∧ b'.park ≠ .marker ∧
            ((∀ j ∈ b.members, (s.fibre j).ctl.yielding = none) → b'.park = .none)) ∧
    (∀ till others, b.park = .yielded till others → (till ≤ s.cycle (s.bandCore b) ∨ ∀ y ∈ s.bands, y.bid ∉ others) →
      exec (.yieldExpiry b.bid) s = .next { s with bands := s.bands.map (fun y => if y.bid = b.bid then { y with park := .none } else y) })) ∧
  (∀ (s : State) (gid crew : Nat) (l : List (Nat × DWord)), s.crewMeetings gid crew = some l →
    (∃ x ∈ l, ∃ y ∈ l, x.2 ≠ y.2) →
    ∃ t, exec (.crewMismatch gid crew) s = .next t ∧ ((∀ x ∈ l, (s.fibre x.1).ctl.v = false) → t.mem = s.mem) ∧
      (∀ k ∈ s.liveCrew gid crew, (t.fibre k).regs = (s.fibre k).regs ∧ (t.fibre k).preds = (s.fibre k).preds ∧
        ∀ b ∈ t.bands, k ∈ b.members → b.park ≠ .meeting) ∧
      ((∀ x ∈ l, s.outstanding x.1 = false ∧ (s.fibre x.1).ctl.due = [] ∧ (s.fibre x.1).ctl.pendTrap = false ∧ (s.fibre x.1).ctl.v = false ∧
          (s.fibre x.1).ctl.h = false ∧ (s.handlers gid).tenant ≠ 0) →
        ∀ x ∈ l, let c := (t.fibre x.1).ctl
          c.tcause = 3 ∧ c.trappc = x.2 ∧ c.tresume = x.2 ∧ c.taddr = 0 ∧ c.pkt = (s.handlers gid).tenant ∧ c.slot = 0 ∧ c.h = true ∧ c.v = false))

/-! ### Accesses at their places -/

/-- Reading and writing a byte-addressed place: it reads as the number its n bytes give, lowest first; a store writes those n bytes
and no other, and changes no full/empty bit; setting its bit sets the bits of the words it covers and no other, and changes no byte
(R3, R141, R142). -/
def Obligations.PlacesReadAndWrite : Prop := ∀ (m : Memory) (key n attr v : Nat) (f : Bool), m.wf = true → 0 < n →
  let l := Loc.ofBytes key n attr
  l.value m = m.read key n ∧ (l.store m v).wf = true ∧ (l.setFull m f).wf = true ∧
    (∀ a, (l.store m v).byte a = if key ≤ a ∧ a < key + n then BitVec.ofNat 8 (v / 2 ^ (8 * (a - key))) else m.byte a) ∧
    (∀ w, (l.store m v).full w = m.full w) ∧ (∀ a, (l.setFull m f).byte a = m.byte a) ∧
    (∀ w, (l.setFull m f).full w = if key / 8 ≤ w ∧ w ≤ (key + n - 1) / 8 then f else m.full w) ∧
    (l.full m = true ↔ ∀ w, key / 8 ≤ w → w ≤ (key + n - 1) / 8 → m.full w = true)

/-- What an access does at a place in scratch once its condition holds: it is finished, no register of a fibre changes at once,
and a load sends its value (consuming it when so formed), a store writes its data and the bit of its form, an atomic writes its
operation's result and sends the old value where it returns one, TAGR sends and TAGS sets the bit, END.J decrements and sets the
word full at 0 (R82, R137, R141, R146, R154 to R157). A request that is ready is performed at its place where its condition holds
there: in a scratch bank (BANK_ACCESS), and at its home slice for a gang that is not deterministic, what it needs of its line there, in
its core's turn (HOME_REQUEST), but for the wait for a channel's tag. A bank access whose condition does not hold waits, with no effect; one past the
scratch of its gang traps, as does a global one whose translation does (R135, R137, R142, R143, R229, R235, R343). -/
def Obligations.PlacedAccessesComplete : Prop :=
  (∀ (s : State) (a : Access) (l : Loc), l.elem = none → l.scratch = true →
    let done := fun (m : Memory) => { s with mem := m, accesses := s.accesses.filter (fun x => x.id != a.id) }
    let send := fun (u : State) (w : List (Nat × Word)) =>
      { u with nextId := u.nextId + 1, results := u.results ++ [⟨u.nextId, a.fibre, a.pc, false, true, w, [], 0, none, 0, []⟩] }
    (∀ n sx f, a.op = .load n sx f →
      s.act a l = send (done (if f = .consuming then l.setFull s.mem false else s.mem)) (loadWrites a.dst n sx (l.value s.mem))) ∧
    (∀ n f v, a.op = .store n f v → s.act a l = done (match f with
      | .filling => l.setFull (l.store s.mem v) true
      | .forceFill => l.setFull (l.store s.mem v) true
      | .forceEmpty => l.setFull (l.store s.mem v) false
      | _ => l.store s.mem v)) ∧
    (∀ n f x, a.op = .rmw n f x false → s.act a l = done (l.store s.mem (f.apply n (l.value s.mem) x))) ∧
    (∀ n f x, a.op = .rmw n f x true →
      s.act a l = send (done (l.store s.mem (f.apply n (l.value s.mem) x))) (loadWrites a.dst n false (l.value s.mem))) ∧
    (a.op = .tagr → s.act a l = send (done s.mem) [(a.dst, if l.full s.mem then 1 else 0)]) ∧
    (∀ f, a.op = .tags f → s.act a l = done (l.setFull s.mem f)) ∧
    (a.op = .dec → s.act a l = done (if l.value s.mem = 1 then l.setFull (l.store s.mem (l.value s.mem + 2 ^ 64 - 1)) true
      else l.store s.mem (l.value s.mem + 2 ^ 64 - 1)))) ∧
  (∀ (s : State) (a : Access) (g : Gang) (c : Context), s.access a.id = some a →
    s.gang a.gang = some g → s.context g.ctx = some c → s.ready a = true → a.arrived = none → s.calm → s.groupOf a = [a] → s.sram = [] →
    s.portsServe (.bankAccess a.id) → s.portsServe (.homeRequest a.id) →
    let b := { a with arrived := some s.time }
    (∀ key n, a.inScratch = true → a.op ≠ .cpyq → a.op ≠ .lnkq → s.scratchOf (s.fibre a.fibre) a.addr = .ok (some key) →
      s.bankTurn ((key - 2 ^ 52) / 2 ^ 19) (a.core % 4) = true → a.op.size = some n → s.inBudget b = true →
      let l := Loc.ofBytes key n 0
      l.scratch = true → (a.op.ready s.mem l = true → ∃ t, exec (.bankAccess a.id) s = .next t ∧ t.mem = (s.act b l).mem ∧
        t.fibres = (s.act b l).fibres ∧ t.results = (s.act b l).results ∧ t.accesses = (s.act b l).accesses) ∧
      (a.op.ready s.mem l = false → ∃ t, exec (.bankAccess a.id) s = .next t ∧ t.mem = s.mem ∧ t.fibres = s.fibres ∧
        t.results = s.results ∧ t.accesses = s.accesses.map (fun x => if x.id == a.id then { b with loc := some l, phase := .waiting s.nextId false } else x))) ∧
    (∀ cause, a.inScratch = true → a.op ≠ .cpyq → a.op ≠ .lnkq → s.scratchOf (s.fibre a.fibre) a.addr = .error cause →
      exec (.bankAccess a.id) s = .next (s.accessTrap a 0x11 cause a.addr)) ∧
    (g.det = false → a.op.size.isSome = true → a.inScratch = false → s.sideLog = [] → s.hitsL1 a = false →
      (∀ cls cause x, s.find c a = .trap cls cause x → exec (.homeRequest a.id) s = .next (s.accessTrap a cls cause x)) ∧
      (∀ l e, s.find c a = .place l e → l.elem = none → l.scratch = false → s.coreTurnAt g.part a.core (s.sliceOf g.part l) = true →
        (a.op.needsData = true → s.missing l.keys = none) → s.lossCause a l = none → s.inBudget b = true → a.op.ready s.mem l = true →
        let b' := { b with noticed := true }
        ∃ t, exec (.homeRequest a.id) s = .next t ∧ t.mem = (s.act b' l).mem ∧ t.fibres = (s.act b' l).fibres ∧
          t.results = (s.act b' l).results ∧ t.accesses = (s.act b' l).accesses)))

/-- The other events of an access complete: WAIT_REPRESENT, in its core's turn at the slice, performs a refused access whose
condition holds now and else gives it a wait entry and a stamp; STORE_ACKNOWLEDGEMENT
raises %HORIZON; L1_LEASE_EXPIRY drops the copy; RELEASE_CONDITION_MET frees a held store, and ends a fence with its %HORIZON;
FE_TIMEOUT ends a waiting access with class 0x12; SIDE_LOG_REPLAY performs an answered entry at its home, ends one whose address
now traps with that trap, and asks again for one that faults again; VARIABLE_RESULT_RETURN delivers a result, whole (DEDUCED: log entry
9), and those of the XU pipe that one band issued in the order of issue (DEDUCED: log entry 83), each but for the wait for a channel's
tag (R25, R126, R139, R144, R148, R149, R160, R231, R243, R343). FAULT_ANSWER completes: an answer that names no request of a live context changes nothing; a
mapped one ends the request, and the accesses that the fault held are presented again, and a failed one that no swap-in waits for
ends the context; that every status code but 0 counts as failed is the model's choice (log entry 79) (R245, R247, R333). -/
def Obligations.AccessEventsComplete : Prop :=
  (∀ (s : State) (a : Access), s.access a.id = some a →
    let gone := s.accesses.filter (fun x => x.id != a.id)
    (∀ l t, a.phase = .refused → a.loc = some l → l.scratch = false → s.isDet a.gang = false → s.calm → s.lossCause a l = none → s.sram = [] →
      a.arrived = some t → s.inBudget a = true → (a.op.needsData = true ∨ l.elem.isSome = true → s.missing (State.placeKeys l) = none) →
      s.portsServe (.waitRepresent a.id) →
      let sl := s.sliceOf (s.partOf a.gang) l
      s.coreTurnAt (s.partOf a.gang) a.core sl = true →
      (a.op.ready s.mem l = true → ∃ u, exec (.waitRepresent a.id) s = .next u ∧ u.mem = (s.act a l).mem ∧
        u.fibres = (s.act a l).fibres ∧ u.results = (s.act a l).results ∧ u.accesses = (s.act a l).accesses) ∧
      (a.op.ready s.mem l = false → s.onChip sl < 8 →
        let st := s.stamps.getD sl 0
        ∃ u, exec (.waitRepresent a.id) s = .next u ∧ u.mem = s.mem ∧ u.fibres = s.fibres ∧ u.results = s.results ∧
          u.stamps = s.stamps.set sl (st + 1) ∧
          u.accesses = s.accesses.map (fun x => if x.id == a.id then { a with loc := some l, phase := .waiting st false } else x))) ∧
    (∀ t, a.phase = .performed t → s.owns a.fibre a = true → (s.fibre a.fibre).live = true →
      ∃ u, exec (.storeAcknowledgement a.id) s = .next u ∧ u.mem = s.mem ∧ u.accesses = gone ∧ (∀ k, k ≠ a.fibre → u.fibre k = s.fibre k) ∧
        let f := s.fibre a.fibre
        u.fibre a.fibre = { f with ctl := { f.ctl with horizon := BitVec.ofNat 64 (max f.ctl.horizon.toNat t) } }) ∧
    (∀ core line x, x ∈ s.l1 → x.core = core → x.line = line → x.expiry ≤ s.time →
      exec (.l1LeaseExpiry core line) s = .next { s with l1 := s.l1.filter (fun y => !(y.core == core && y.line == line)) }) ∧
    (∀ n f v, a.op = .store n f v → (f = .filling ∨ f = .forceFill) → a.phase = .issued → a.released = false → s.mayPresent a = true →
      s.releaseMet a = true → s.portsServe (.releaseConditionMet a.id) → exec (.releaseConditionMet a.id) s = .next { s with
        accesses := s.accesses.map (fun x => if x.id == a.id then { a with released := true } else x) }) ∧
    (∀ e k sc h, a.op = .fence e k sc → a.phase = .issued → s.fenceMet a e k sc = some h → s.portsServe (.releaseConditionMet a.id) →
      exec (.releaseConditionMet a.id) s = .next { s.updCtls [a.fibre] (fun _ c => { c with horizon := h }) with accesses := gone }) ∧
    (∀ t, a.arrived = some t → a.op.waits = true → a.op ≠ .layacq → a.budget ≠ 0 → t + a.budget ≤ s.time → a.unperformed = true →
      a.phase ≠ .held → s.portsServe (.feTimeout a.id) →
      let cause := match a.op with
        | .load _ _ .consuming => 2
        | .ldt .consuming .. => 2
        | .store .. => 3
        | .stt .. => 3
        | .sign _ => 8
        | .barw _ => 10
        | _ => 1
      exec (.feTimeout a.id) s = .next { s.updCtls [a.fibre] (fun _ c => { c with
        due := c.due ++ [{ cls := 0x12, cause := cause, pc := a.pc, addr := a.addr, flags := 0 }] }) with accesses := gone }) ∧
    (∀ (e : LogEntry) (c : Context), s.sideLog.find? (fun x => x.acc.id == e.acc.id) = some e → e.answered = true → s.logTurn e = true →
      s.context e.ctx = some c → s.logGroup e = [e] → s.portsServe (.sideLogReplay e.acc.id) →
      let b := { e.acc with phase := .issued, released := true }
      s.roundHolds b = false →
      (∀ cls cause x, s.find c b = .trap cls cause x → ∃ u, exec (.sideLogReplay e.acc.id) s = .next u ∧ u.mem = s.mem ∧
        u.sideLog = s.sideLog.filter (fun y => y.acc.id != e.acc.id) ∧
        u.fibres = (s.updCtls [b.fibre] (fun _ c => { c with
          due := c.due ++ [{ cls := cls, cause := cause, pc := b.pc, addr := x, flags := 0 }] })).fibres) ∧
      (∀ cause gpa va, s.find c b = .fault cause gpa va → ∃ u, exec (.sideLogReplay e.acc.id) s = .next u ∧
        u = ({ s with sideLog := s.sideLog.map (fun y => if y.acc.id == e.acc.id then { y with answered := false } else y) } : State).pageRequest
          c.id va cause gpa b.op.need.kind) ∧
      (∀ l x, s.find c b = .place l x → s.calm → s.isDet b.gang = false → l.scratch = false → s.sram = [] → b.op.logs = true →
        s.lineFirst b l = none → s.lossCause b l = none →
        let sl := s.sliceOf (s.partOf b.gang) l
        s.coreTurnAt (s.partOf b.gang) b.core sl = true →
        let v := { s with sideLog := s.sideLog.filter (fun y => y.acc.id != e.acc.id), accesses := b :: s.accesses }
        let b' := { b with noticed := true, arrived := some (b.arrived.getD s.time) }
        ∃ u, exec (.sideLogReplay e.acc.id) s = .next u ∧ u.mem = (v.act b' l).mem ∧ u.accesses = (v.act b' l).accesses ∧
          u.fibres = s.fibres ∧ u.sideLog = v.sideLog)) ∧
    (∀ r : Result, s.results.find? (fun x => x.id == r.id) = some r →
      (r.xu = true → ∀ x ∈ s.results, x.xu = true → x.batch < r.batch → ∀ k ∈ x.lanes, k ∉ r.lanes) → r.fibre < s.fibres.length →
      s.portsServe (.variableResultReturn r.id) →
      ∃ u, exec (.variableResultReturn r.id) s = .next u ∧
        u = { s with results := s.results.filter (fun x => x.id != r.id), fibres := u.fibres } ∧
        (∀ k, k ≠ r.fibre → u.fibre k = s.fibre k) ∧
        let f := s.fibre r.fibre
        let on := r.flags &&& f.ctl.trapen
        (u.fibre r.fibre).regs = (f.setRegs r.writes).regs ∧
        (u.fibre r.fibre).preds = (r.preds.foldl (fun f p => f.setPred p.1 p.2.1 p.2.2) f).preds ∧
        (u.fibre r.fibre).ctl = { f.ctl with
          exc := f.ctl.exc ||| r.flags
          due := f.ctl.due ++ r.trap.toList
            ++ (if on = 0 then [] else [{ cls := 4, cause := on.toNat, pc := r.pc, addr := 0, flags := on }]) })) ∧
  (∀ (s : State) (p : Nat) (tag status area : DWord), s.serving p = true → s.portsServe (.faultAnswer p tag status area) →
    let mine := s.contexts.find? (fun c => c.part == p && c.live && c.ctxidWord == tag.extractLsb' 0 32)
    (mine = none → exec (.faultAnswer p tag status area) s = .next s) ∧
    (∀ c, mine = some c → (∀ r ∈ c.requests, r.number ≠ tag.toNat / 2 ^ 32) → exec (.faultAnswer p tag status area) s = .next s) ∧
    (∀ c r, mine = some c → r ∈ c.requests → r.number = tag.toNat / 2 ^ 32 → status.toNat % 256 = 0 → s.calm → s.migrations = [] →
      ∃ t, exec (.faultAnswer p tag status area) s = .next t ∧ t.mem.cells = s.mem.cells ∧ t.fibres = s.fibres ∧
        t.contexts = s.contexts.map (fun x => if x.id == c.id then
          { c with requests := c.requests.filter (fun y => y.number != tag.toNat / 2 ^ 32) } else x) ∧
        (∀ a ∈ t.accesses, a.phase = .held → ∀ g, s.gang a.gang = some g → g.ctx ≠ c.id) ∧
        (∀ e ∈ t.sideLog, e.ctx = c.id → e.answered = true) ∧ ∀ j ∈ t.jobs, j.ctx = c.id → j.stalled = false) ∧
    (∀ c r, mine = some c → r ∈ c.requests → r.number = tag.toNat / 2 ^ 32 → status.toNat % 256 ≠ 0 →
      (∀ w ∈ (s.part p).swaps, w.stallRange = none) →
      ∃ t, exec (.faultAnswer p tag status area) s = .next t ∧ ((∀ a ∈ s.accesses, a.op ≠ .layacq) → t.mem = s.mem) ∧ (∀ x ∈ t.contexts, x.id = c.id → x.live = false) ∧
        ∀ b ∈ t.bands, ∀ g, s.gang b.gang = some g → g.ctx ≠ c.id))

/-! ### Events of the front -/

/-- The front's queue and node events complete: the doorbells SQTAIL and CQHEAD take an index inside the ring and no other, which is the
model's choice (log entry 79); QSIZE writes the sizes of a queue that is off, turns it on with its indices and phase as after reset
(DEDUCED: log entry 57) where its rings lie in the partition, and turns one off, no other bit changing while it is on (DEDUCED: log
entry 36); NODE_POST posts the record at SQHEAD in the context its context record names (DEDUCED: log entry 56), ready at once where
its counter is not above 0; NODE_COPY posts one copy job on the least-loaded cluster; NODE_MARKER and NODE_RESERVED_KIND end their
node, a marker with a payload with error 2 (DEDUCED: log entry 58); PRIORITY_AGING raises a waiting launch by one each millisecond;
before READY a queue write has no effect (R295, R297, R300 to R303, R308). NODE_COMPLETE: a node that is no launch, its work ended, has
its status word force-filled at its completion address where it has one, once its writes have their completion times behind them and
the host has seen those to its memory; each successor's counter goes down by one, poisoned by an error, and the slot is free. A launch
completes once all its gangs are placed and done, and they leave with it (R299, R302 to R304). What reads or writes memory waits while
a channel has no tag for it (R343). -/
def Obligations.NodeEventsComplete : Prop :=
  (∀ (s : State) (p n : Nat) (d : Node), p < 16 → p < s.parts.length →
    let ended := fun (e r : Nat) => s.setNode p n { d with phase := .ended e r }
    (∀ (q : Nat) (v : DWord), q < 8 → s.pf.ready = false →
      exec (.sqtail p q v) s = .next s ∧ exec (.cqhead p q v) s = .next s ∧ exec (.qsize p q v) s = .next s) ∧
    (∀ (q : Nat) (v : DWord), q < 8 → s.pf.ready = true →
      let x := s.queueOf p q
      let put := fun (y : Queue) => s.updPart p (fun b => { b with queues := b.queues.set q y })
      exec (.sqtail p q v) s = .next (if v.toNat < 2 ^ (x.size.toNat % 16) then put { x with sqtail := v.toNat } else s) ∧
      exec (.cqhead p q v) s = .next (if v.toNat < 2 ^ (x.size.toNat / 256 % 16) then put { x with cqhead := v.toNat } else s) ∧
      (x.size.getLsbD 31 = true → v.getLsbD 31 = false → exec (.qsize p q v) s = .next (put { x with size := v &&& 0xF0F })) ∧
      (∀ a b : Nat, x.size.getLsbD 31 = false → v = BitVec.ofNat 64 (a + 256 * b) → 4 ≤ a → a < 16 → 4 ≤ b → b < 16 →
        exec (.qsize p q v) s = .next (put { x with size := v })) ∧
      (∀ a b : Nat, x.size.getLsbD 31 = false → v = BitVec.ofNat 64 (a + 256 * b + 2 ^ 31) → 4 ≤ a → a < 16 → 4 ≤ b → b < 16 →
        (s.gpKeys p x.base.toNat 1 (64 * 2 ^ a)).isSome = true → (s.gpKeys p x.cqbase.toNat 2 (16 * 2 ^ b)).isSome = true →
        x.base.toNat % 64 = 0 → x.cqbase.toNat % 16 = 0 →
        exec (.qsize p q v) s = .next (put { x with size := v, sqtail := 0, sqhead := 0, cqhead := 0, cqtail := 0, phase := true })) ∧
      (∀ (b c : List Byte) (u : State) (cid : Nat), s.serving p = true → x.size.getLsbD 31 = true → x.sqhead ≠ x.sqtail →
        s.gpRead p (x.base.toNat + 64 * x.sqhead) 64 = some b → s.gpRead p x.ctx.toNat 32 = some c →
        let s1 := put { x with sqhead := (x.sqhead + 1) % 2 ^ (x.size.toNat % 16) }
        s.portsServe (.nodePost p q) → s1.openContext p c = some (u, cid) → (nodeRec b).bad = false → u.node p (nodeRec b).id = none →
        let r := nodeRec b
        let count := (u.nodeSlot p r.id).counter + r.deps
        ∃ t y, exec (.nodePost p q) s = .next t ∧ t.mem = s.mem ∧ t.node p r.id = some y ∧ y.kind = r.kind ∧ y.prio = r.prio ∧ y.ctx = cid ∧
          y.payload = BitVec.ofNat 64 r.payload ∧ y.queue = some q ∧
          (0 < count → y.phase = .posted ∧ (t.nodeSlot p r.id).counter = count) ∧
          (count ≤ 0 → (u.nodeSlot p r.id).poison = false → u.liveContext cid = true → y.phase = .ready ∧ y.readyAt = s.time))) ∧
    (s.nodeReady p n d → d.kind = 6 → s.portsServe (.nodeMarker p n) →
      ∃ t, exec (.nodeMarker p n) s = .next t ∧ UpToHomes (ended (if d.payload = 0 then 0 else 2) 0) t) ∧
    (s.nodeReady p n d → 7 ≤ d.kind → s.portsServe (.nodeReservedKind p n) →
      ∃ t, exec (.nodeReservedKind p n) s = .next t ∧ UpToHomes (ended 2 0) t) ∧
    (∀ card k, s.nodeReady p n d → d.kind = 1 → d.payload.toNat % 128 = 0 → d.payload.toNat / 2 ^ 56 = 0 →
      s.frontRead d.ctx d.payload.toNat 128 = .ok card → s.ccardBad none 0 d.ctx card = false →
      (s.copyData none 0 d.ctx card).1.meets (s.copyData none 0 d.ctx card).2 = false → s.leastLoaded p = some k → s.copyLoad k < 32 →
      s.portsServe (.nodeCopy p n) →
      ∃ (j : Job) (t : State), exec (.nodeCopy p n) s = .next t ∧ UpToHomes { s with jobs := s.jobs ++ [j], nextId := s.nextId + 1, parts := t.parts } t ∧
        t.node p n = some { d with phase := .dispatched } ∧ j.kind = .copy ∧ j.cluster = k ∧ j.card = card ∧ j.node = some n ∧
        j.ctx = d.ctx ∧ j.prio = d.prio ∧ j.phase = .queued) ∧
    (s.node p n = some d → d.kind = 0 → d.phase = .dispatched → d.waitSince + 1000000 * (d.aged + 1) ≤ s.time → d.prio + d.aged < 255 →
      exec (.priorityAging p n) s = .next (s.setNode p n { d with aged := d.aged + 1 }))) ∧
  (∀ (s : State) (p n : Nat) (d : Node), p < s.parts.length → s.node p n = some d →
    d.ctime ≤ s.time → d.cq = false → s.hostSeen p n = true → s.portsServe (.nodeComplete p n) →
    (∀ e r, d.kind ≠ 0 → d.phase = .ended e r →
      let free := fun (u : State) => (d.succ.foldl (fun s x => s.decrement p (e != 0) x) u).setSlot p ⟨n, 0, false, none⟩
      let status := r % 2 ^ 32 * 2 ^ 32 + e * 2 ^ 24 + d.det * 256 + 32
      (d.caddr = 0 → ∃ t, exec (.nodeComplete p n) s = .next t ∧ t = free s ∧ t.node p n = none ∧ t.mem = s.mem) ∧
      (∀ u, d.caddr ≠ 0 → s.forceFill p d.ctx d.caddr.toNat status = .ok u →
        exec (.nodeComplete p n) s = .next (free u)) ∧
      (∀ m, d.caddr = 0 → d.succ = [m] → m ≠ n → ∃ t, exec (.nodeComplete p n) s = .next t ∧
        (t.nodeSlot p m).counter = max ((s.nodeSlot p m).counter - 1) (-4096) ∧
        (t.nodeSlot p m).poison = ((s.nodeSlot p m).poison || decide (e ≠ 0)))) ∧
    (∀ l, d.kind = 0 → s.launches.find? (fun x => x.part == p && x.node == n) = some l → s.launchDone l = true → l.ctime ≤ s.time →
      d.caddr = 0 → ∃ t, exec (.nodeComplete p n) s = .next t ∧ t.node p n = none ∧ (∀ x ∈ t.launches, x.id ≠ l.id) ∧
        ∀ g ∈ t.gangs, g.launch ≠ l.id))

/-! ### Launches, gangs, deques -/

/-- A launch node whose record and kernel pass every check becomes a launch whose gangs wait, and one that breaks a rule ends with
error 1 (NODE_LAUNCH); GANG_PLACEMENT seats the next gang in ready order where it first fits, its fibres created with their
arguments at the entry, its scratch 0 and full; RESTORE_PLACEMENT seats a saved one, its fibres starting the restore routine in
the system handler, with the save block in %TADDR where the launch is deterministic, and one without fibres runs again at once (R39
to R41, R68, R136, R178, R306 to R309, R322). -/
def Obligations.LaunchesPlaceGangs : Prop := ∀ (s : State) (p n : Nat) (d : Node), p < s.parts.length →
  (∀ l, s.nodeReady p n d → d.kind = 0 → s.readLaunch p n d = .ok l → s.portsServe (.nodeLaunch p n) →
    ∃ t : State, exec (.nodeLaunch p n) s = .next t ∧ UpToHomes { s with launches := s.launches ++ [l], nextId := s.nextId + 1, parts := t.parts } t ∧
    t.node p n = some { d with phase := .dispatched }) ∧
  (s.nodeReady p n d → d.kind = 0 → s.readLaunch p n d = .error → s.portsServe (.nodeLaunch p n) →
    ∃ t, exec (.nodeLaunch p n) s = .next t ∧ UpToHomes (s.setNode p n { d with phase := .ended 1 0 }) t) ∧
  (∀ w k b, s.serving p = true → s.nextPlacement p = some (w, k, b) → w.gang.phase = .waiting →
    ∃ t g fs, exec (.gangPlacement p) s = .next t ∧ g ∈ t.gangs ∧ s.nextId ≤ g.id ∧ g.launch = w.launch.id ∧ g.cluster = k ∧ g.base = b ∧
      g.phase = .resident ∧ g.placedAt = s.time ∧ g.size = w.gang.size ∧ g.slots = w.gang.slots ∧
      t.fibres = s.fibres ++ fs ∧ fs.length = w.gang.size * w.gang.slots ∧
      (∀ f ∈ fs, f.gang = g.id ∧ f.preds = 0 ∧ f.ctl.pkt = w.gang.codeBase + BitVec.ofNat 64 (12 * w.launch.entry) ∧ f.ctl.slot = 0 ∧
        f.ctl.budget = 0x1000000 ∧ f.ctl.h = false ∧ f.ctl.v = false ∧
        f.regs = (if f.live then w.gang.args else List.replicate 8 0) ++ List.replicate (w.gang.regs - 8) 0) ∧
      ∀ i < w.gang.size, ∀ a, scratchKey (4 * k + b + i) (g.scratchBase.getD i 0) ≤ a →
        a < scratchKey (4 * k + b + i) (g.scratchBase.getD i 0) + w.gang.scratch → t.mem.byte a = 0 ∧ (g.scratchBase.getD i 0 % 8 = 0 → t.mem.full (a / 8) = true)) ∧
  (∀ w k b gid g, s.gang gid = some g → g.part = p → s.serving p = true → s.nextPlacement p = some (w, k, b) → w.gang = g → g.phase = .saved →
    let saved := fun (j : Nat) => j < s.fibres.length ∧ (s.fibre j).gang = gid ∧ g.savedLive.contains (s.fibre j).idx = true
    ((∃ j, saved j) → ∃ t h, exec (.restorePlacement gid) s = .next t ∧ t.gang gid = some h ∧ h.phase = .restoring ∧ h.cluster = k ∧
      h.base = b ∧
      (∀ j, saved j → let f := t.fibre j
        f.live = true ∧ f.ctl.pkt = (s.part p).syscode + 12 * (s.part p).restoreEntry ∧ f.ctl.slot = 0 ∧ f.ctl.h = true ∧
          f.ctl.v = true ∧ f.ctl.taddr = (if g.det then (s.handlers gid).saveBlock else 0)) ∧
      ∀ j, (s.fibre j).gang ≠ gid → t.fibre j = s.fibre j) ∧
    ((∀ j, ¬ saved j) → s.liveOf gid = [] → ∃ t h, exec (.restorePlacement gid) s = .next t ∧ t.gang gid = some h ∧ h.phase = .resident ∧
      h.cluster = k ∧ h.base = b ∧ ∀ j, (s.fibre j).gang ≠ gid → t.fibre j = s.fibre j))

/-- Pre-emption: PREEMPT_DECISION marks the victims it has save blocks for, and reserves what they free; PREEMPT_TRAP, once a
victim issues no more groups, withdraws its waits, and, once it has drained, sends every live fibre of it to the save routine with
class 0x40, its save block in %TADDR; a victim with no live fibre is saved at once (R171, R173, R311, R312). -/
def Obligations.PreemptionTakesVictims : Prop := ∀ (s : State),
  (∀ p w v, s.serving p = true → s.decision p = some (w, v) → v.length ≤ (s.freeBlocks p v.length).length →
    let ids := v.map (·.id)
    exec (.preemptDecision p) s = .next { s with gangs := s.gangs.map (fun g => if ids.contains g.id then
      { g with phase := .preempting, reservedFor := some w.me
               saveBlock := some (g.saveBlock.getD ((s.freeBlocks p v.length).getD (ids.idxOf g.id) 0)) } else g) }) ∧
  (∀ g, s.gang g.id = some g → g.phase = .preempting → s.issueStopped g = true →
    ∃ t, exec (.preemptTrap g.id) s = .next t ∧ t.gang g.id = some { g with phase := .draining } ∧
      (∀ a ∈ t.accesses, a.gang = g.id → a.withdrawable = false) ∧
      (∀ k, (t.fibre k).regs = (s.fibre k).regs ∧ (t.fibre k).preds = (s.fibre k).preds ∧ (t.fibre k).ctl.pc = (s.fibre k).ctl.pc)) ∧
  (∀ g, s.gang g.id = some g → g.phase = .draining → s.drained g = true → (∀ k ∈ s.liveOf g.id, (s.fibre k).ctl.v = false) →
    ∃ t h, exec (.preemptTrap g.id) s = .next t ∧ t.gang g.id = some h ∧
      h.phase = (if s.liveOf g.id = [] then .saved else .saving) ∧
      (∀ k ∈ s.liveOf g.id, let f := t.fibre k
        f.regs = (s.fibre k).regs ∧ f.preds = (s.fibre k).preds ∧ f.ctl.pkt = (s.handlers g.id).save ∧ f.ctl.slot = 0 ∧
          f.ctl.h = true ∧ f.ctl.v = true ∧ f.ctl.tcause = 0x40 ∧ f.ctl.taddr = (s.handlers g.id).saveBlock ∧
          f.ctl.shadow.regs = (List.range 8).map (s.fibre k).regN ∧ f.ctl.saving = true) ∧
      ∀ k, k ∉ s.liveOf g.id → t.fibre k = s.fibre k)

/-- The events of a core and of a deterministic launch complete: CARVE_APPLY takes a pending scratch size, and drops the copies in
the L1 ways it gives to scratch; DEQUE_TAKE starts a fibre
on the newest entry (the oldest in deterministic mode), DEQUE_STEAL on the oldest of another core of the gang, each with its
argument and join counter; DET_ROUND opens a round; CARILLON_RELEASE performs a finished gang's staged stores in order (R134,
R168, R169, R314, R318). -/
def Obligations.CoreAndRoundEventsComplete : Prop := ∀ (s : State) (core : Nat) (g : Gang),
  (∀ k, core < 192 → core < s.cores.length → (s.core core).pendCarve = some k →
    (∀ x ∈ State.onCore ((s.occupying (s.nextId, 0)).filter (fun y => y.phase != .saved)) core,
      x.1.scratch = 0 ∨ x.1.scratchBase.getD x.2 0 + x.1.scratch ≤ 65536 * k) →
    ∃ t, exec (.carveApply core) s = .next t ∧ t = { s with cores := t.cores, l1 := t.l1 } ∧
      t.core core = { s.core core with carve := k, pendCarve := none } ∧
      t.l1 = s.l1.filter (fun x => x.core != core || decide (x.way < 8 - k))) ∧
  (∀ wg k, core < s.cores.length → s.forkGang core = some (g, wg) → (s.core core).dqCount ≠ 0 → s.freeSlot g wg = some k → 4 ≤ g.regs →
    let e := if g.det then (s.core core).entry 0 else (s.core core).entry ((s.core core).dqCount - 1)
    ∃ t, exec (.dequeTake core) s = .next t ∧ t.mem = s.mem ∧ (t.core core).dqCount = (s.core core).dqCount - 1 ∧
      (t.fibre k).live = true ∧ (t.fibre k).pairN 0 = e.arg ∧ (t.fibre k).pairN 1 = e.join ∧ (t.fibre k).ctl.pc = e.entry ∧
      ∀ j, j ≠ k → t.fibre j = s.fibre j) ∧
  (∀ wg k c, core < s.cores.length → c < s.cores.length → s.forkGang core = some (g, wg) → g.det = false → (s.core core).dqCount = 0 →
    s.freeSlot g wg = some k → 4 ≤ g.regs →
    let others := ((List.range g.size).map g.core).filter (fun x => x != core)
    (others.filter (fun x => decide ((s.core core).stole < x)) ++ others.filter (fun x => decide (x ≤ (s.core core).stole))).find?
      (fun x => (s.core x).dqCount != 0) = some c →
    let e := (s.core c).entry 0
    ∃ t, exec (.dequeSteal core) s = .next t ∧ t.mem = s.mem ∧ (t.core c).dqCount = (s.core c).dqCount - 1 ∧ (t.core core).stole = c ∧
      (t.fibre k).live = true ∧ (t.fibre k).pairN 0 = e.arg ∧ (t.fibre k).pairN 1 = e.join ∧ (t.fibre k).ctl.pc = e.entry ∧
      ∀ j, j ≠ k → t.fibre j = s.fibre j) ∧
  (s.gang g.id = some g → g.det = true → g.phase = .resident → s.roundEnded g = true →
    exec (.detRound g.id) s = .next (s.setGang { g with round := g.round + 1, turns := [] })) ∧
  (∀ p n l, s.launches.find? (fun x => x.part == p && x.node == n) = some l → l.det = true → l.error = 0 → s.nextRelease l = some g →
    g.stagedPosts = [] → s.migrations = [] → s.calm → (∀ e ∈ g.staged, s.stagedElem g.ctx e = none ∧ s.stagedLoc g.ctx e ≠ none) →
    s.portsServe (.carillonRelease p n) → ∃ t, exec (.carillonRelease p n) s = .next t ∧ t.fibres = s.fibres ∧
      t.mem = g.staged.foldl (fun m e => s.applyStaged g.ctx m e) s.mem ∧
      t.gangs = s.gangs.map (fun x => if x.id == g.id then { g with staged := [], stagedPosts := [], released := true } else x))

/-! ### Tensor regions -/

/-- The events of a region complete: REGION_CREATE gives a sound descriptor a region under the lowest free index with the next check,
its handle the node's result, both its copies 0 but for the bits of the current one, which policy 1 sets and policy 2 clears, and every
word of its range full; REGION_DESTROY ends one that no layer names; MONITOR_NOTICE scores the oldest notice of an
open window, and WINDOW_END closes a full one; DRIFT_TILE moves the next tile, the last one ending the move (R256 to R258, R263 to
R266). -/
def Obligations.RegionEventsComplete : Prop := ∀ (s : State) (p n : Nat) (d : Node) (r : Region),
  (∀ b c i frames, p < s.parts.length → s.calm → s.nodeReady p n d → d.kind = 4 → s.frontRead d.ctx d.payload.toNat 64 = .ok b →
    s.context d.ctx = some c → s.freeRegionIndex d.ctx = some i →
    let x := tensorDesc b
    let check := ((c.checks.lookup i).getD 0 + 1) % 4096
    let y := x.region s.nextId p d.ctx i check
    x.bad = false → (∀ z ∈ s.regions, z.ctx = d.ctx → z.base.toNat + z.size.toNat ≤ x.base ∨ x.base + x.size ≤ z.base.toNat) →
    s.sideOk d.ctx x = true → s.tensorPages c x.base x.size = true →
    s.rangeFrames y 0 (x.size / 65536) = .ok frames → s.portsServe (.regionCreate p n) →
    ∃ t, exec (.regionCreate p n) s = .next t ∧ t.regions = s.regions ++ [y] ∧ t.fibres = s.fibres ∧
      t.node p n = some { d with phase := .ended 0 (BitVec.ofNat 64 (check * 2 ^ 20 + i)).toNat, ctime := max d.ctime (s.framesTime frames) } ∧
      (s.migrations = [] → (∀ w, frames.contains (8 * w / 65536 * 65536) = true → t.mem.full w = true) ∧
        (y.policy ≠ 1 → ∀ off < 2 * (y.copyBytes + y.bitBytes), off / 65536 < frames.length →
          t.mem.byte (frames.getD (off / 65536) 0 + off % 65536) = 0) ∧
        (y.policy = 1 → frames.Nodup → (∀ f ∈ frames, f % 65536 = 0) →
          ∀ off < 2 * (y.copyBytes + y.bitBytes), off / 65536 < frames.length →
            t.mem.byte (frames.getD (off / 65536) 0 + off % 65536) =
              if y.copyBytes ≤ off ∧ off < y.copyBytes + y.bitBytes then 0xFF else 0))) ∧
  (p < s.parts.length → s.nodeReady p n d → d.kind = 5 → s.regionOf d.ctx d.payload = some r → r.pooled = false →
    (∀ x ∈ s.regions, x.ctx = r.ctx → x.pooled = true → x.side ≠ r.handle) → s.portsServe (.regionDestroy p n) →
    ∃ t, exec (.regionDestroy p n) s = .next t ∧ t.mem = s.mem ∧ t.regions = s.regions.filter (fun x => x.id != r.id) ∧
      t.node p n = some { d with phase := .ended 0 0 }) ∧
  (∀ m rest, s.region r.id = some r → r.notices = m :: rest → r.wcount < r.window → exec (.monitorNotice r.id) s =
    .next { s with regions := s.regions.map (fun x => if x.id == r.id then { r with notices := rest }.notice m.1 m.2 else x) }) ∧
  (s.region r.id = some r → r.window ≤ r.wcount → exec (.windowEnd r.id) s =
    .next { s with regions := s.regions.map (fun x => if x.id == r.id then r.windowDone else x) }) ∧
  (∀ l, s.region r.id = some r → r.target = some l → (r.pooled = true → r.frames ≠ []) → s.driftFault r l r.tileK = none →
    s.portsServe (.driftTile r.id) → ∃ t x, exec (.driftTile r.id) s = .next t ∧ t.fibres = s.fibres ∧ t.region r.id = some x ∧
      if r.tiles l ≤ r.tileK + 1 then x.copy = 1 - r.copy ∧ x.cur = l else x = { r with tileK := r.tileK + 1 })

/-! ### Engines -/

/-- The grants of the matrix engine complete: the pass of a command whose checks hold acts on its bank, with no register or word read by
another changed meanwhile (MMA accumulates a chunk into the bank, its bits kept with the flags; DRAIN takes the bank, which Z zeroes,
and then writes its lines to scratch as full words, one at a time; PRIME loads it); one whose check fails ends with that error, as
does one whose pass meets a lost word of its tiles, the loss counted (R350, R354); and the next grant is 8 cycles away (R192, R200 to
R208, R292). That a DRAIN's
lines go in an order of their own is the model's choice (log entry 81). -/
def Obligations.MatrixGrantsComplete : Prop := ∀ (s : State) (j : Job) (g : Gang), s.job j.id = some j → j.kind = .matrix →
  j.gang = some g.id → s.gang g.id = some g →
  let m := mcard j.card
  let now := (s.cluster j.cluster).cycle
  let put := fun (u : State) (y : Job) => { u with jobs := u.jobs.map (fun x => if x.id == j.id then y else x) }
  let s1 := s.updCluster j.cluster (fun c => { c with grantAt := now + 8 })
  let s2 := s1.engineTook j.part j.cluster 5 (s.operandKeys j)
  let failed := fun (e : Nat) => put (if e = 7 then s1.noteLoss j.cluster 2 else s1) { j with error := e, phase := .running, raised := none }
  let ran := fun (bank : List Word) (busy : Nat) (y : Job) => put { s2 with
    gangs := s.gangs.map (fun x => if x.id == g.id then { g with banks := g.banks.set m.bank bank, bankBusy := g.bankBusy.set m.bank busy } else x) }
    { y with phase := .running, since := now, raised := none }
  ((s.granted j.cluster).map (·.id) = some j.id →
    (∀ i, m.op = 0 ∧ i = Instr.mma j.id ∨ m.op = 1 ∧ i = Instr.drain j.id ∨ m.op = 2 ∧ i = Instr.prime j.id → j.phase = .queued →
      s.jobCheck j ≠ 0 → exec i s = .next (failed (s.jobCheck j))) ∧
    ((j.phase = .queued → s.jobCheck j = 0) →
      (m.op = 0 → s.passLost j = true → exec (.mma j.id) s = .next (failed 7)) ∧
      (m.op = 0 → s.passLost j = false →
        let r := s2.mmaPass j (if m.z = true ∧ j.pos = 0 then List.replicate 4096 0 else State.bankOf g m.bank)
        exec (.mma j.id) s = .next (ran r.1 (now + 8 + (s2.passOutliers j + 3) / 4)
          { j with pos := j.pos + 1, flags := j.flags ||| r.2, stream := j.stream.drop 1 })) ∧
      (m.op = 1 → j.phase = .queued →
        let bank := State.bankOf g m.bank
        exec (.drain j.id) s = .next (ran (if m.z = true then List.replicate 4096 0 else bank) (now + 8) { j with
          pos := 1, stream := (List.range 256).map (fun i => (List.range 16).map (fun w => (16 * i + w, (bank.getD (16 * i + w) 0).toNat))) })) ∧
      (∀ k, m.op = 2 → s2.cardScratch j.gang j.wg m.a 16384 = some k →
        exec (.prime j.id) s = .next (ran ((List.range 4096).map (fun i => BitVec.ofNat 32 (s.mem.read (k + 4 * i) 4))) (now + 8)
          { j with pos := 1 })))) ∧
  (∀ k, State.draining j = true → s.cardScratch j.gang j.wg m.a 16384 = some k → s.calm →
    ∃ t n, exec (.drain j.id) s = .next t ∧ n < j.stream.length ∧
      (let line := j.stream.getD n []
        let at_ := k + 4 * (line.headD (0, 0)).1
        let bytes := (line.map (fun w => bytesOfNat 4 w.2)).flatten
        t.mem = (s.mem.writeBytes at_ bytes).setFulls (at_ / 8) true (bytes.length / 8)) ∧
      t.jobs = (put s { j with stream := j.stream.eraseIdx n }).jobs ∧ t.fibres = s.fibres ∧ t.gangs = s.gangs)

/-- The other events of the engines complete: COMMAND_POST moves a counted command into a free table entry, ENTRY_RAISE raises one
that has waited more than 4,096 cycles and could be granted, STREAM_FETCH_RETURN brings the next pass's operand as memory then holds
it, or ends the command with error 5 or 7 or stalls it on a fault, COPY_JOB_START starts the first ready job while fewer than four
run, JOB_COMPLETE ends a job's work with its %SATCNT and a record of its error, (4, status), whose layout is the model's choice (log
entry 45), and COMPLETION_ACTION force-fills the status word, makes the arrival, or ends the job without one, in each case but for the
wait for a channel's tag (R160, R178, R192, R203, R206, R208, R209, R212, R217, R343). -/
def Obligations.EngineEventsComplete : Prop := ∀ (s : State) (j : Job), s.job j.id = some j →
  let now := (s.cluster j.cluster).cycle
  let put := fun (y : Job) => { s with jobs := s.jobs.map (fun x => if x.id == j.id then y else x) }
  (∀ g, j.phase = .counted → j.gang = some g.id → s.gang g.id = some g → g.phase = .resident →
    (s.entries j.kind j.cluster).length < 32 → (∀ x ∈ s.jobs, x.kind = j.kind → x.gang = j.gang → x.phase = .counted → j.id ≤ x.id) →
    exec (.commandPost j.id) s = .next (put { j with phase := .queued, since := now, raised := none })) ∧
  (j.raised = none → j.since + 4096 < now → (j.kind = .matrix → s.eligible j = true) →
    (j.kind = .copy → j.phase = .queued ∧ s.holdsEntry j = true ∧ s.edgesClear j = true) →
    exec (.entryRaise j.id) s = .next { put { j with raised := some s.nextId } with nextId := s.nextId + 1 }) ∧
  (j.kind = .matrix → (mcard j.card).op = 0 → (mcard j.card).bs = true → j ∈ s.entries .matrix j.cluster → j.stalled = false → j.error = 0 →
    j.fetched < s.passes j → j.fetched < j.pos + 4 → s.edgesClear j = true → (j.phase = .queued → s.jobCheck j = 0) →
    s.portsServe (.streamFetchReturn j.id) →
    let failed := fun (e : Nat) => put { j with error := e, phase := .running, raised := none }
    let keys := s.streamKeys j j.fetched
    (s.streamRegion j = none → exec (.streamFetchReturn j.id) s = .next (failed 5)) ∧
    (∀ r, s.streamRegion j = some r → s.streamFault j j.fetched = none → s.engineTurn j.part j.cluster 5 keys = true →
      ((∃ k ∈ keys, s.lostKey k = true) → ∃ t, exec (.streamFetchReturn j.id) s = .next t ∧ t.mem = s.mem ∧ t.fibres = s.fibres ∧
        t.jobs = (failed 7).jobs ∧ t.pf.eccLost = min (s.pf.eccLost + 1) (2 ^ 64 - 1)) ∧
      ((∀ k ∈ keys, s.lostKey k = false) → ∃ t, exec (.streamFetchReturn j.id) s = .next t ∧ t.mem = s.mem ∧ t.fibres = s.fibres ∧
        t.job j.id = some { j with fetched := j.fetched + 1
                                   stream := j.stream ++ [(s.streamBox j j.fetched).map (s.streamElem (s.jobView j) r)] })) ∧
    (∀ r cause gpa va c, s.streamRegion j = some r → s.streamFault j j.fetched = some (cause, gpa, va) → s.context j.ctx = some c → cause ≠ 5 →
      (∀ q ∈ c.requests, q.range ≠ va / 65536) → ∃ t y, exec (.streamFetchReturn j.id) s = .next t ∧ t.fibres = s.fibres ∧
        t.job j.id = some { j with stalled := true } ∧ t.context j.ctx = some y ∧
        y.requests = c.requests ++ [⟨c.nextRequest, va / 65536, cause⟩])) ∧
  (j.kind = .copy →
    (State.firstRank ((s.entries .copy j.cluster).filter (fun x => x.phase == .queued && s.edgesClear x))).map (·.id) = some j.id →
    ((s.entries .copy j.cluster).filter (fun x => x.phase == .running)).length < 4 → (s.cluster j.cluster).present = true →
    exec (.copyJobStart j.id) s = .next (put { j with phase := .running, since := now, raised := none })) ∧
  (j.phase ≠ .complete → j.phase ≠ .counted → s.jobDone j = true → (j.kind = .matrix → s.bankFree j ≤ now) →
    let c := ccard j.card
    let y := { j with phase := .complete, stalled := false, ctime := if j.ctime = 0 then s.time else j.ctime }
    ∃ t, exec (.jobComplete j.id) s = .next t ∧ t.jobs = (put y).jobs ∧ (∀ k, some k ≠ j.fibre → t.fibre k = s.fibre k) ∧ t.mem = s.mem ∧
      (∀ k, j.fibre = some k → k < s.fibres.length → (t.fibre k).regs = (s.fibre k).regs ∧
        (j.kind = .copy → quantising (s.sideFmt j.ctx c.sh c.src c.sfmt) (s.sideFmt j.ctx c.dh c.dst c.dfmt) (c.sc != 0) c.chain = true →
          (t.fibre k).ctl.satcnt = BitVec.ofNat 32 j.sat)) ∧
      (∀ x, s.context j.ctx = some x → ∃ z, t.context j.ctx = some z ∧
        z.fatal = if j.error = 0 then x.fatal else x.fatal ++ [(4, j.status)])) ∧
  (∀ c, j.phase = .complete → j.ctime ≤ s.time → j.stalled = false → j.node = none → s.context j.ctx = some c → c.live = true →
    s.portsServe (.completionAction j.id) →
    let a := if j.kind = .copy then ((ccard j.card).action, (ccard j.card).comp) else ((mcard j.card).action, (mcard j.card).comp)
    let status := (if j.kind = .copy then j.sat else j.pos) % 2 ^ 32 * 2 ^ 32 + j.error * 2 ^ 24 + 32
      + (if j.kind = .matrix then j.flags.toNat else 0)
    let others := fun (t : State) => ∀ k, (some k ≠ j.fibre → t.fibre k = s.fibre k) ∧
      t.fibre k = { s.fibre k with ctl := { (s.fibre k).ctl with jobsTill := (t.fibre k).ctl.jobsTill } }
    (a.1 = 0 → exec (.completionAction j.id) s = .next (s.jobGone j)) ∧
    (∀ l, s.sideLoc j a.2 (0, 0) 64 .write = .ok l → s.engineTurn j.part j.cluster (if j.kind = .copy then 4 else 5) l.keys = true →
      s.migrations = [] → s.calm →
      (a.1 = 1 → (∀ g, j.gang = some g → s.isDet g = true → l.scratch = true) → ∃ t, exec (.completionAction j.id) s = .next t ∧
        t.mem = (l.store s.mem status).setFull (l.first / 8) true ∧ others t ∧ t.jobs = s.jobs.filter (fun x => x.id != j.id)) ∧
      (a.1 ≠ 0 → a.1 ≠ 1 → ∃ t, exec (.completionAction j.id) s = .next t ∧
        t.mem = l.store s.mem (barrierArrive (BitVec.ofNat 64 (l.value s.mem))).1.toNat ∧ others t ∧
        t.jobs = s.jobs.filter (fun x => x.id != j.id))))

/-! ### Models and swaps -/

/-- A model record is written word by word while it is disabled, the enable bit apart (DEDUCED: log entry 52), and only its eviction
priority while it is enabled; an enable that passes the checks makes every layer absent and the record enabled, and one that fails
sets the refusal flag; a disable is refused while a layer is held, takes place when the model's last swap-in has ended where one is in
flight, and else evicts every layer, whose regions are pooled no longer (DEDUCED: log entry 52) (R325, R328, R329). Swap nodes and
swap-ins: a loading node of a resident layer ends at once, one of an absent layer starts a swap-in, and one of a layer whose swap-in
is in flight joins it; an evicting node ends with error 7 while a hold stands and else marks the layer's word empty; a swap-in takes
its frames first come, and when its writes have passed its residency word takes the next epoch and becomes full; a failed one gives
its frames back and keeps its cause; an evicted layer's frames return to the pool once its accesses are done (R328, R332 to R336).
What reads or writes memory waits while a channel has no tag for it (R343). -/
def Obligations.ModelEventsComplete : Prop :=
  (∀ (s : State) (p m : Nat), p < 16 → p < s.parts.length → m < 64 →
    m < (s.part p).models.length → s.pf.ready = true →
    let r := s.modelRec p m
    let put := fun (f : ModelRec → ModelRec) => s.updPart p (fun x => { x with models := x.models.modify m f })
    let refused := s.updPart p (fun x => { x with vfRefused := true })
    (∀ v : DWord, r.enabled = false →
      exec (.modelRecordWrite p m 0 v) s = .next (put (fun y => { y with table := v })) ∧
      exec (.modelRecordWrite p m 1 v) s = .next (put (fun y => { y with
        layers := v.toNat % 2 ^ 16, prio := v.toNat / 2 ^ 16 % 256, ctl := v.toNat / 2 ^ 25 % 128, gen := v.toNat / 2 ^ 32 })) ∧
      exec (.modelRecordWrite p m 2 v) s = .next (put (fun y => { y with context := v })) ∧
      exec (.modelRecordWrite p m 3 v) s = .next (put (fun y => { y with rest := v }))) ∧
    (∀ v : DWord, r.enabled = true → v.toNat % 2 ^ 16 = r.layers → v.toNat / 2 ^ 25 % 128 = r.ctl → v.toNat / 2 ^ 32 = r.gen →
      exec (.modelRecordWrite p m 1 v) s = .next (put (fun y => { y with prio := v.toNat / 2 ^ 16 % 256 }))) ∧
    (∀ k v, r.enabled = true → k < 4 → k ≠ 1 → exec (.modelRecordWrite p m k v) s = .next refused) ∧
    (∀ c, r.enabled = false → s.modelCtx p m = some c → s.enableOk p m = true → s.calm → s.portsServe (.modelEnable p m) →
      ∃ t, exec (.modelEnable p m) s = .next t ∧ t.fibres = s.fibres ∧ (t.modelRec p m).enabled = true ∧
        (∀ x ∈ t.regions, x.ctx = c.id → x.handle ∈ (s.modelHandles p m).map (·.1) → x.pooled = true ∧ x.absent = true ∧ x.frames = [])) ∧
    (r.enabled = false → s.enableOk p m = false → s.portsServe (.modelEnable p m) →
      ∃ t, exec (.modelEnable p m) s = .next t ∧ UpToHomes refused t) ∧
    (r.enabled = true → s.portsServe (.modelDisable p m) →
      ((∃ l < r.layers, s.holdCount p m l ≠ 0) → exec (.modelDisable p m) s =
        .next ((put (fun y => { y with disabling := false })).updPart p (fun x => { x with vfRefused := true }))) ∧
      ((∀ l < r.layers, s.holdCount p m l = 0) → (∃ w ∈ (s.part p).swaps, w.model = m) →
        exec (.modelDisable p m) s = .next (put (fun y => { y with disabling := true }))) ∧
      ((∀ l < r.layers, s.holdCount p m l = 0) → (∀ w ∈ (s.part p).swaps, w.model ≠ m) → s.calm → s.migrations = [] →
        ∃ t, exec (.modelDisable p m) s = .next t ∧ t.fibres = s.fibres ∧ t.mem.cells = s.mem.cells ∧ (t.modelRec p m).enabled = false ∧
          ∀ x ∈ t.regions, x.part = p → x.ctx = r.cid → x.handle ∈ (s.modelHandles p m).map (·.1) → x.pooled = false))) ∧
  (∀ (s : State) (p n : Nat) (d : Node) (b : List Byte) (ref : DWord), p < 16 → p < s.parts.length → s.migrations = [] → s.calm →
    let m := refModel ref
    let l := refLayer ref
    (s.nodeReady p n d → d.kind = 2 → s.frontRead d.ctx d.payload.toNat 16 = .ok b → s.refValid p d.ctx ref = true →
      s.portsServe (.nodeSwapIn p n) → s.portsServe (.nodeSwapEvict p n) →
      (State.swapRec b = some (ref, false) → s.resident p m l = true →
        ∃ t, exec (.nodeSwapIn p n) s = .next t ∧ UpToHomes (s.setNode p n { d with phase := .ended 0 0 }) t) ∧
      (State.swapRec b = some (ref, false) → s.resident p m l = false → (s.residency p m l).getLsbD 40 = true →
        ∃ t, exec (.nodeSwapIn p n) s = .next t ∧ UpToHomes ((s.setNode p n { d with phase := .dispatched }).updPart p (fun x => { x with
          swaps := x.swaps.map (fun y => if y.model = m ∧ y.layer = l then { y with nodes := y.nodes ++ [n] } else y) })) t) ∧
      (State.swapRec b = some (ref, false) → s.resident p m l = false → (s.residency p m l).getLsbD 40 = false →
        ∃ t w, exec (.nodeSwapIn p n) s = .next t ∧ t.fibres = s.fibres ∧
          t.mem = s.mem.write (s.layerKey p m l) 8 (s.residency p m l ||| 0x10000000000).toNat ∧
          (t.part p).swaps = (s.part p).swaps ++ [w] ∧ w.model = m ∧ w.layer = l ∧ w.nodes = [n] ∧ w.stage = 0 ∧
          t.node p n = some { d with phase := .dispatched }) ∧
      (State.swapRec b = some (ref, true) → s.holdCount p m l ≠ 0 →
        ∃ t, exec (.nodeSwapEvict p n) s = .next t ∧ UpToHomes (s.setNode p n { d with phase := .ended 7 0 }) t) ∧
      (State.swapRec b = some (ref, true) → s.holdCount p m l = 0 → s.resident p m l = true →
        ∃ t, exec (.nodeSwapEvict p n) s = .next t ∧ t.mem = s.mem.setFull (s.layerKey p m l / 8) false ∧
          t.node p n = some { d with phase := .ended 0 0 })) ∧
    (∀ w, s.swapOf w.id = some (p, w) → s.serving p = true → s.swapActive p w = true → w.stage = 0 → s.firstForFrames p w = true →
      s.layerNeeds p w.model w.layer ≤ (s.freeFrames p).length → s.portsServe (.swapInFrames w.id) →
      ∃ t, exec (.swapInFrames w.id) s = .next t ∧ t.mem = s.mem ∧ t.fibres = s.fibres ∧
        let mine := (s.freeFrames p).take (s.layerNeeds p w.model w.layer)
        (t.part p).poolFree = (s.part p).poolFree.filter (fun f => !mine.contains f) ∧
        (t.part p).swaps = (s.part p).swaps.map (fun y => if y.id == w.id then { w with stage := 1, frames := mine } else y)) ∧
    (∀ w, s.swapOf w.id = some (p, w) → w.stage = 2 → w.ctime ≤ s.time → w.nodes = [] → (s.modelRec p w.model).disabling = false →
      s.portsServe (.swapInComplete w.id) →
      let k := s.layerKey p w.model w.layer
      ∃ t, exec (.swapInComplete w.id) s = .next t ∧ t.fibres = s.fibres ∧
        t.mem = (s.mem.write k 8 ((s.residency p w.model w.layer + 1) &&& 0xFFFFFFFF).toNat).setFull (k / 8) true ∧
        (t.part p).swaps = (s.part p).swaps.filter (fun y => y.id != w.id)) ∧
    (∀ w, s.swapOf w.id = some (p, w) → w.cause ≠ 0 → (∀ a ∈ s.accesses, a.phase ≠ .refused) → w.nodes = [] →
      (s.modelRec p w.model).disabling = false → s.portsServe (.swapInFailure w.id) →
      ∃ t, exec (.swapInFailure w.id) s = .next t ∧ t.fibres = s.fibres ∧
        t.mem = s.mem.write (s.layerKey p w.model w.layer) 8
          ((s.residency p w.model w.layer &&& 0xFFFFFFFF) ||| BitVec.ofNat 64 (w.cause * 2 ^ 32)).toNat ∧
        (∀ f, f ∈ (t.part p).poolFree ↔ f ∈ (s.part p).poolFree ∨ f ∈ w.frames) ∧
        (t.part p).swaps = (s.part p).swaps.filter (fun y => y.id != w.id)) ∧
    (∀ y k i, s.layerSt p k i = some y → y.leaving ≠ [] → s.framesBusy p y.leaving = false → ∃ t, exec (.evictionFramesReturn p k i) s = .next t ∧
      t.mem = s.mem ∧ t.fibres = s.fibres ∧ ∀ f, f ∈ (t.part p).poolFree ↔ f ∈ (s.part p).poolFree ∨ f ∈ y.leaving))

/-! ### Channel ports, spares, power, resets, the host -/

/-- A port request in its turn is performed by the base die: a read reports 0 for a clean sector, 1 for one corrected symbol,
which it counts and rewrites, and 2 for an uncorrectable one; a whole write ends a sector's error; a reply retires the request, a
read's puts the sectors it can give into the slice, a write's with status 2 tells the writer with the record (5, address); a scrub
read takes a tag, which stays in use until its reply is taken, and does the same to its sector; with no tag free it waits; a reserved
kind is dropped and counted (R342 to R345, R348, R349, R354). Spares: a row that needed 16 corrections moves to a spare row with its
correctable sectors corrected and counted; a stack's spare channel takes over a channel whose spare rows are spent, every sector of it
lost where it cannot be read; a spare cluster takes the number of one that no gang or job uses, while the die has one left, and with
none left the cluster leaves its partition, whose tracing and counts end; a cluster that stops responding ends the contexts with a gang
on it (R350, R351). The record's layout is the model's choice (log entry 45), as are that two or more bad symbols are always
uncorrectable, that a scrub pass begins at a channel's sector 0, and that a takeover of a channel that cannot be read loses all its
sectors (log entry 47). -/
def Obligations.PortsAndSparesComplete : Prop :=
  (∀ (s : State) (r : PortReq), s.portReq r.ch r.tag = some r → s.portWait = false →
    let status := fun (n : Nat) => if n = 0 then 0 else if n = 1 then 1 else 2
    let sym := s.symbols r.ch r.sector
    let mark := fun (u : State) (st : Nat × Nat) =>
      u.ports = s.ports.map (fun x => if x.ch == r.ch && x.tag == r.tag then { r with done := true, status := st } else x)
    let retired := s.ports.filter (fun y => !(y.ch == r.ch && y.tag == r.tag))
    (∀ k i, (k, i) ∈ [(PortKind.readSector, Instr.readSector r.ch r.tag), (PortKind.partialWrite, Instr.partialWrite r.ch r.tag)] →
      r.kind = k → r.done = false → s.portTurn r = true → ∃ t, exec i s = .next t ∧ t.mem = s.mem ∧ t.l2 = s.l2 ∧ mark t (status sym, 0) ∧
        (sym = 1 → t.pf.eccHbm = min (s.pf.eccHbm + 1) (2 ^ 64 - 1) ∧ t.symbols r.ch r.sector = 0) ∧
        (1 < sym → t.pf.eccLost = min (s.pf.eccLost + 1) (2 ^ 64 - 1) ∧ t.badSectors = s.badSectors)) ∧
    (r.kind = .readLine → r.done = false → s.portTurn r = true → ∃ t, exec (.readLine r.ch r.tag) s = .next t ∧ t.mem = s.mem ∧ t.l2 = s.l2 ∧
      mark t (status sym, status (s.symbols r.ch (r.sector + 1)))) ∧
    (r.kind = .writeSector → r.done = false → s.portTurn r = true → ∃ t, exec (.writeSector r.ch r.tag) s = .next t ∧ t.mem = s.mem ∧
      mark t r.status ∧ t.badSectors = s.badSectors.filter (fun b => b.1 != sectorAddr r.ch r.sector / 32)) ∧
    (r.kind = .writeLine → r.done = false → s.portTurn r = true → ∃ t, exec (.writeLine r.ch r.tag) s = .next t ∧ t.mem = s.mem ∧
      mark t r.status ∧ t.badSectors = (s.badSectors.filter (fun b => b.1 != sectorAddr r.ch r.sector / 32)).filter
        (fun b => b.1 != sectorAddr r.ch (r.sector + 1) / 32)) ∧
    (r.kind = .readSector ∨ r.kind = .readLine ∨ r.kind = .scrub → r.done = true → s.olderWrite r = false →
      let a := sectorAddr r.ch r.sector
      let gives := fun (i : Nat) => r.kind = .readLine ∧ (i < 32 ∧ r.status.1 ≠ 2 ∨ 32 ≤ i ∧ r.status.2 ≠ 2) ∨
        r.kind = .readSector ∧ r.status.1 ≠ 2 ∧ i / 32 = a % 64 / 32
      ((∀ i < 64, ¬ gives i) → exec (.readData r.ch r.tag) s = .next { s with ports := retired }) ∧
      ((∃ i < 64, gives i) → s.portsServe (.readData r.ch r.tag) →
        ∃ t, exec (.readData r.ch r.tag) s = .next t ∧ t.mem = s.mem ∧ t.fibres = s.fibres ∧ (∃ y ∈ t.l2, y.line = a / 64) ∧
          (∀ y ∈ t.l2, y.line = a / 64 → y.valid.length = 64 → ∀ i < 64, gives i → y.valid.getD i false = true) ∧
          ∀ x, s.l2Line a = some x → t.ports = retired)) ∧
    (r.kind = .writeSector ∨ r.kind = .writeLine ∨ r.kind = .partialWrite → r.done = true → (r.status.1 = 2 → r.ctx = none) →
      exec (.writeDone r.ch r.tag) s = .next { s with ports := retired }) ∧
    (∀ c, r.kind = .partialWrite → r.done = true → r.status.1 = 2 → r.ctx = some c → ∃ t, exec (.writeDone r.ch r.tag) s = .next t ∧
      t.ports = retired ∧ ∀ x ∈ s.contexts, x.id = c → ∃ y ∈ t.contexts, y.id = c ∧ (5, sectorAddr r.ch r.sector) ∈ y.fatal)) ∧
  (∀ (s : State) (ch sec : Nat), ch < 256 → s.portWait = false →
    (∀ hdr : DWord, (hdr.toNat / 2 ^ 60 = 6 ∨ hdr.toNat / 2 ^ 60 = 7 ∨ 10 ≤ hdr.toNat / 2 ^ 60) →
      exec (.portReservedKind ch hdr) s = .next { s with pf := { s.pf with portErrors := s.pf.portErrors + 1 } }) ∧
    (sec < 50331648 → s.portAhead ch sec = false →
      let passed := if sec = 0 then { s with rowFixes := s.rowFixes.filter (fun x => x.1 / 2 ^ 32 != ch) } else s
      let sent := fun (tag st : Nat) => s.ports ++ [{ kind := .scrub, ch := ch, tag := tag, sector := sec, done := true, status := (st, 0) }]
      (s.freeTag ch = none → exec (.scrubRead ch sec) s = .refused (.portBusy "SCRUB_READ")) ∧
      ∀ tag, s.freeTag ch = some tag →
        (s.symbols ch sec = 0 → exec (.scrubRead ch sec) s = .next { passed with ports := sent tag 0 }) ∧
        (s.symbols ch sec = 1 → ∃ t, exec (.scrubRead ch sec) s = .next t ∧ t.mem = s.mem ∧ t.ports = sent tag 1 ∧
          t.symbols ch sec = 0 ∧ t.pf.eccHbm = min (s.pf.eccHbm + 1) (2 ^ 64 - 1)) ∧
        (2 ≤ s.symbols ch sec → ∃ t, exec (.scrubRead ch sec) s = .next t ∧ t.mem = s.mem ∧ t.ports = sent tag 2 ∧
          t.fibres = s.fibres ∧ t.pf.eccLost = min (s.pf.eccLost + 1) (2 ^ 64 - 1) ∧ t.symbols ch sec = s.symbols ch sec ∧
          ∀ p, s.channelOwner ch = some p → p < s.parts.length → (s.part p).retired.length < 64 →
            sectorAddr ch sec / 65536 ∈ (t.part p).retired))) ∧
  (∀ (s : State) (k : Nat),
    (∀ row, k < 256 → k < s.pf.rowsUsed.length → 16 ≤ (s.rowFixes.lookup (k * 2 ^ 32 + row)).getD 0 → s.pf.rowsUsed.getD k 0 < Config.spareRows →
      let fixed := fun (b : Nat × Nat) => channelOf (32 * b.1) == k && Config.rowOf (sectorOf (32 * b.1)) % 2 ^ 32 == row && b.2 == 1
      ∃ t, exec (.spareRowCopy k row) s = .next t ∧ t.mem = s.mem ∧ t.pf = { s.pf with
          rowsUsed := s.pf.rowsUsed.set k (s.pf.rowsUsed.getD k 0 + 1)
          eccHbm := min (s.pf.eccHbm + (s.badSectors.filter fixed).length) (2 ^ 64 - 1) } ∧
        t.badSectors = s.badSectors.filter (fun b => !fixed b)) ∧
    (k < 256 → k / 32 < s.pf.spareChannel.length → s.pf.spareChannel.getD (k / 32) true = false → Config.spareRows ≤ s.pf.rowsUsed.getD k 0 →
      exec (.spareChannelTakeover k true) s = .next { s with pf := { s.pf with spareChannel := s.pf.spareChannel.set (k / 32) true } } ∧
      ∃ t, exec (.spareChannelTakeover k false) s = .next t ∧ t.mem = s.mem ∧ t.pf = { s.pf with spareChannel := s.pf.spareChannel.set (k / 32) true } ∧
        ∀ sec < 50331648, (sectorAddr k sec / 32, 2) ∈ t.badSectors) ∧
    (k < 48 → k < s.clusters.length → s.gangsOn k = [] → (∀ j ∈ s.jobs, j.cluster ≠ k) →
      (s.sparesUsed (k / 24) < 2 → ∃ t, exec (.clusterSpareTakeover k) s = .next t ∧ t.mem = s.mem ∧ t.fibres = s.fibres ∧
        (t.cluster k).present = true ∧ t.sparesUsed (k / 24) = s.sparesUsed (k / 24) + 1 ∧ ∀ x ∈ t.l1, x.core / 4 ≠ k) ∧
      (2 ≤ s.sparesUsed (k / 24) → k < s.pf.clown.length → ∃ t, exec (.clusterSpareTakeover k) s = .next t ∧ t.mem = s.mem ∧
        t.fibres = s.fibres ∧ t.clusterOwner k = none ∧
        (s.clusterOwner k ≠ none → ∀ c < s.cores.length, c / 4 = k → t.core c = { CoreSt.initial with cycle := (s.core c).cycle }))) ∧
    (k < 48 → k < s.clusters.length → ∃ t, exec (.clusterLost k) s = .next t ∧
      ((∀ a ∈ s.accesses, a.op = .layacq → a.phase ≠ .refused ∧ ∀ st q, a.phase ≠ .waiting st q) → t.mem = s.mem) ∧ (t.cluster k).present = false ∧
      ∀ g ∈ s.gangs, g.cluster = k → g.phase = .resident → ∀ x ∈ t.contexts, x.id = g.ctx → x.live = false))

/-- Power-good starts device time at 0 and runs bring-up, whose success zeroes device memory with every word full and sets READY; a
partition over its share runs 100 MHz slower, down to 400, and one under 95 % of it faster, up to 1,700; a thermal trip holds every
cluster at 400 MHz until the temperature falls, or after 1 s ends the run with fail code 4; a reset of a virtual function ends its
partition's contexts and clears its queues, one of the physical function starts bring-up again; GET_MEASUREMENTS answers
the digest of a block, signed; and MSTAT shows READY, the failure and the trip (R353, R355, R356, R358, R361). That bring-up is one
event is the model's choice (log entry 43); what a reset keeps is read from the manual by inference (log entry 44); the clock step
of an event is the model's choice (log entry 46), as is the content of the digests (log entry 49). -/
def Obligations.PowerAndResetsComplete : Prop := ∀ (s : State),
  (∃ t, exec .powerGood s = .next t ∧ t.time = 0 ∧ t.fibres = [] ∧ t.gangs = [] ∧
    (t.pf.ready = true → t.pf.step = 5 ∧ t.pf.fail = false ∧ t.badSectors = [] ∧
      (∀ a, t.mem.byte a = if isHostMem a then s.mem.byte a else 0) ∧ ∀ w, isHostMem (8 * w) = false → t.mem.full w = true) ∧
    (t.pf.ready = false → t.pf.fail = true ∧ t.pf.step = t.pf.failCode + 1)) ∧
  (∀ p w, p < 16 → p < s.parts.length → ∃ t, exec (.powerThrottle p w) s = .next t ∧ t.mem = s.mem ∧ t.fibres = s.fibres ∧
    (t.part p).clockMhz = (if (s.part p).mshare < w then max 400 ((s.part p).clockMhz - 100)
      else if 100 * w < 95 * (s.part p).mshare then min 1700 ((s.part p).clockMhz + 100) else (s.part p).clockMhz) ∧
    ∀ k < s.clusters.length, s.pf.tripAt = none → s.clusterOwner k = some p → (t.cluster k).mhz = (t.part p).clockMhz) ∧
  (∃ t, exec .thermalTrip s = .next t ∧ t.mem = s.mem ∧ t.fibres = s.fibres ∧ t.pf.therm = true ∧ t.pf.tripAt = some (s.pf.tripAt.getD s.time) ∧
    ∀ k < s.clusters.length, (t.cluster k).mhz = 400) ∧
  (∀ t0, s.pf.tripAt = some t0 → t0 + 1000000000 ≤ s.time → ∃ t, exec .thermalShutdown s = .next t ∧ t.pf.powered = false ∧
    t.pf.failCode = 4 ∧ t.pf.fail = true ∧ t.pf.therm = true ∧ t.fibres = [] ∧ t.time = s.time) ∧
  (∀ t0, s.pf.tripAt = some t0 → s.time < t0 + 1000000000 → ∃ t, exec .temperatureFall s = .next t ∧ t.mem = s.mem ∧ t.fibres = s.fibres ∧
    t.pf = { s.pf with tripAt := none }) ∧
  (∀ p, p < 16 → p < s.parts.length → ∃ t, exec (.vfReset p) s = .next t ∧ t.time = s.time ∧
    ((∀ a ∈ s.accesses, a.op = .layacq → a.phase ≠ .refused ∧ ∀ st q, a.phase ≠ .waiting st q) → t.mem = s.mem) ∧
    (t.part p).queues = List.replicate 8 .zero ∧ (∀ c ∈ t.contexts, c.part = p → c.live = false) ∧
    ∀ j, j ≠ p → (t.part j).queues = (s.part j).queues) ∧
  (s.pf.powered = true → ∃ t, exec .pfReset s = .next t ∧ t.time = s.time ∧ t.fibres = [] ∧ t.pf.eccHbm = s.pf.eccHbm ∧
    t.pf.eccSram = s.pf.eccSram ∧ t.pf.eccLost = s.pf.eccLost ∧ t.pf.therm = s.pf.therm ∧ t.pf.rowsUsed = s.pf.rowsUsed ∧
    ∀ x, s.pf.spareChannel.getD x false = true → t.pf.spareChannel.getD x false = true) ∧
  (∀ k, 1 ≤ k → k ≤ 5 →
    let d := if k = 5 then Config.sha384 s.tables else s.pf.measures.getD (k - 1) []
    exec (.getMeasurements k) s = .next { s with pf := { s.pf with reply := d, signature := Config.sign d } }) ∧
  (s.mstat.getLsbD 0 = s.pf.ready ∧ s.mstat.getLsbD 5 = s.pf.fail ∧ s.mstat.getLsbD 7 = s.pf.therm)

/-- The host's accesses complete: a read of device memory answers with the bytes at the home; a write takes its place at the home and changes the
bytes it names and no other; a snoop with the host's line changes that line's bytes and the slice gives its copy up; the loss of the
host link is noted (R11, R293). A migration runs: MIGRATION_START copies the whole frame with its bits, or sends it to a peer as puts; a round copies the
marked lines while more than few are left and fewer than 64 rounds have run; else the freeze copies them, which ends a checkpoint
and makes the old homes of a move pass requests on; and MIGRATION_END_FORWARDING ends the forwarding (R246, R376). That a freeze
is one step is the model's choice (log entry 50), as are a host read of lost data (log entry 48) and the form of a peer's target
(log entry 51). -/
def Obligations.HostAndMigrationComplete : Prop :=
  (∀ (s : State) (a : Nat) (data : List Byte), s.pf.hostLink = true → s.mem.wf = true →
    exec .hostLinkLoss s = .next { s with pf := { s.pf with hostLink := false } } ∧
    (∀ n, s.pf.ready = true → isDevMem a = true → 0 < n → a % 64 + n ≤ 64 → 
      s.portsServe (.hostCxlRead a n) →
      let lost := ∃ i < n, s.lostKey (s.forward a + i) = true
      ∃ t, exec (.hostCxlRead a n) s = .next t ∧ UpToHomes { s with hostReply := t.hostReply } t ∧
        (¬ lost → t.hostReply = (List.range n).map (fun i => s.mem.byte (s.forward a + i))) ∧ (lost → t.hostReply = [])) ∧
    (s.pf.ready = true → isDevMem a = true → data ≠ [] → a % 64 + data.length ≤ 64 → s.migrations = [] → s.calm →
      s.portsServe (.hostCxlWrite a data) →
      ∃ t, exec (.hostCxlWrite a data) s = .next t ∧ t.fibres = s.fibres ∧ t.hostAcks = s.hostAcks ++ [max s.time (s.leaseOf a)] ∧
        t.mem.empty = s.mem.empty ∧ ∀ x, t.mem.byte x = if a ≤ x ∧ x < a + data.length then data.getD (x - a) 0 else s.mem.byte x) ∧
    (isHostMem a = true → a % 64 + data.length ≤ 64 → s.calm → ∃ t, exec (.cxlCacheSnoop a data) s = .next t ∧ t.fibres = s.fibres ∧
      (∀ x ∈ t.l2, x.line ≠ a / 64) ∧
      t.mem.empty = s.mem.empty ∧ ∀ x, t.mem.byte x = if a ≤ x ∧ x < a + data.length then data.getD (x - a) 0 else s.mem.byte x)) ∧
  (∀ (s : State) (m : Migration),
    (∀ p old new size bits c, s.serving p = true → size ∈ [0x10000, 0x200000, 0x4000000, 0x80000000] → old % size = 0 →
      (∀ x ∈ s.migrations, x.old + x.size ≤ old ∨ old + size ≤ x.old) → s.inPartition p old size = true → s.inGroups p bits (size / 512) = true →
      let m0 : Migration := { id := s.nextId, part := p, old := old, new := new, size := size, bitmap := bits, checkpoint := c, phase := .round 0 }
      let cleared := s.mem.zeroed (fun a => decide (bits ≤ a) && decide (a < bits + size / 512))
      (new < 2 ^ 64 → new % size = 0 → (s.inPartition p new size = true ∨ c = true ∧ (isDevMem new = true ∨ isHostMem new = true)) →
        ∃ t, exec (.migrationStart p old new size bits c) s = .next t ∧ t.fibres = s.fibres ∧ t.migrations = s.migrations ++ [m0] ∧
          t.mem = cleared.copyLines old new size (fun _ => true)) ∧
      (∀ x, 2 ^ 64 ≤ new → c = true → s.session p (new / 2 ^ 58 % 64) = some x → new % 2 ^ 58 + size ≤ x.peerLen →
        ∃ t j, exec (.migrationStart p old new size bits c) s = .next t ∧ t.fibres = s.fibres ∧ t.migrations = s.migrations ++ [m0] ∧
          t.mem = cleared ∧ t.linkJobs = s.linkJobs ++ [j] ∧ j.kind = .put ∧ j.session = new / 2 ^ 58 % 64 ∧
          j.lines = (List.range (size / 64)).map (fun i => (new % 2 ^ 58 + 64 * i, (List.range 64).map (fun b => cleared.byte (old + 64 * i + b)))))) ∧
    (∀ k, s.migration m.id = some m → m.phase = .round k →
      let copied := (s.clearBitmap m).copyFrame m (fun i => (s.markedLines m).contains i)
      let moved := if State.localTarget m = true
        then (s.clearBitmap m).mem.copyLines m.old m.new m.size (fun i => (s.markedLines m).contains i) else (s.clearBitmap m).mem
      (Config.migrateLines < (s.markedLines m).length → k + 1 < 64 → ∃ t, exec (.migrationRound m.id) s = .next t ∧
        t.fibres = s.fibres ∧ t.mem = moved ∧ t.linkJobs = copied.linkJobs ∧
        t.migrations = s.migrations.map (fun x => if x.id == m.id then { m with phase := .round (k + 1) } else x)) ∧
      ((s.markedLines m).length ≤ Config.migrateLines ∨ 64 ≤ k + 1 → ∃ t, exec (.migrationFreeze m.id) s = .next t ∧
        t.fibres = s.fibres ∧ t.mem = moved ∧ t.linkJobs = copied.linkJobs ∧
        (if m.checkpoint = true then t.migrations = s.migrations.filter (fun x => x.id != m.id) ∧ t.accesses = s.accesses
          else t.migrations = s.migrations.map (fun x => if x.id == m.id then { m with phase := .forwarding } else x) ∧
            t.accesses = s.accesses.map (fun a => { a with loc := a.loc.map (State.movedLoc m) })))) ∧
    (s.migration m.id = some m → m.phase = .forwarding →
      exec (.migrationEndForwarding m.id) s = .next { s with migrations := s.migrations.filter (fun x => x.id != m.id) }))

/-! ### The links -/

/-- Sessions complete: an accepted handshake opens a session with the keys it derives and its counters at 0, and one that fails opens
none; a close, a loss, or a link down for more than 1 s shuts sessions, ending their put and get jobs with error 1; a key whose flits
have nearly run out is replaced, the sender's counter starting again at 0 and the receiver's key waiting for the peer's control flit,
and a rekey whose handshake fails loses the session (R365 to R368). -/
def Obligations.SessionEventsComplete : Prop := ∀ (s : State) (p link peer n base len : Nat), p < 16 → p < s.parts.length →
  let once := { s with fresh := s.fresh + 1 }
  (s.linkOwner link = some p → n < 64 → s.session p n = none → base % 65536 = 0 → len % 65536 = 0 → len ≠ 0 →
    (∀ i < len / 65536, ((s.part p).stage2 (base + 65536 * i) 1).isOk = true) → (s.link link).up = true →
    (Config.handshake (s.part p).roots link peer n s.fresh = true → ∃ t x, exec (.sessionOpen p link peer n base len) s = .next t ∧
      t = { once with parts := t.parts } ∧ t.session p n = some x ∧ x.link = link ∧ x.peer = peer ∧ x.base = base ∧
      x.len = len ∧ x.peerLen = Config.peerWindow link peer n s.fresh ∧ x.txKey = Config.sessionKey s.fresh 0 ∧
      x.rxKey = Config.sessionKey s.fresh 1 ∧ x.txSalt = Config.sessionSalt s.fresh 0 ∧ x.rxSalt = Config.sessionSalt s.fresh 1 ∧
      x.txCount = 0 ∧ x.rxCount = 0 ∧ x.isOpen = true) ∧
    (Config.handshake (s.part p).roots link peer n s.fresh = false → exec (.sessionOpen p link peer n base len) s = .next once)) ∧
  (∀ x, s.session p n = some x → ∀ i, i = Instr.sessionClose p n ∨ i = Instr.sessionLoss p n →
    ∃ t, exec i s = .next t ∧ t.mem = s.mem ∧ t.fibres = s.fibres ∧ t.session p n = none ∧
      (∀ j ∈ t.linkJobs, j.part = p → j.session = n → j.kind ≠ .reduce → j.checkpoint = false → 2 ≤ j.stage) ∧
      (∀ j ∈ s.linkJobs, j.part = p → j.session = n → j.kind ≠ .reduce → j.checkpoint = false → j.stage < 2 → { j with stage := 2, error := 1 } ∈ t.linkJobs)) ∧
  ((s.link link).up = false → (s.link link).downSince + 1000000000 < s.time → s.sessionsOn link ≠ [] →
    ∃ t, exec (.linkDownExpiry link) s = .next t ∧ t.mem = s.mem ∧ t.fibres = s.fibres ∧
      ∀ q < 16, ∀ x ∈ (t.part q).sessions, x.link = link → x.isOpen = false) ∧
  (∀ x, s.session p n = some x → 2 ^ 32 - 2 ^ 20 ≤ x.txCount ∨ 2 ^ 32 - 2 ^ 20 ≤ x.rxCount ∧ x.newRx = none →
    let agreed := fun (y : Session) => y.newRx = if 2 ^ 32 - 2 ^ 20 ≤ x.rxCount ∧ x.newRx = none then some s.fresh else x.newRx
    let ok := Config.handshake (s.part p).roots x.link x.peer n s.fresh
    (2 ^ 32 - 2 ^ 20 ≤ x.txCount → x.txCount < 2 ^ 32 → (s.link x.link).up = true → (s.link x.link).replay.length < 256 → ok = true →
      ∃ t y, exec (.rekey p n) s = .next t ∧ t.mem = s.mem ∧ t.fibres = s.fibres ∧ t.session p n = some y ∧ y.txCount = 0 ∧
        y.txKey = Config.sessionKey s.fresh 0 ∧ y.rxKey = x.rxKey ∧ y.rxCount = x.rxCount ∧ y.link = x.link ∧ agreed y) ∧
    (x.txCount < 2 ^ 32 - 2 ^ 20 → ok = true → ∃ t y, exec (.rekey p n) s = .next t ∧ t = { once with parts := t.parts } ∧
      t.session p n = some y ∧ y.txKey = x.txKey ∧ y.txCount = x.txCount ∧ y.rxKey = x.rxKey ∧ agreed y) ∧
    (ok = false → exec (.rekey p n) s = .next (once.loseSession p n)))

/-- A flit of 256 bytes on a link that is up: one with a bad CRC or out of sequence changes nothing but asks for the expected one
again, as does one that the link engine cannot take yet; a good one takes its place in sequence whatever its kind, and one whose tag
does not verify loses its session: data goes into the session's window, an acknowledgement ends a put, a contribution goes to the
reduce that wants it, a control flit switches keys or closes the session or asks for bytes of the window, and one of a reserved kind is
dropped and counted; a NAK sends again from the flit it names, counting a failed resend where one came before; 16 failed resends
retrain the link, a lane may be replaced meanwhile, and it comes back up; each 32 lanes of a direction of the die bridge have one spare
(R352, R363 to R368, R373). Which fields of a payload say this is the model's choice (log entries 19, 38, 39), as are the fate of an
early contribution and the counter a dropped flit takes (log entry 40) and when a bridge lane is replaced (log entry 47). -/
def Obligations.FlitEventsComplete : Prop := ∀ (s : State) (link : Nat) (b : List Byte), link < 16 → link < s.links.length → s.portWait = false →
  let l := s.link link
  let kinds := [(0, Instr.flitData link b), (1, Instr.flitAcknowledgement link b), (2, Instr.flitContribution link b), (3, Instr.flitControl link b)]
  let again := s.updLink link (fun y => { y with nakOut := some y.rxSeq })
  (b.length = 256 → l.up = true → (flitCrcOk b = false ∨ flitSeq b ≠ l.rxSeq) →
    (∀ k i, (k, i) ∈ kinds → flitKind b = k → exec i s = .next again) ∧
    (4 ≤ flitKind b → exec (.flitReservedKind link b) s = .next again)) ∧
  (b.length = 256 → l.up = true → flitCrcOk b = true → flitSeq b = l.rxSeq →
    let took := s.updLink link (fun y => (y.acked (flitAcked b)).received)
    (∀ k i, (k, i) ∈ kinds → flitKind b = k → s.linkOwner link = none → exec i s = .next took) ∧
    (∀ k i p, (k, i) ∈ kinds → flitKind b = k → s.linkOwner link = some p → s.session p (flitSession b) = none → exec i s = .next took) ∧
    (∀ p x, s.linkOwner link = some p → s.session p (flitSession b) = some x →
      let opened := Config.gcmOpen x.rxKey (flitIv x.rxSalt x.rxCount) ((b.drop 8).take 16) ((b.drop 24).take 216) (b.drop 240)
      let y := { x with rxCount := x.rxCount + 1 }
      let u := took.setSession p y
      let off := flitOff b
      (opened = none → ∀ k i, (k, i) ∈ kinds → flitKind b = k → exec i s = .next (took.loseSession p x.n)) ∧
      (∀ pt, opened = some pt →
        (s.linkServes p = false → ∀ k i, (k, i) ∈ kinds → flitKind b = k → k = 0 ∨ k = 2 ∨ k = 3 ∧ Config.controlKind pt = 2 →
          exec i s = .next again) ∧
        (flitKind b = 0 → s.linkServes p = true → s.portsServe (.flitData link b) →
          exec (.flitData link b) s = .next (u.windowPut p y (flitJob b) off pt)) ∧
        (flitKind b = 1 → exec (.flitAcknowledgement link b) s = .next { u with linkJobs := s.linkJobs.map (fun j =>
          if j.part == p && j.session == x.n && j.kind == .put && j.stage == 1 && j.id % 65536 == flitJob b then
            { j with stage := 2, error := if Config.ackError pt = 2 then 2 else 0 } else j) }) ∧
        (flitKind b = 2 → s.linkServes p = true → s.portsServe (.flitContribution link b) →
          let i := Config.contributionInfo pt
          let size := i.1 % 217
          let wanted := s.linkJobs.filterMap (fun j => (State.wantedRank j p x.n).map (fun r => (j, r)))
          let mine := wanted.find? (fun z => (lcard z.1.card).coll == i.2.1)
          let kept := u.setSession p { y with early := x.early ++ [(off, pt, s.time)] }
          (∀ j r, mine = some (j, r) →
            let c := lcard j.card
            (j.deadline ≤ s.time → exec (.flitContribution link b) s = .next again) ∧
            (s.time < j.deadline → i.2 ≠ (c.coll, c.n, c.desc.toNat, c.mask) ∨ slotStride c < off + size →
              exec (.flitContribution link b) s = .next (u.setLinkJob { j with
                excluded := if i.2.1 == c.coll && State.lastPiece off pt then j.excluded ++ [r] else j.excluded, error := 3 })) ∧
            (∀ v e, s.time < j.deadline → i.2 = (c.coll, c.n, c.desc.toNat, c.mask) → off + size ≤ slotStride c →
              u.linkWrite j (slotAddr c r + off) (pt.take size) = .ok (v, e) →
              let got := (j.got.lookup r).getD 0 + size
              exec (.flitContribution link b) s = .next (v.setLinkJob { j with
                got := State.setCount j.got r got, arrived := if slotStride c ≤ got then j.arrived ++ [r] else j.arrived
                ctime := max j.ctime e }))) ∧
          (mine = none → s.reducePosted p x.n i.2.1 = true → exec (.flitContribution link b) s = .next kept) ∧
          (mine = none → s.reducePosted p x.n i.2.1 = false →
            (∀ j r, wanted.find? (fun z => decide (s.time < z.1.deadline)) = some (j, r) →
              exec (.flitContribution link b) s = .next (u.setLinkJob { j with error := 3 })) ∧
            (wanted.find? (fun z => decide (s.time < z.1.deadline)) = none →
              (i.2.1 ∉ x.late → exec (.flitContribution link b) s = .next kept) ∧
              (i.2.1 ∈ x.late → exec (.flitContribution link b) s =
                .next (u.setSession p (if State.lastPiece off pt then { y with late := x.late.erase i.2.1 } else y)))))) ∧
        (flitKind b = 3 →
          (∀ k, Config.controlKind pt = 0 → x.newRx = some k → exec (.flitControl link b) s =
            .next (u.setSession p { x with rxKey := Config.sessionKey k 1, rxSalt := Config.sessionSalt k 1, rxCount := 0, newRx := none })) ∧
          (Config.controlKind pt = 0 ∧ x.newRx = none ∨ 3 ≤ Config.controlKind pt → exec (.flitControl link b) s = .next u) ∧
          (Config.controlKind pt = 1 → exec (.flitControl link b) s = .next (u.loseSession p x.n)) ∧
          (Config.controlKind pt = 2 → s.linkServes p = true → s.portsServe (.flitControl link b) →
            exec (.flitControl link b) s = .next ((u.windowGet p y (flitJob b) pt).getD again))))) ∧
    (4 ≤ flitKind b →
      let v := s.updLink link (fun y => { (y.acked (flitAcked b)).received with errors := y.errors + 1 })
      (s.linkOwner link = none → exec (.flitReservedKind link b) s = .next v) ∧
      (∀ p, s.linkOwner link = some p → s.session p (flitSession b) = none → exec (.flitReservedKind link b) s = .next v) ∧
      (∀ p x, s.linkOwner link = some p → s.session p (flitSession b) = some x →
        exec (.flitReservedKind link b) s = .next (v.setSession p { x with rxCount := x.rxCount + 1 })))) ∧
  (∀ seq : BitVec 16, l.up = true → ∃ t, exec (.nak link seq) s = .next t ∧ t = { s with links := t.links } ∧
    t.link link = { l with
      replay := ((l.replay.findIdx? (fun x => x.1 == seq.toNat)).map (fun i => l.replay.drop i)).getD l.replay
      resends := if l.resent = true then l.resends + 1 else l.resends, resent := true } ∧
    ∀ j, j ≠ link → t.link j = s.link j) ∧
  (l.up = true → 16 ≤ l.resends → exec (.linkRetrain link) s = .next (s.updLink link (fun y => { y with
    up := false, retraining := true, downSince := s.time }))) ∧
  (l.retraining = true →
    exec (.linkRetrained link) s = .next (s.updLink link (fun y => { y with up := true, retraining := false, resends := 0, resent := false })) ∧
    ∀ lane < 9, l.failedLane = none → exec (.laneReplace link lane) s = .next (s.updLink link (fun y => { y with failedLane := some lane }))) ∧
  (∀ dir < 2, ∀ lane < Config.bridgeLanes, (∀ x ∈ s.pf.bridgeSpares, x.1 = dir → x.2 / 32 ≠ lane / 32) →
    exec (.laneReplace (16 + dir) lane) s = .next { s with pf := { s.pf with bridgeSpares := (dir, lane) :: s.pf.bridgeSpares } })

/-- Link jobs complete: a link node posts one job, or ends with error 2 where its card breaks a rule; a put sends its next bytes; a get
of bytes inside the peer's window writes them and one past it ends with error 2; a reduce quantises its vector into its own slot, sends
its flits, takes the pieces kept for it, and with all contributions, or when its deadline passes, writes the sum of those present in
ascending rank order; the flag of a peer's put is filled, and the put acknowledged once its link takes the flit; and a job that has
ended writes its result record, its status word full, in each case but for the wait for a channel's tag (R301, R343, R369, R371 to
R374). The places of the slots of a reduce (log entry 19), that a get reads all its bytes in one event and that a put or a reduce sends
one flit an event (log entry 39), and that a put which left its window fills no flag (log entry 40) are the model's choices. -/
def Obligations.LinkJobsComplete : Prop := ∀ (s : State),
  (∀ p n d card members, p < s.parts.length → s.nodeReady p n d → d.kind = 3 → d.payload.toNat % 128 = 0 → d.payload.toNat / 2 ^ 56 = 0 →
    s.frontRead d.ctx d.payload.toNat 128 = .ok card →
    ((lcard card).kind ≠ 2 ∧ members = [] ∨ (lcard card).kind = 2 ∧ (lcard card).members % 8 = 0 ∧ (lcard card).members / 2 ^ 56 % 256 = 0 ∧
      s.frontRead d.ctx (lcard card).members 64 = .ok members) → s.portsServe (.nodeLink p n) →
    (s.lcardBad p none 0 card members = true →
      ∃ t, exec (.nodeLink p n) s = .next t ∧ UpToHomes (s.setNode p n { d with phase := .ended 2 0 }) t) ∧
    (s.lcardBad p none 0 card members = false → s.linkLoad p < 64 → ∃ t, exec (.nodeLink p n) s = .next t ∧
      UpToHomes ((s.postLink p d.ctx none none (some n) 0 0 card members).setNode p n { d with phase := .dispatched }) t)) ∧
  (∀ (w : RemotePut) x, s.remotePuts.find? (fun y => y.id == w.id) = some w → w.n ≤ w.got → w.ctime ≤ s.time → s.linkServes w.part = true →
    s.session w.part w.session = some x → s.portsServe (.putFlagFill w.id) →
    let acks := (s.link x.link).up = true ∧ (s.link x.link).replay.length < 256 ∧ x.txCount < 2 ^ 32 - 1
    let gone := s.remotePuts.filter (fun y => y.id != w.id)
    let named := ∃ f ks, w.breach = false ∧ w.filled = false ∧ w.flag = some f ∧ f + 8 ≤ x.len ∧ s.gpKeys w.part (x.base + f) 2 8 = some ks
    (¬ named → acks → ∃ t, exec (.putFlagFill w.id) s = .next t ∧ t.mem = s.mem ∧ t.fibres = s.fibres ∧ t.remotePuts = gone) ∧
    (∀ f ks, w.breach = false → w.filled = false → w.flag = some f → f + 8 ≤ x.len → s.gpKeys w.part (x.base + f) 2 8 = some ks →
      s.migrations = [] → s.calm → ∃ t, exec (.putFlagFill w.id) s = .next t ∧ t.fibres = s.fibres ∧
        t.mem = ((ks.zip (bytesOfNat 8 w.n)).foldl (fun m kb => m.setByte kb.1 kb.2) s.mem).setFull (ks.headD 0 / 8) true ∧
        (acks → t.remotePuts = gone) ∧
        (¬ acks → t.remotePuts = s.remotePuts.map (fun y => if y.id == w.id then { y with filled := true } else y)))) ∧
  ∀ j : LinkJob, s.linkJob j.id = some j → s.linkServes j.part = true →
  let c := lcard j.card
  let put := fun (u : State) (y : LinkJob) => { u with linkJobs := u.linkJobs.map (fun x => if x.id == y.id then y else x) }
  (∀ x, j.kind = .put → j.stage = 0 → s.linkFirst j = true → s.session j.part j.session = some x → (s.link x.link).up = true →
    (s.link x.link).replay.length < 256 → x.txCount < 2 ^ 32 - 1 → s.portsServe (.linkPut j.id) →
    (∀ b, j.checkpoint = false → s.linkRead j (c.loc + j.pos) (min 216 (c.n - j.pos)) = .ok b →
      ∃ t, exec (.linkPut j.id) s = .next t ∧ t.mem = s.mem ∧ t.fibres = s.fibres ∧ t.linkJobs = (put s { j with
        pos := j.pos + min 216 (c.n - j.pos), stage := if c.n ≤ j.pos + min 216 (c.n - j.pos) then 1 else 0 }).linkJobs ∧
        t.session j.part j.session = some { x with txCount := x.txCount + 1 } ∧
        (x.link < s.links.length → ∃ flit, (t.link x.link).replay = (s.link x.link).replay ++ [((s.link x.link).txSeq, flit)])) ∧
    (∀ y rest, j.checkpoint = true → j.lines = y :: rest → x.link < 16 → s.linkOwner x.link = some j.part → ∃ t, exec (.linkPut j.id) s = .next t ∧ t.mem = s.mem ∧ t.fibres = s.fibres ∧
      t.linkJobs = (put s { j with lines := rest }).linkJobs)) ∧
  (∀ x, j.kind = .get → j.stage = 0 → s.linkFirst j = true → s.session j.part j.session = some x → s.portsServe (.linkGet j.id) →
    (x.peerLen < c.remote + c.n → exec (.linkGet j.id) s = .next (put s { j with stage := 2, error := 2 })) ∧
    (∀ u e, c.remote + c.n ≤ x.peerLen → (s.link x.link).up = true →
      s.linkWrite j c.loc ((List.range c.n).map (fun i => Config.peerByte j.part x.peer j.session (c.remote + i) s.time)) = .ok (u, e) →
      exec (.linkGet j.id) s = .next (put u { j with stage := 2, ctime := max j.ctime e }))) ∧
  (∀ (ranks : List Nat) (bs : List (List Byte)) (u : State) (e : Nat), j.kind = .reduce → j.stage = 1 →
    ranks = (ranksOf c.mask).filter (fun r => j.arrived.contains r) → bs.length = ranks.length →
    (∀ i < ranks.length, s.linkRead j (slotAddr c (ranks.getD i 0)) (slotStride c) = .ok (bs.getD i [])) →
    s.linkWrite j c.loc (((List.range c.n).map (fun i =>
      bytesOfNat 4 (bs.foldl (fun acc b => (fAdd .f32 .rne acc (slotValue c b i)).1) 0x80000000))).flatten) = .ok (u, e) →
    let done := put ((u.linkHas j (ranks.map (fun r => (slotAddr c r, slotStride c)))).dropLater j)
      { j with stage := 2, mask := ranks.foldl (fun m r => m + 2 ^ r) 0, ctime := max j.ctime e }
    (j.deadline ≤ s.time → s.earlyLeft j = false → s.portsServe (.reduceDeadline j.id) → exec (.reduceDeadline j.id) s = .next done) ∧
    (s.takeEarly j = none → State.reduceSent j = true → ranks = ranksOf c.mask → s.portsServe (.linkReduce j.id) →
      exec (.linkReduce j.id) s = .next done)) ∧
  (j.kind = .reduce → j.stage = 0 → s.portsServe (.linkReduce j.id) → ∀ xs ss u e, s.linkRead j c.loc (4 * c.n) = .ok xs →
    (c.scales = 0 ∧ ss = List.replicate ((c.n + 15) / 16) 127 ∨
      c.scales ≠ 0 ∧ ∃ sb, s.linkRead j c.scales ((c.n + 15) / 16) = .ok sb ∧ ss = sb.map (·.toNat)) →
    let q := quantise c ((List.range c.n).map (fun i => cardN xs (4 * i) 4)) ss
    let reads := (c.loc, 4 * c.n) :: if c.scales = 0 then [] else [(c.scales, (c.n + 15) / 16)]
    s.linkWrite j (slotAddr c (selfRank j.members)) q.1 = .ok (u, e) →
    exec (.linkReduce j.id) s = .next (put (u.linkHas j reads) { j with
      stage := 1, arrived := [selfRank j.members], sat := q.2, ctime := max j.ctime e })) ∧
  (j.kind = .reduce → j.stage = 1 → s.portsServe (.linkReduce j.id) →
    (∀ t, s.takeEarly j = some t → exec (.linkReduce j.id) s = .next t) ∧
    (∀ r x b, s.takeEarly j = none → r ∈ ranksOf c.mask → r ≠ selfRank j.members → (∀ q ∈ ranksOf c.mask, q < r → s.reduceTo j q = none ∨ q = selfRank j.members) →
      let sent := State.sentTo j r
      let n := min 216 (slotStride c - 216 * sent)
      216 * sent < slotStride c → s.session j.part (memberOf j.members r) = some x → (s.link x.link).up = true →
      (s.link x.link).replay.length < 256 → x.txCount < 2 ^ 32 - 1 →
      s.linkRead j (slotAddr c (selfRank j.members) + 216 * sent) n = .ok b →
      ∃ t, exec (.linkReduce j.id) s = .next t ∧ t.mem = s.mem ∧ t.fibres = s.fibres ∧
        t.linkJobs = (put s { j with sent := (r, sent + 1) :: j.sent.filter (fun y => y.1 != r) }).linkJobs ∧
        t.session j.part (memberOf j.members r) = some { x with txCount := x.txCount + 1 })) ∧
  (∀ u e, j.stage = 2 → s.portsServe (.linkJobEnd j.id) → s.linkWrite j (c.result + 8) (bytesOfNat 8 j.mask) = .ok (u, e) →
    exec (.linkJobEnd j.id) s = .next (put u { j with stage := 3, ctime := max j.ctime e })) ∧
  (∀ ks, j.stage = 3 → j.ctime ≤ s.time → s.calm → s.migrations = [] → s.jobKeys j.asJob c.result .write 8 = .ok ks →
    s.portsServe (.linkJobEnd j.id) →
    let status := j.sat % 2 ^ 32 * 2 ^ 32 + j.error * 2 ^ 24 + (ranksOf j.mask).length * 2 ^ 16 + 32
    ∃ t, exec (.linkJobEnd j.id) s = .next t ∧ t.linkJobs = s.linkJobs.filter (fun x => x.id != j.id) ∧
      (∀ k, (some k ≠ j.fibre → t.fibre k = s.fibre k) ∧
        t.fibre k = { s.fibre k with ctl := { (s.fibre k).ctl with jobsTill := (t.fibre k).ctl.jobsTill } }) ∧
      t.mem = ((ks.zip (bytesOfNat 8 status)).foldl (fun m kb => m.setByte kb.1 kb.2) s.mem).setFull (ks.headD 0 / 8) true)

/-! ### When a channel makes an event wait -/

/-- A request of a slice stalls for a tag only while all 512 tags of its channel are in use (R342, R343): a free tag is the lowest one no
request under way has, sending takes it, and with none free the event waits. A sector that a slice brings in waits, besides, for the
requests to that sector that are still to be performed. With no request under way and nothing dirty in the slices no read waits: the
host's read of device memory is then served. -/
def Obligations.PortsWaitOnlyForTags : Prop :=
  (∀ (s : State) (ch : Nat),
    (s.freeTag ch = none ↔ ∀ t < 512, ∃ p ∈ s.ports, p.ch = ch ∧ p.tag = t) ∧
    (∀ t, s.freeTag ch = some t ↔ t < 512 ∧ (∀ p ∈ s.ports, p.ch = ch → p.tag ≠ t) ∧ ∀ q < t, ∃ p ∈ s.ports, p.ch = ch ∧ p.tag = q)) ∧
  (∀ (s : State) (a : Nat) (r : PortReq),
    (∀ t, s.freeTag (channelOf a) = some t → s.sendPort a r =
      { s with ports := s.ports ++ [{ r with ch := channelOf a, tag := t, sector := sectorOf (a / 32 * 32) }] }) ∧
    (s.freeTag (channelOf a) = none → s.sendPort a r = { s with portWait := true })) ∧
  ∀ s : State, s.ports = [] → (∀ x ∈ s.l2, (∀ d ∈ x.dirty, d = false) ∧ ∀ d ∈ x.feDirty, d = false) →
    (∀ (u : HomeUse) (keys : List Nat), (s.homeReads u keys).portWait = s.portWait ∧ (s.homeReads u keys).ports = []) ∧
    (s.portWait = false → ∀ a n, s.portsServe (.hostCxlRead a n))
end

