-- ==== Sys2Proof/Laws/Encoding.lean ====
section
/-! SUPPORT. Sys2Proof/Laws/Encoding.lean: the fields of the words that the encoder builds (R12, R18), and when a word decodes. -/

namespace Sys2Proof

theorem low_append {n m : Nat} (x : BitVec n) (y : BitVec m) : (x ++ y).extractLsb' 0 m = y := by
  apply BitVec.eq_of_getLsbD_eq
  intro i hi
  simp [BitVec.getLsbD_append, hi]

theorem high_append {n m : Nat} (x : BitVec n) (y : BitVec m) (s l : Nat) (h : m ≤ s) :
    (x ++ y).extractLsb' s l = x.extractLsb' (s - m) l := by
  apply BitVec.eq_of_getLsbD_eq
  intro i hi
  have : ¬ s + i < m := by omega
  simp [BitVec.getLsbD_append, hi, this, Nat.sub_add_comm h]

theorem inner_append {n m : Nat} (x : BitVec n) (y : BitVec m) (s l : Nat) (h : s + l ≤ m) :
    (x ++ y).extractLsb' s l = y.extractLsb' s l := by
  apply BitVec.eq_of_getLsbD_eq
  intro i hi
  have : s + i < m := by omega
  simp [BitVec.getLsbD_append, hi, this]

theorem top_append {n m : Nat} (x : BitVec n) (y : BitVec m) : (x ++ y).extractLsb' m n = x := by
  have e := high_append x y m n (Nat.le_refl m)
  simpa using e

theorem bit_append_high {n m : Nat} (x : BitVec n) (y : BitVec m) (i : Nat) (h : m ≤ i) :
    (x ++ y).getLsbD i = x.getLsbD (i - m) := by
  have : ¬ i < m := by omega
  simp [BitVec.getLsbD_append, this]

theorem bit_append_low {n m : Nat} (x : BitVec n) (y : BitVec m) (i : Nat) (h : i < m) : (x ++ y).getLsbD i = y.getLsbD i := by
  simp [BitVec.getLsbD_append, h]

/-- The M-format word with its L bit. -/
abbrev mW (h : Head) (op : BitVec 5) (q : BitVec 3) (d : BitVec 6) (a : BitVec 5) (p : BitVec 2) (l : BitVec 1) : Word :=
  h.bits ++ 2#2 ++ op ++ q ++ d ++ a ++ p ++ l ++ 0#2

/-! ### tWord -/

@[simp] theorem fF_tWord (h : Head) (f : BitVec 2) (op d a b : BitVec 6) : fF (tWord h f op d a b) = f :=
  (high_append (n := 26) (m := 6) _ _ 24 2 (by decide)).trans <|
    (high_append (n := 20) (m := 6) _ _ 18 2 (by decide)).trans <|
    (high_append (n := 14) (m := 6) _ _ 12 2 (by decide)).trans <|
    (high_append (n := 8) (m := 6) _ _ 6 2 (by decide)).trans <|
    (low_append (n := 6) (m := 2) _ _)

@[simp] theorem fOp_tWord (h : Head) (f : BitVec 2) (op d a b : BitVec 6) : fOp (tWord h f op d a b) = op :=
  (high_append (n := 26) (m := 6) _ _ 18 6 (by decide)).trans <|
    (high_append (n := 20) (m := 6) _ _ 12 6 (by decide)).trans <|
    (high_append (n := 14) (m := 6) _ _ 6 6 (by decide)).trans <|
    (low_append (n := 8) (m := 6) _ _)

@[simp] theorem fD_tWord (h : Head) (f : BitVec 2) (op d a b : BitVec 6) : fD (tWord h f op d a b) = d :=
  (high_append (n := 26) (m := 6) _ _ 12 6 (by decide)).trans <|
    (high_append (n := 20) (m := 6) _ _ 6 6 (by decide)).trans <|
    (low_append (n := 14) (m := 6) _ _)

@[simp] theorem fA_tWord (h : Head) (f : BitVec 2) (op d a b : BitVec 6) : fA (tWord h f op d a b) = a :=
  (high_append (n := 26) (m := 6) _ _ 6 6 (by decide)).trans <|
    (low_append (n := 20) (m := 6) _ _)

@[simp] theorem fB_tWord (h : Head) (f : BitVec 2) (op d a b : BitVec 6) : fB (tWord h f op d a b) = b :=
  (low_append (n := 26) (m := 6) _ _)

@[simp] theorem fHead_tWord (h : Head) (f : BitVec 2) (op d a b : BitVec 6) : fHead (tWord h f op d a b) = h := by
  rcases h with ⟨c, s, g⟩
  have hc : (tWord ⟨c, s, g⟩ f op d a b).getLsbD 31 = c :=
    (bit_append_high (n := 26) (m := 6) _ _ 31 (by decide)).trans <|
    (bit_append_high (n := 20) (m := 6) _ _ 25 (by decide)).trans <|
    (bit_append_high (n := 14) (m := 6) _ _ 19 (by decide)).trans <|
    (bit_append_high (n := 8) (m := 6) _ _ 13 (by decide)).trans <|
    (bit_append_high (n := 6) (m := 2) _ _ 7 (by decide)).trans <|
    (bit_append_high (n := 2) (m := 4) _ _ 5 (by decide)).trans <|
    (bit_append_high (n := 1) (m := 1) _ _ 1 (by decide)).trans <|
    (by simp)
  have hs : (tWord ⟨c, s, g⟩ f op d a b).getLsbD 30 = s :=
    (bit_append_high (n := 26) (m := 6) _ _ 30 (by decide)).trans <|
    (bit_append_high (n := 20) (m := 6) _ _ 24 (by decide)).trans <|
    (bit_append_high (n := 14) (m := 6) _ _ 18 (by decide)).trans <|
    (bit_append_high (n := 8) (m := 6) _ _ 12 (by decide)).trans <|
    (bit_append_high (n := 6) (m := 2) _ _ 6 (by decide)).trans <|
    (bit_append_high (n := 2) (m := 4) _ _ 4 (by decide)).trans <|
    (bit_append_low (n := 1) (m := 1) _ _ 0 (by decide)).trans <|
    (by simp)
  have hg : (tWord ⟨c, s, g⟩ f op d a b).extractLsb' 26 4 = g :=
    (high_append (n := 26) (m := 6) _ _ 26 4 (by decide)).trans <|
    (high_append (n := 20) (m := 6) _ _ 20 4 (by decide)).trans <|
    (high_append (n := 14) (m := 6) _ _ 14 4 (by decide)).trans <|
    (high_append (n := 8) (m := 6) _ _ 8 4 (by decide)).trans <|
    (high_append (n := 6) (m := 2) _ _ 2 4 (by decide)).trans <|
    (low_append (n := 2) (m := 4) _ _)
  simp only [fHead, hc, hs, hg]

theorem inner_tWord (h : Head) (f : BitVec 2) (op d a b : BitVec 6) (s l : Nat) (e : s + l ≤ 6) : (tWord h f op d a b).extractLsb' s l = b.extractLsb' s l :=
  inner_append (n := 26) (m := 6) _ _ s l e

/-! ### iWord -/

@[simp] theorem fF_iWord (h : Head) (op : BitVec 4) (d a : BitVec 6) (k : BitVec 8) : fF (iWord h op d a k) = 1#2 :=
  (high_append (n := 24) (m := 8) _ _ 24 2 (by decide)).trans <|
    (high_append (n := 18) (m := 6) _ _ 16 2 (by decide)).trans <|
    (high_append (n := 12) (m := 6) _ _ 10 2 (by decide)).trans <|
    (high_append (n := 8) (m := 4) _ _ 4 2 (by decide)).trans <|
    (low_append (n := 6) (m := 2) _ _)

@[simp] theorem iOp_iWord (h : Head) (op : BitVec 4) (d a : BitVec 6) (k : BitVec 8) : iOp (iWord h op d a k) = op :=
  (high_append (n := 24) (m := 8) _ _ 20 4 (by decide)).trans <|
    (high_append (n := 18) (m := 6) _ _ 12 4 (by decide)).trans <|
    (high_append (n := 12) (m := 6) _ _ 6 4 (by decide)).trans <|
    (low_append (n := 8) (m := 4) _ _)

@[simp] theorem iD_iWord (h : Head) (op : BitVec 4) (d a : BitVec 6) (k : BitVec 8) : iD (iWord h op d a k) = d :=
  (high_append (n := 24) (m := 8) _ _ 14 6 (by decide)).trans <|
    (high_append (n := 18) (m := 6) _ _ 6 6 (by decide)).trans <|
    (low_append (n := 12) (m := 6) _ _)

@[simp] theorem iA_iWord (h : Head) (op : BitVec 4) (d a : BitVec 6) (k : BitVec 8) : iA (iWord h op d a k) = a :=
  (high_append (n := 24) (m := 8) _ _ 8 6 (by decide)).trans <|
    (low_append (n := 18) (m := 6) _ _)

@[simp] theorem iK_iWord (h : Head) (op : BitVec 4) (d a : BitVec 6) (k : BitVec 8) : iK (iWord h op d a k) = k :=
  (low_append (n := 24) (m := 8) _ _)

@[simp] theorem fHead_iWord (h : Head) (op : BitVec 4) (d a : BitVec 6) (k : BitVec 8) : fHead (iWord h op d a k) = h := by
  rcases h with ⟨c, s, g⟩
  have hc : (iWord ⟨c, s, g⟩ op d a k).getLsbD 31 = c :=
    (bit_append_high (n := 24) (m := 8) _ _ 31 (by decide)).trans <|
    (bit_append_high (n := 18) (m := 6) _ _ 23 (by decide)).trans <|
    (bit_append_high (n := 12) (m := 6) _ _ 17 (by decide)).trans <|
    (bit_append_high (n := 8) (m := 4) _ _ 11 (by decide)).trans <|
    (bit_append_high (n := 6) (m := 2) _ _ 7 (by decide)).trans <|
    (bit_append_high (n := 2) (m := 4) _ _ 5 (by decide)).trans <|
    (bit_append_high (n := 1) (m := 1) _ _ 1 (by decide)).trans <|
    (by simp)
  have hs : (iWord ⟨c, s, g⟩ op d a k).getLsbD 30 = s :=
    (bit_append_high (n := 24) (m := 8) _ _ 30 (by decide)).trans <|
    (bit_append_high (n := 18) (m := 6) _ _ 22 (by decide)).trans <|
    (bit_append_high (n := 12) (m := 6) _ _ 16 (by decide)).trans <|
    (bit_append_high (n := 8) (m := 4) _ _ 10 (by decide)).trans <|
    (bit_append_high (n := 6) (m := 2) _ _ 6 (by decide)).trans <|
    (bit_append_high (n := 2) (m := 4) _ _ 4 (by decide)).trans <|
    (bit_append_low (n := 1) (m := 1) _ _ 0 (by decide)).trans <|
    (by simp)
  have hg : (iWord ⟨c, s, g⟩ op d a k).extractLsb' 26 4 = g :=
    (high_append (n := 24) (m := 8) _ _ 26 4 (by decide)).trans <|
    (high_append (n := 18) (m := 6) _ _ 18 4 (by decide)).trans <|
    (high_append (n := 12) (m := 6) _ _ 12 4 (by decide)).trans <|
    (high_append (n := 8) (m := 4) _ _ 6 4 (by decide)).trans <|
    (high_append (n := 6) (m := 2) _ _ 2 4 (by decide)).trans <|
    (low_append (n := 2) (m := 4) _ _)
  simp only [fHead, hc, hs, hg]

theorem inner_iWord (h : Head) (op : BitVec 4) (d a : BitVec 6) (k : BitVec 8) (s l : Nat) (e : s + l ≤ 8) : (iWord h op d a k).extractLsb' s l = k.extractLsb' s l :=
  inner_append (n := 24) (m := 8) _ _ s l e

/-! ### xbWord -/

@[simp] theorem fF_xbWord (h : Head) (op : BitVec 6) (o : BitVec 18) : fF (xbWord h op o) = 3#2 :=
  (high_append (n := 14) (m := 18) _ _ 24 2 (by decide)).trans <|
    (high_append (n := 8) (m := 6) _ _ 6 2 (by decide)).trans <|
    (low_append (n := 6) (m := 2) _ _)

@[simp] theorem fOp_xbWord (h : Head) (op : BitVec 6) (o : BitVec 18) : fOp (xbWord h op o) = op :=
  (high_append (n := 14) (m := 18) _ _ 18 6 (by decide)).trans <|
    (low_append (n := 8) (m := 6) _ _)

@[simp] theorem fO_xbWord (h : Head) (op : BitVec 6) (o : BitVec 18) : fO (xbWord h op o) = o :=
  (low_append (n := 14) (m := 18) _ _)

@[simp] theorem fHead_xbWord (h : Head) (op : BitVec 6) (o : BitVec 18) : fHead (xbWord h op o) = h := by
  rcases h with ⟨c, s, g⟩
  have hc : (xbWord ⟨c, s, g⟩ op o).getLsbD 31 = c :=
    (bit_append_high (n := 14) (m := 18) _ _ 31 (by decide)).trans <|
    (bit_append_high (n := 8) (m := 6) _ _ 13 (by decide)).trans <|
    (bit_append_high (n := 6) (m := 2) _ _ 7 (by decide)).trans <|
    (bit_append_high (n := 2) (m := 4) _ _ 5 (by decide)).trans <|
    (bit_append_high (n := 1) (m := 1) _ _ 1 (by decide)).trans <|
    (by simp)
  have hs : (xbWord ⟨c, s, g⟩ op o).getLsbD 30 = s :=
    (bit_append_high (n := 14) (m := 18) _ _ 30 (by decide)).trans <|
    (bit_append_high (n := 8) (m := 6) _ _ 12 (by decide)).trans <|
    (bit_append_high (n := 6) (m := 2) _ _ 6 (by decide)).trans <|
    (bit_append_high (n := 2) (m := 4) _ _ 4 (by decide)).trans <|
    (bit_append_low (n := 1) (m := 1) _ _ 0 (by decide)).trans <|
    (by simp)
  have hg : (xbWord ⟨c, s, g⟩ op o).extractLsb' 26 4 = g :=
    (high_append (n := 14) (m := 18) _ _ 26 4 (by decide)).trans <|
    (high_append (n := 8) (m := 6) _ _ 8 4 (by decide)).trans <|
    (high_append (n := 6) (m := 2) _ _ 2 4 (by decide)).trans <|
    (low_append (n := 2) (m := 4) _ _)
  simp only [fHead, hc, hs, hg]

/-! ### xkWord -/

@[simp] theorem fF_xkWord (h : Head) (op d : BitVec 6) (k : BitVec 12) : fF (xkWord h op d k) = 3#2 :=
  (high_append (n := 20) (m := 12) _ _ 24 2 (by decide)).trans <|
    (high_append (n := 14) (m := 6) _ _ 12 2 (by decide)).trans <|
    (high_append (n := 8) (m := 6) _ _ 6 2 (by decide)).trans <|
    (low_append (n := 6) (m := 2) _ _)

@[simp] theorem fOp_xkWord (h : Head) (op d : BitVec 6) (k : BitVec 12) : fOp (xkWord h op d k) = op :=
  (high_append (n := 20) (m := 12) _ _ 18 6 (by decide)).trans <|
    (high_append (n := 14) (m := 6) _ _ 6 6 (by decide)).trans <|
    (low_append (n := 8) (m := 6) _ _)

@[simp] theorem fD_xkWord (h : Head) (op d : BitVec 6) (k : BitVec 12) : fD (xkWord h op d k) = d :=
  (high_append (n := 20) (m := 12) _ _ 12 6 (by decide)).trans <|
    (low_append (n := 14) (m := 6) _ _)

@[simp] theorem fK_xkWord (h : Head) (op d : BitVec 6) (k : BitVec 12) : fK (xkWord h op d k) = k :=
  (low_append (n := 20) (m := 12) _ _)

@[simp] theorem fHead_xkWord (h : Head) (op d : BitVec 6) (k : BitVec 12) : fHead (xkWord h op d k) = h := by
  rcases h with ⟨c, s, g⟩
  have hc : (xkWord ⟨c, s, g⟩ op d k).getLsbD 31 = c :=
    (bit_append_high (n := 20) (m := 12) _ _ 31 (by decide)).trans <|
    (bit_append_high (n := 14) (m := 6) _ _ 19 (by decide)).trans <|
    (bit_append_high (n := 8) (m := 6) _ _ 13 (by decide)).trans <|
    (bit_append_high (n := 6) (m := 2) _ _ 7 (by decide)).trans <|
    (bit_append_high (n := 2) (m := 4) _ _ 5 (by decide)).trans <|
    (bit_append_high (n := 1) (m := 1) _ _ 1 (by decide)).trans <|
    (by simp)
  have hs : (xkWord ⟨c, s, g⟩ op d k).getLsbD 30 = s :=
    (bit_append_high (n := 20) (m := 12) _ _ 30 (by decide)).trans <|
    (bit_append_high (n := 14) (m := 6) _ _ 18 (by decide)).trans <|
    (bit_append_high (n := 8) (m := 6) _ _ 12 (by decide)).trans <|
    (bit_append_high (n := 6) (m := 2) _ _ 6 (by decide)).trans <|
    (bit_append_high (n := 2) (m := 4) _ _ 4 (by decide)).trans <|
    (bit_append_low (n := 1) (m := 1) _ _ 0 (by decide)).trans <|
    (by simp)
  have hg : (xkWord ⟨c, s, g⟩ op d k).extractLsb' 26 4 = g :=
    (high_append (n := 20) (m := 12) _ _ 26 4 (by decide)).trans <|
    (high_append (n := 14) (m := 6) _ _ 14 4 (by decide)).trans <|
    (high_append (n := 8) (m := 6) _ _ 8 4 (by decide)).trans <|
    (high_append (n := 6) (m := 2) _ _ 2 4 (by decide)).trans <|
    (low_append (n := 2) (m := 4) _ _)
  simp only [fHead, hc, hs, hg]

theorem inner_xkWord (h : Head) (op d : BitVec 6) (k : BitVec 12) (s l : Nat) (e : s + l ≤ 12) : (xkWord h op d k).extractLsb' s l = k.extractLsb' s l :=
  inner_append (n := 20) (m := 12) _ _ s l e

/-! ### mW -/

@[simp] theorem fF_mW (h : Head) (op : BitVec 5) (q : BitVec 3) (d : BitVec 6) (a : BitVec 5) (p : BitVec 2) (l : BitVec 1) : fF (mW h op q d a p l) = 2#2 :=
  (high_append (n := 30) (m := 2) _ _ 24 2 (by decide)).trans <|
    (high_append (n := 29) (m := 1) _ _ 22 2 (by decide)).trans <|
    (high_append (n := 27) (m := 2) _ _ 21 2 (by decide)).trans <|
    (high_append (n := 22) (m := 5) _ _ 19 2 (by decide)).trans <|
    (high_append (n := 16) (m := 6) _ _ 14 2 (by decide)).trans <|
    (high_append (n := 13) (m := 3) _ _ 8 2 (by decide)).trans <|
    (high_append (n := 8) (m := 5) _ _ 5 2 (by decide)).trans <|
    (low_append (n := 6) (m := 2) _ _)

@[simp] theorem mOp_mW (h : Head) (op : BitVec 5) (q : BitVec 3) (d : BitVec 6) (a : BitVec 5) (p : BitVec 2) (l : BitVec 1) : mOp (mW h op q d a p l) = op :=
  (high_append (n := 30) (m := 2) _ _ 19 5 (by decide)).trans <|
    (high_append (n := 29) (m := 1) _ _ 17 5 (by decide)).trans <|
    (high_append (n := 27) (m := 2) _ _ 16 5 (by decide)).trans <|
    (high_append (n := 22) (m := 5) _ _ 14 5 (by decide)).trans <|
    (high_append (n := 16) (m := 6) _ _ 9 5 (by decide)).trans <|
    (high_append (n := 13) (m := 3) _ _ 3 5 (by decide)).trans <|
    (low_append (n := 8) (m := 5) _ _)

@[simp] theorem mQ_mW (h : Head) (op : BitVec 5) (q : BitVec 3) (d : BitVec 6) (a : BitVec 5) (p : BitVec 2) (l : BitVec 1) : mQ (mW h op q d a p l) = q :=
  (high_append (n := 30) (m := 2) _ _ 16 3 (by decide)).trans <|
    (high_append (n := 29) (m := 1) _ _ 14 3 (by decide)).trans <|
    (high_append (n := 27) (m := 2) _ _ 13 3 (by decide)).trans <|
    (high_append (n := 22) (m := 5) _ _ 11 3 (by decide)).trans <|
    (high_append (n := 16) (m := 6) _ _ 6 3 (by decide)).trans <|
    (low_append (n := 13) (m := 3) _ _)

@[simp] theorem mD_mW (h : Head) (op : BitVec 5) (q : BitVec 3) (d : BitVec 6) (a : BitVec 5) (p : BitVec 2) (l : BitVec 1) : mD (mW h op q d a p l) = d :=
  (high_append (n := 30) (m := 2) _ _ 10 6 (by decide)).trans <|
    (high_append (n := 29) (m := 1) _ _ 8 6 (by decide)).trans <|
    (high_append (n := 27) (m := 2) _ _ 7 6 (by decide)).trans <|
    (high_append (n := 22) (m := 5) _ _ 5 6 (by decide)).trans <|
    (low_append (n := 16) (m := 6) _ _)

@[simp] theorem mA_mW (h : Head) (op : BitVec 5) (q : BitVec 3) (d : BitVec 6) (a : BitVec 5) (p : BitVec 2) (l : BitVec 1) : mA (mW h op q d a p l) = a :=
  (high_append (n := 30) (m := 2) _ _ 5 5 (by decide)).trans <|
    (high_append (n := 29) (m := 1) _ _ 3 5 (by decide)).trans <|
    (high_append (n := 27) (m := 2) _ _ 2 5 (by decide)).trans <|
    (low_append (n := 22) (m := 5) _ _)

@[simp] theorem mP_mW (h : Head) (op : BitVec 5) (q : BitVec 3) (d : BitVec 6) (a : BitVec 5) (p : BitVec 2) (l : BitVec 1) : mP (mW h op q d a p l) = p :=
  (high_append (n := 30) (m := 2) _ _ 3 2 (by decide)).trans <|
    (high_append (n := 29) (m := 1) _ _ 1 2 (by decide)).trans <|
    (low_append (n := 27) (m := 2) _ _)

@[simp] theorem mZ_mW (h : Head) (op : BitVec 5) (q : BitVec 3) (d : BitVec 6) (a : BitVec 5) (p : BitVec 2) (l : BitVec 1) : mZ (mW h op q d a p l) = 0#2 :=
  (low_append (n := 30) (m := 2) _ _)

@[simp] theorem fHead_mW (h : Head) (op : BitVec 5) (q : BitVec 3) (d : BitVec 6) (a : BitVec 5) (p : BitVec 2) (l : BitVec 1) : fHead (mW h op q d a p l) = h := by
  rcases h with ⟨c, s, g⟩
  have hc : (mW ⟨c, s, g⟩ op q d a p l).getLsbD 31 = c :=
    (bit_append_high (n := 30) (m := 2) _ _ 31 (by decide)).trans <|
    (bit_append_high (n := 29) (m := 1) _ _ 29 (by decide)).trans <|
    (bit_append_high (n := 27) (m := 2) _ _ 28 (by decide)).trans <|
    (bit_append_high (n := 22) (m := 5) _ _ 26 (by decide)).trans <|
    (bit_append_high (n := 16) (m := 6) _ _ 21 (by decide)).trans <|
    (bit_append_high (n := 13) (m := 3) _ _ 15 (by decide)).trans <|
    (bit_append_high (n := 8) (m := 5) _ _ 12 (by decide)).trans <|
    (bit_append_high (n := 6) (m := 2) _ _ 7 (by decide)).trans <|
    (bit_append_high (n := 2) (m := 4) _ _ 5 (by decide)).trans <|
    (bit_append_high (n := 1) (m := 1) _ _ 1 (by decide)).trans <|
    (by simp)
  have hs : (mW ⟨c, s, g⟩ op q d a p l).getLsbD 30 = s :=
    (bit_append_high (n := 30) (m := 2) _ _ 30 (by decide)).trans <|
    (bit_append_high (n := 29) (m := 1) _ _ 28 (by decide)).trans <|
    (bit_append_high (n := 27) (m := 2) _ _ 27 (by decide)).trans <|
    (bit_append_high (n := 22) (m := 5) _ _ 25 (by decide)).trans <|
    (bit_append_high (n := 16) (m := 6) _ _ 20 (by decide)).trans <|
    (bit_append_high (n := 13) (m := 3) _ _ 14 (by decide)).trans <|
    (bit_append_high (n := 8) (m := 5) _ _ 11 (by decide)).trans <|
    (bit_append_high (n := 6) (m := 2) _ _ 6 (by decide)).trans <|
    (bit_append_high (n := 2) (m := 4) _ _ 4 (by decide)).trans <|
    (bit_append_low (n := 1) (m := 1) _ _ 0 (by decide)).trans <|
    (by simp)
  have hg : (mW ⟨c, s, g⟩ op q d a p l).extractLsb' 26 4 = g :=
    (high_append (n := 30) (m := 2) _ _ 26 4 (by decide)).trans <|
    (high_append (n := 29) (m := 1) _ _ 24 4 (by decide)).trans <|
    (high_append (n := 27) (m := 2) _ _ 23 4 (by decide)).trans <|
    (high_append (n := 22) (m := 5) _ _ 21 4 (by decide)).trans <|
    (high_append (n := 16) (m := 6) _ _ 16 4 (by decide)).trans <|
    (high_append (n := 13) (m := 3) _ _ 10 4 (by decide)).trans <|
    (high_append (n := 8) (m := 5) _ _ 7 4 (by decide)).trans <|
    (high_append (n := 6) (m := 2) _ _ 2 4 (by decide)).trans <|
    (low_append (n := 2) (m := 4) _ _)
  simp only [fHead, hc, hs, hg]

theorem fN_tWord (h : Head) (f : BitVec 2) (op : BitVec 6) (n p : BitVec 3) (a b : BitVec 6) :
    fN (tWord h f op (n ++ p) a b) = n :=
  (high_append (n := 26) (m := 6) _ _ 15 3 (by decide)).trans <|
    (high_append (n := 20) (m := 6) _ _ 9 3 (by decide)).trans <|
    (inner_append (n := 14) (m := 6) _ _ 3 3 (by decide)).trans <|
    (high_append (n := 3) (m := 3) n p 3 3 (by decide)).trans (BitVec.extractLsb'_eq_self (x := n))

theorem fP_tWord (h : Head) (f : BitVec 2) (op : BitVec 6) (n p : BitVec 3) (a b : BitVec 6) :
    fP (tWord h f op (n ++ p) a b) = p :=
  (high_append (n := 26) (m := 6) _ _ 12 3 (by decide)).trans <|
    (high_append (n := 20) (m := 6) _ _ 6 3 (by decide)).trans <|
    (inner_append (n := 14) (m := 6) _ _ 0 3 (by decide)).trans <| low_append (n := 3) (m := 3) n p

theorem iN_iWord (h : Head) (op : BitVec 4) (n p : BitVec 3) (a : BitVec 6) (k : BitVec 8) :
    iN (iWord h op (n ++ p) a k) = n :=
  (high_append (n := 24) (m := 8) _ _ 17 3 (by decide)).trans <|
    (high_append (n := 18) (m := 6) _ _ 9 3 (by decide)).trans <|
    (inner_append (n := 12) (m := 6) _ _ 3 3 (by decide)).trans <|
    (high_append (n := 3) (m := 3) n p 3 3 (by decide)).trans (BitVec.extractLsb'_eq_self (x := n))

theorem iP_iWord (h : Head) (op : BitVec 4) (n p : BitVec 3) (a : BitVec 6) (k : BitVec 8) :
    iP (iWord h op (n ++ p) a k) = p :=
  (high_append (n := 24) (m := 8) _ _ 14 3 (by decide)).trans <|
    (high_append (n := 18) (m := 6) _ _ 6 3 (by decide)).trans <|
    (inner_append (n := 12) (m := 6) _ _ 0 3 (by decide)).trans <| low_append (n := 3) (m := 3) n p

theorem iK5_iWord (h : Head) (op : BitVec 4) (d a : BitVec 6) (k : BitVec 5) : iK5 (iWord h op d a (0#3 ++ k)) = k :=
  (inner_append (n := 24) (m := 8) _ _ 0 5 (by decide)).trans <| low_append (n := 3) (m := 5) 0#3 k

theorem iKhi_iWord (h : Head) (op : BitVec 4) (d a : BitVec 6) (k : BitVec 5) : iKhi (iWord h op d a (0#3 ++ k)) = 0 :=
  (inner_append (n := 24) (m := 8) _ _ 5 3 (by decide)).trans <|
    (high_append (n := 3) (m := 5) 0#3 k 5 3 (by decide)).trans (BitVec.extractLsb'_eq_self (x := 0#3))

@[simp] theorem mL_mW (h : Head) (op : BitVec 5) (q : BitVec 3) (d : BitVec 6) (a : BitVec 5) (p : BitVec 2) (l : BitVec 1) :
    mL (mW h op q d a p l) = l.getLsbD 0 :=
  (bit_append_high (n := 30) (m := 2) _ _ 2 (by decide)).trans (bit_append_low (n := 29) (m := 1) _ _ 0 (by decide))

theorem mWord_none (h : Head) (op : BitVec 5) (q : BitVec 3) (d : BitVec 6) (a : BitVec 5) (p : BitVec 2) :
    mWord h op q d a p none = [mW h op q d a p 0#1] := rfl
theorem mWord_some (h : Head) (op : BitVec 5) (q : BitVec 3) (d : BitVec 6) (a : BitVec 5) (p : BitVec 2) (l : Word) :
    mWord h op q d a p (some l) = [mW h op q d a p 1#1, l] := rfl

/-! ### Decoding a word whose candidate is known -/

theorem decode_of_cand (i : Instr) (w : Word) (rest : List Word) (hw : i.wf = true)
    (hc : candOf w rest.head? = some ⟨i, true, true, true⟩) : decodeAt (w :: rest) = .ok i := by
  simp only [Instr.wf, Bool.and_eq_true] at hw
  obtain ⟨⟨hg, hm⟩, hs⟩ := hw
  simp only [decodeAt, decodeWord, hc, Cand.settle, hg, hm, hs]
  rfl

theorem candOf_tWord (h : Head) (op d a b : BitVec 6) (l : Option Word) :
    candOf (tWord h 0 op d a b) l = decodeT (tWord h 0 op d a b) := by
  simp only [candOf, fF_tWord]
  rfl
theorem candOf_xtWord (h : Head) (op d a b : BitVec 6) (l : Option Word) :
    candOf (tWord h 3 op d a b) l = decodeX (tWord h 3 op d a b) l := by
  simp only [candOf, fF_tWord]
  rfl
theorem candOf_iWord (h : Head) (op : BitVec 4) (d a : BitVec 6) (k : BitVec 8) (l : Option Word) :
    candOf (iWord h op d a k) l = decodeI (iWord h op d a k) := by
  simp only [candOf, fF_iWord]
  rfl
theorem candOf_xbWord (h : Head) (op : BitVec 6) (o : BitVec 18) (l : Option Word) :
    candOf (xbWord h op o) l = decodeX (xbWord h op o) l := by
  simp only [candOf, fF_xbWord]
  rfl
theorem candOf_xkWord (h : Head) (op d : BitVec 6) (k : BitVec 12) (l : Option Word) :
    candOf (xkWord h op d k) l = decodeX (xkWord h op d k) l := by
  simp only [candOf, fF_xkWord]
  rfl
theorem candOf_mW (h : Head) (op : BitVec 5) (q : BitVec 3) (d : BitVec 6) (a : BitVec 5) (p : BitVec 2) (b : BitVec 1)
    (l : Option Word) : candOf (mW h op q d a p b) l = decodeM (mW h op q d a p b) l := by
  simp only [candOf, fF_mW]
  rfl

end Sys2Proof
end

