-- ==== Sys2Proof/Laws/Memory.lean ====
section
/-! SUPPORT. Sys2Proof/Laws/Memory.lean: reading after writing, and that every memory operation keeps the canonical form. -/

set_option Elab.async false

namespace Sys2Proof.Machine

/-! ### Cells -/

theorem cellsFrom_none_of_some {l : List Host.Cell} {k : Nat} (h : cellsFrom (some k) l = true) : cellsFrom none l = true := by
  cases l with
  | nil => rfl
  | cons c t => simp_all [cellsFrom]

theorem cellsFrom_mono {l : List Host.Cell} {k j : Nat} (h : cellsFrom (some k) l = true) (hj : j ≤ k) : cellsFrom (some j) l = true := by
  cases l with
  | nil => rfl
  | cons c t => simp_all [cellsFrom]; omega

/-- A cell list that rises from above k gives 0 at every address up to k. -/
theorem cellGet_below {l : List Host.Cell} {k a : Nat} (h : cellsFrom (some k) l = true) (ha : a ≤ k) : cellGet l a = 0 := by
  induction l generalizing k with
  | nil => rfl
  | cons c t ih =>
    obtain ⟨c1, c2⟩ := c
    simp [cellsFrom] at h
    simp only [cellGet]
    rw [if_neg (by omega)]
    exact ih h.2 (by omega)

theorem cellsFrom_cellSet {l : List Host.Cell} {k : Option Nat} {a : Nat} {b : Byte} (h : cellsFrom k l = true) (ha : ∀ n, k = some n → n < a) :
    cellsFrom k (cellSet l a b) = true := by
  induction l generalizing k with
  | nil => cases k <;> simp_all [cellSet] <;> split <;> simp_all [cellsFrom]
  | cons c t ih =>
    obtain ⟨c1, c2⟩ := c
    simp only [cellSet]
    have h2 : cellsFrom (some c1) t = true := by cases k <;> simp_all [cellsFrom]
    have hc : c2 ≠ 0 := by cases k <;> simp_all [cellsFrom]
    have hk : ∀ n, k = some n → n < c1 := by intro n hn; subst hn; simp [cellsFrom] at h; exact h.1.1
    have mk : ∀ (x : Nat) (y : Byte) (u : List Host.Cell), (∀ n, k = some n → n < x) → y ≠ 0 → cellsFrom (some x) u = true →
        cellsFrom k ((x, y) :: u) = true := by
      intro x y u h1 h3 h4
      cases k <;> simp_all [cellsFrom]
    split
    · split
      · exact h
      · exact mk _ _ _ ha ‹_› (by simp_all [cellsFrom])
    · split
      · split
        · cases k with
          | none => exact cellsFrom_none_of_some h2
          | some n => exact cellsFrom_mono h2 (Nat.le_of_lt (hk n rfl))
        · exact mk _ _ _ hk ‹_› h2
      · exact mk _ _ _ hk hc (ih h2 (by intro n hn; injection hn with hn; omega))

/-- An address reads what was last written to it. -/
theorem cellGet_cellSet {l : List Host.Cell} {k : Option Nat} (h : cellsFrom k l = true) (a x : Nat) (b : Byte) :
    cellGet (cellSet l a b) x = if x = a then b else cellGet l x := by
  induction l generalizing k with
  | nil =>
    by_cases hb : b = 0
    · simp [cellSet, hb, cellGet]
    · simp only [cellSet, if_neg hb, cellGet]
      by_cases e : x = a
      · simp [e]
      · simp [e, Ne.symm e]
  | cons c t ih =>
    obtain ⟨c1, c2⟩ := c
    have h2 : cellsFrom (some c1) t = true := by cases k <;> simp_all [cellsFrom]
    simp only [cellSet]
    split
    · rename_i h1
      have hz : cellGet ((c1, c2) :: t) a = 0 := by
        simp only [cellGet]; rw [if_neg (by omega)]; exact cellGet_below h2 (by omega)
      split
      · rename_i hb
        by_cases e : x = a
        · subst e; rw [if_pos rfl, hz, hb]
        · rw [if_neg e]
      · by_cases e : x = a
        · subst e; simp [cellGet]
        · simp [cellGet, e, Ne.symm e]
    · split
      · rename_i h1 h3
        subst h3
        split
        · rename_i hb
          by_cases e : x = a
          · subst e; rw [if_pos rfl, cellGet_below h2 (Nat.le_refl _), hb]
          · simp [cellGet, e, Ne.symm e]
        · by_cases e : x = a
          · subst e; simp [cellGet]
          · simp [cellGet, e, Ne.symm e]
      · rename_i h1 h3
        simp only [cellGet, ih h2]
        by_cases e : c1 = x
        · have : x ≠ a := by omega
          simp [e, this]
        · simp [e]

theorem cellsFrom_filter {l : List Host.Cell} {k : Option Nat} (p : Host.Cell → Bool) (h : cellsFrom k l = true) :
    cellsFrom k (l.filter p) = true := by
  induction l generalizing k with
  | nil => exact h
  | cons c t ih =>
    obtain ⟨c1, c2⟩ := c
    have h2 : cellsFrom (some c1) t = true := by cases k <;> simp_all [cellsFrom]
    simp only [List.filter_cons]
    split
    · have := ih h2
      cases k <;> simp_all [cellsFrom]
    · cases k with
      | none => exact cellsFrom_none_of_some (ih h2)
      | some n =>
        have hn : n < c1 := by simp [cellsFrom] at h; exact h.1.1
        exact cellsFrom_mono (ih h2) (Nat.le_of_lt hn)

/-! ### Rising numbers -/

theorem natsFrom_none_of_some {l : List Nat} {k : Nat} (h : natsFrom (some k) l = true) : natsFrom none l = true := by
  cases l with
  | nil => rfl
  | cons c t => simp_all [natsFrom]

theorem natsFrom_mono {l : List Nat} {k j : Nat} (h : natsFrom (some k) l = true) (hj : j ≤ k) : natsFrom (some j) l = true := by
  cases l with
  | nil => rfl
  | cons c t => simp_all [natsFrom]; omega

theorem natsFrom_tail {l : List Nat} {k : Option Nat} {c : Nat} (h : natsFrom k (c :: l) = true) : natsFrom (some c) l = true := by
  cases k <;> simp_all [natsFrom]

theorem natsFrom_cons {l : List Nat} {k : Option Nat} {c : Nat} (h1 : ∀ n, k = some n → n < c) (h2 : natsFrom (some c) l = true) :
    natsFrom k (c :: l) = true := by
  cases k <;> simp_all [natsFrom]

theorem natsFrom_not_mem {l : List Nat} {k a : Nat} (h : natsFrom (some k) l = true) (ha : a ≤ k) : a ∉ l := by
  induction l generalizing k with
  | nil => simp
  | cons c t ih =>
    have hc : k < c := by simp [natsFrom] at h; exact h.1
    intro hm
    rcases List.mem_cons.1 hm with e | e
    · omega
    · exact ih (natsFrom_tail h) (by omega) e

theorem natsFrom_natInsert {l : List Nat} {k : Option Nat} {a : Nat} (h : natsFrom k l = true) (ha : ∀ n, k = some n → n < a) :
    natsFrom k (natInsert l a) = true := by
  induction l generalizing k with
  | nil => exact natsFrom_cons ha rfl
  | cons c t ih =>
    have hk : ∀ n, k = some n → n < c := by intro n hn; subst hn; simp [natsFrom] at h; exact h.1
    simp only [natInsert]
    split
    · exact natsFrom_cons ha (natsFrom_cons (by intro n hn; injection hn with hn; omega) (natsFrom_tail h))
    · split
      · exact h
      · exact natsFrom_cons hk (ih (natsFrom_tail h) (by intro n hn; injection hn with hn; omega))

theorem natsFrom_natErase {l : List Nat} {k : Option Nat} {a : Nat} (h : natsFrom k l = true) : natsFrom k (natErase l a) = true := by
  induction l generalizing k with
  | nil => exact h
  | cons c t ih =>
    have hk : ∀ n, k = some n → n < c := by intro n hn; subst hn; simp [natsFrom] at h; exact h.1
    simp only [natErase]
    split
    · cases k with
      | none => exact natsFrom_none_of_some (natsFrom_tail h)
      | some n => exact natsFrom_mono (natsFrom_tail h) (Nat.le_of_lt (hk n rfl))
    · exact natsFrom_cons hk (ih (natsFrom_tail h))

theorem natsFrom_filter {l : List Nat} {k : Option Nat} (p : Nat → Bool) (h : natsFrom k l = true) : natsFrom k (l.filter p) = true := by
  induction l generalizing k with
  | nil => exact h
  | cons c t ih =>
    have hk : ∀ n, k = some n → n < c := by intro n hn; subst hn; simp [natsFrom] at h; exact h.1
    simp only [List.filter_cons]
    split
    · exact natsFrom_cons hk (ih (natsFrom_tail h))
    · cases k with
      | none => exact natsFrom_none_of_some (ih (natsFrom_tail h))
      | some n => exact natsFrom_mono (ih (natsFrom_tail h)) (Nat.le_of_lt (hk n rfl))

theorem mem_natInsert (l : List Nat) (a x : Nat) : x ∈ natInsert l a ↔ x = a ∨ x ∈ l := by
  induction l with
  | nil => simp [natInsert]
  | cons c t ih =>
    simp only [natInsert]
    split
    · simp
    · split
      · rename_i h; subst h; simp
      · simp [ih]; constructor <;> rintro (h | h | h) <;> simp_all

theorem mem_natErase {l : List Nat} {k : Option Nat} (h : natsFrom k l = true) (a x : Nat) : x ∈ natErase l a ↔ x ≠ a ∧ x ∈ l := by
  induction l generalizing k with
  | nil => simp [natErase]
  | cons c t ih =>
    have ht := natsFrom_tail h
    simp only [natErase]
    split
    · rename_i e
      subst e
      have := natsFrom_not_mem ht (Nat.le_refl a)
      constructor
      · intro hx; exact ⟨fun e => this (e ▸ hx), List.mem_cons_of_mem _ hx⟩
      · rintro ⟨h1, h2⟩; rcases List.mem_cons.1 h2 with e | e
        · exact absurd e h1
        · exact e
    · rename_i e
      simp [ih ht]
      constructor
      · rintro (h | ⟨h1, h2⟩)
        · subst h; exact ⟨fun h => e h.symm, .inl rfl⟩
        · exact ⟨h1, .inr h2⟩
      · rintro ⟨h1, h | h⟩
        · exact .inl h
        · exact .inr ⟨h1, h⟩

/-! ### The operations of a memory -/

namespace Memory

theorem wf_iff (m : Memory) : m.wf = true ↔ cellsFrom none m.cells = true ∧ natsFrom none m.empty = true := by
  simp [wf]

theorem setByte_wf {m : Memory} (h : m.wf = true) (a : Nat) (b : Byte) : (m.setByte a b).wf = true := by
  rw [wf_iff] at *
  exact ⟨cellsFrom_cellSet h.1 (by simp), h.2⟩

theorem setFull_wf {m : Memory} (h : m.wf = true) (w : Nat) (f : Bool) : (m.setFull w f).wf = true := by
  rw [wf_iff] at *
  refine ⟨h.1, ?_⟩
  simp only [setFull]
  split
  · exact natsFrom_natErase h.2
  · exact natsFrom_natInsert h.2 (by simp)

theorem writeBytes_wf {m : Memory} (h : m.wf = true) (a : Nat) (l : List Byte) : (m.writeBytes a l).wf = true := by
  induction l generalizing m a with
  | nil => exact h
  | cons b t ih => exact ih (setByte_wf h a b) (a + 1)

theorem write_wf {m : Memory} (h : m.wf = true) (a n v : Nat) : (m.write a n v).wf = true := writeBytes_wf h a _

theorem setFulls_wf {m : Memory} (h : m.wf = true) (w : Nat) (f : Bool) (n : Nat) : (m.setFulls w f n).wf = true := by
  induction n generalizing m w with
  | zero => exact h
  | succ n ih => exact ih (setFull_wf h w f) (w + 1)

theorem zeroed_wf {m : Memory} (h : m.wf = true) (p : Nat → Bool) : (m.zeroed p).wf = true := by
  rw [wf_iff] at *
  exact ⟨cellsFrom_filter _ h.1, h.2⟩

theorem filled_wf {m : Memory} (h : m.wf = true) (p : Nat → Bool) : (m.filled p).wf = true := by
  rw [wf_iff] at *
  exact ⟨h.1, natsFrom_filter _ h.2⟩

theorem clearRange_wf {m : Memory} (h : m.wf = true) (lo hi : Nat) : (m.clearRange lo hi).wf = true := filled_wf (zeroed_wf h _) _

/-- A fold of writes keeps the form. -/
theorem foldl_wf {α : Type} (f : Memory → α → Memory) (hf : ∀ m x, m.wf = true → (f m x).wf = true) (l : List α) {m : Memory}
    (h : m.wf = true) : (l.foldl f m).wf = true := by
  induction l generalizing m with
  | nil => exact h
  | cons x t ih => exact ih (hf m x h)

theorem byte_setByte {m : Memory} (h : m.wf = true) (a x : Nat) (b : Byte) : (m.setByte a b).byte x = if x = a then b else m.byte x :=
  cellGet_cellSet ((wf_iff m).1 h).1 a x b
@[simp] theorem full_setByte (m : Memory) (a w : Nat) (b : Byte) : (m.setByte a b).full w = m.full w := rfl
@[simp] theorem byte_setFull (m : Memory) (w a : Nat) (f : Bool) : (m.setFull w f).byte a = m.byte a := rfl

theorem full_setFull {m : Memory} (h : m.wf = true) (w x : Nat) (f : Bool) : (m.setFull w f).full x = if x = w then f else m.full x := by
  have h2 := ((wf_iff m).1 h).2
  simp only [full, setFull]
  cases f with
  | true =>
    have := mem_natErase h2 w x
    by_cases e : x = w
    · simp [e, mem_natErase h2]
    · simp [e, this]
  | false => by_cases e : x = w <;> simp [e, mem_natInsert]

/-- Bytes written from a read back, and no other byte changes. -/
theorem byte_writeBytes {m : Memory} (h : m.wf = true) (a : Nat) (l : List Byte) (x : Nat) :
    (m.writeBytes a l).byte x = if a ≤ x ∧ x < a + l.length then l.getD (x - a) 0 else m.byte x := by
  induction l generalizing m a with
  | nil =>
    have : ¬ (a ≤ x ∧ x < a + ([] : List Byte).length) := by simp only [List.length_nil]; omega
    rw [if_neg this]; rfl
  | cons b t ih =>
    simp only [writeBytes, ih (setByte_wf h a b), byte_setByte h, List.length_cons]
    by_cases e : x = a
    · subst e
      rw [if_neg (by omega), if_pos rfl, if_pos (by omega)]; simp
    · rw [if_neg e]
      by_cases e2 : a + 1 ≤ x ∧ x < a + 1 + t.length
      · have : x - a = (x - (a + 1)) + 1 := by omega
        rw [if_pos e2, if_pos (by omega), this]; rfl
      · rw [if_neg e2, if_neg (by omega)]
@[simp] theorem full_writeBytes (m : Memory) (a : Nat) (l : List Byte) (w : Nat) : (m.writeBytes a l).full w = m.full w := by
  induction l generalizing m a with
  | nil => rfl
  | cons b t ih => rw [writeBytes, ih]; rfl
@[simp] theorem byte_setFulls (m : Memory) (w a n : Nat) (f : Bool) : (m.setFulls w f n).byte a = m.byte a := by
  induction n generalizing m w with
  | zero => rfl
  | succ n ih => rw [setFulls, ih]; rfl

/-- The bits of n words from w. -/
theorem full_setFulls {m : Memory} (h : m.wf = true) (w n x : Nat) (f : Bool) :
    (m.setFulls w f n).full x = if w ≤ x ∧ x < w + n then f else m.full x := by
  induction n generalizing m w with
  | zero => rw [if_neg (by omega)]; rfl
  | succ n ih =>
    rw [setFulls, ih (setFull_wf h w f), full_setFull h]
    by_cases e : x = w
    · subst e; rw [if_neg (by omega), if_pos rfl, if_pos (by omega)]
    · rw [if_neg e]
      by_cases e2 : w + 1 ≤ x ∧ x < w + 1 + n
      · rw [if_pos e2, if_pos (by omega)]
      · rw [if_neg e2, if_neg (by omega)]

theorem readBytes_length (m : Memory) (a n : Nat) : (m.readBytes a n).length = n := by
  induction n generalizing a with
  | zero => rfl
  | succ n ih => simp [readBytes, ih]

end Memory

/-! ### Little-endian numbers -/

theorem bytesOfNat_length (n v : Nat) : (bytesOfNat n v).length = n := by
  induction n generalizing v with
  | zero => rfl
  | succ n ih => simp [bytesOfNat, ih]

theorem bytesOfNat_getD (n v i : Nat) (h : i < n) : (bytesOfNat n v).getD i 0 = BitVec.ofNat 8 (v / 2 ^ (8 * i)) := by
  induction n generalizing v i with
  | zero => omega
  | succ n ih =>
    cases i with
    | zero => simp [bytesOfNat]
    | succ i =>
      have := ih (v / 256) i (by omega)
      simp only [bytesOfNat, List.getD_cons_succ, this]
      rw [Nat.div_div_eq_div_mul]
      congr 2
      rw [show 8 * (i + 1) = 8 + 8 * i by omega, Nat.pow_add]

theorem natOfBytes_lt (l : List Byte) : natOfBytes l < 2 ^ (8 * l.length) := by
  induction l with
  | nil => simp [natOfBytes]
  | cons b t ih =>
    have hb := b.isLt
    simp only [natOfBytes, List.length_cons]
    rw [show 8 * (t.length + 1) = 8 + 8 * t.length by omega, Nat.pow_add]
    omega

/-! ### Places -/

namespace Loc

theorem foldl_setByte_wf {m : Memory} (h : m.wf = true) (l : List (Nat × Byte)) :
    (l.foldl (fun m kb => m.setByte kb.1 kb.2) m).wf = true :=
  Memory.foldl_wf _ (fun _ _ hm => Memory.setByte_wf hm _ _) l h

theorem store_wf {m : Memory} (h : m.wf = true) (l : Loc) (v : Nat) : (l.store m v).wf = true := foldl_setByte_wf h _

theorem setFull_wf {m : Memory} (h : m.wf = true) (l : Loc) (f : Bool) : (l.setFull m f).wf = true := by
  unfold setFull
  split
  · exact Memory.setByte_wf h _ _
  · exact h
  · exact Memory.foldl_wf _ (fun _ _ hm => Memory.setFull_wf hm _ _) _ h

end Loc

theorem setForm_wf {m : Memory} (h : m.wf = true) (l : Loc) (f : Form) : (setForm m l f).wf = true := by
  unfold setForm
  split
  · exact Loc.setFull_wf h _ _
  · exact h

/-! ### Byte-addressed places as runs of bytes and words -/

/-- Writing a run of keys byte by byte is one write of the run. -/
theorem foldl_run_writeBytes {m : Memory} (h : m.wf = true) (key : Nat) (bs : List Byte) :
    (((List.range bs.length).map (fun i => key + i)).zip bs).foldl (fun m kb => m.setByte kb.1 kb.2) m = m.writeBytes key bs := by
  induction bs generalizing m key with
  | nil => rfl
  | cons b t ih =>
    have e : (List.range (t.length + 1)).map (fun i => key + i) = key :: (List.range t.length).map (fun i => (key + 1) + i) := by
      rw [List.range_succ_eq_map]; simp [Nat.add_assoc, Nat.add_comm 1, Function.comp_def]
    simp only [List.length_cons, e, List.zip_cons_cons, List.foldl_cons]
    rw [ih (Memory.setByte_wf h _ _)]; rfl

/-- Reading a run of keys. -/
theorem map_run_byte (m : Memory) (key n : Nat) : ((List.range n).map (fun i => key + i)).map m.byte = m.readBytes key n := by
  induction n generalizing key with
  | zero => rfl
  | succ n ih =>
    rw [List.range_succ_eq_map]
    simp only [List.map_cons, List.map_map, Memory.readBytes, ← ih (key + 1)]
    simp [Function.comp_def, Nat.add_assoc, Nat.add_comm 1]

/-- Setting the bits of a run of words. -/
theorem foldl_run_setFull {m : Memory} (h : m.wf = true) (k n : Nat) (f : Bool) :
    ((List.range n).map (fun i => k + i)).foldl (fun m w => m.setFull w f) m = m.setFulls k f n := by
  induction n generalizing m k with
  | zero => rfl
  | succ n ih =>
    rw [List.range_succ_eq_map]
    simp only [List.map_cons, List.map_map, List.foldl_cons, Memory.setFulls]
    rw [← ih (Memory.setFull_wf h _ _)]
    simp [Function.comp_def, Nat.add_assoc, Nat.add_comm 1]

/-- Reset memory is in the canonical form. -/
theorem reset_mem_wf : State.reset.mem.wf = true := rfl

end Sys2Proof.Machine
end

