-- ==== Sys2Proof/Laws/Homes.lean ====
section
/-! SUPPORT. Sys2Proof/Laws/Homes.lean: reads at the homes leave everything but the slices' own bookkeeping as it was (R228, R343, R345,
R349). -/

namespace Sys2Proof.Machine

theorem upToHomes_refl (s : State) : UpToHomes s s := rfl

theorem upToHomes_trans {s t u : State} (h1 : UpToHomes s t) (h2 : UpToHomes t u) : UpToHomes s u :=
  Eq.trans h2 (by rw [h1])

/-- A fold of such updates is one. -/
theorem upToHomes_foldl {α : Type} (f : State → α → State) (h : ∀ s x, UpToHomes s (f s x)) (l : List α) :
    ∀ s, UpToHomes s (l.foldl f s) := by
  induction l with
  | nil => exact fun _ => rfl
  | cons x l ih => exact fun s => upToHomes_trans (h s x) (ih _)

/-- What such an update leaves. -/
theorem upToHomes_mem {s t : State} (h : UpToHomes s t) : t.mem = s.mem := by rw [h]
theorem upToHomes_fibres {s t : State} (h : UpToHomes s t) : t.fibres = s.fibres := by rw [h]
theorem upToHomes_accesses {s t : State} (h : UpToHomes s t) : t.accesses = s.accesses := by rw [h]
theorem upToHomes_parts {s t : State} (h : UpToHomes s t) : t.parts = s.parts := by rw [h]
theorem upToHomes_time {s t : State} (h : UpToHomes s t) : t.time = s.time := by rw [h]

namespace State

theorem noTag_homes (s : State) : UpToHomes s s.noTag := rfl
theorem healSector_homes (s : State) (ch sec : Nat) : UpToHomes s (s.healSector ch sec) := rfl
theorem countLost_homes (s : State) : UpToHomes s s.countLost := rfl
theorem tookTurn_homes (s : State) (sl key : Nat) : UpToHomes s (s.tookTurn sl key) := rfl

theorem readSector_homes (s : State) (ch sec : Nat) : UpToHomes s (s.readSector ch sec).2 := by
  unfold readSector
  split <;> rfl

theorem sendPort_homes (s : State) (a : Nat) (r : PortReq) : UpToHomes s (s.sendPort a r) := by
  unfold sendPort
  split <;> rfl

theorem writeBack_homes (s : State) (x : L2Line) : UpToHomes s (s.writeBack x) := by
  unfold writeBack
  dsimp only
  split
  · rfl
  · split
    · exact sendPort_homes ..
    · refine upToHomes_foldl _ (fun s h => ?_) _ s
      split
      · rfl
      · split
        · exact sendPort_homes ..
        · exact sendPort_homes ..

theorem roomFor_homes (s : State) (sl ln : Nat) : UpToHomes s (s.roomFor sl ln) := by
  unfold roomFor
  split
  · rfl
  · split
    · rfl
    · exact upToHomes_trans (writeBack_homes ..) rfl

theorem allocate_homes (s : State) (u : HomeUse) (ln : Nat) (v d fe : List Bool) : UpToHomes s (s.allocate u ln v d fe) := by
  unfold allocate
  dsimp only
  split
  · rfl
  · split
    · rfl
    · exact upToHomes_trans (roomFor_homes ..) rfl

theorem useLine_homes (s : State) (ln : Nat) : UpToHomes s (s.useLine ln) := by
  unfold useLine
  split
  · rfl
  · split <;> rfl

theorem cleanL2_homes (s : State) (keys : List Nat) : UpToHomes s (s.cleanL2 keys) := by
  unfold cleanL2
  dsimp only
  split
  · rfl
  · refine upToHomes_trans ?_ (upToHomes_foldl _ (fun s _ => countLost_homes s) _ _)
    rfl

theorem noteFrames_homes (s : State) (u : HomeUse) (keys : List Nat) : UpToHomes s (s.noteFrames u keys) := by
  unfold noteFrames
  split <;> rfl

theorem bringSector_homes (s : State) (u : HomeUse) (sec : Nat) : UpToHomes s (s.bringSector u sec) := by
  unfold bringSector
  dsimp only
  split
  · rfl
  · split
    · exact readSector_homes ..
    · exact upToHomes_trans (readSector_homes ..) (allocate_homes ..)

theorem touchLines_homes (s : State) (u : HomeUse) (keys : List Nat) : UpToHomes s (s.touchLines u keys) := by
  unfold touchLines
  dsimp only
  refine upToHomes_trans ?_ (noteFrames_homes ..)
  have lines : ∀ (s : State) (l : List Nat), UpToHomes s (l.foldl useLine s) := fun s l =>
    upToHomes_foldl _ useLine_homes l s
  by_cases h : (u.attr == 2) = true
  · rw [if_pos h, if_pos h]
    exact upToHomes_trans (lines ..) rfl
  · rw [if_neg h, if_neg h]
    exact upToHomes_trans (upToHomes_foldl _ (fun s ln => allocate_homes ..) _ s) (lines ..)

/-- Reads at the homes change no byte, no fibre and no access: only what the slices hold, the requests under way, and the counts. -/
theorem homeReads_homes (s : State) (u : HomeUse) (keys : List Nat) : UpToHomes s (s.homeReads u keys) := by
  unfold homeReads
  dsimp only
  exact upToHomes_trans (upToHomes_trans (cleanL2_homes ..) (upToHomes_foldl _ (fun s x => bringSector_homes ..) _ _)) (touchLines_homes ..)

theorem frontTook_homes (s : State) (p : Nat) (keys : List Nat) : UpToHomes s (s.frontTook p keys) := by
  unfold frontTook
  exact upToHomes_foldl _ (fun s sl => tookTurn_homes ..) _ s

theorem frontReads_homes (s : State) (u : HomeUse) (keys : List Nat) : UpToHomes s (s.frontReads u keys) :=
  upToHomes_trans (homeReads_homes ..) (frontTook_homes ..)

/-- A line of a write changes no byte of its own: the write itself does. -/
theorem writeLine_homes (s : State) (u : HomeUse) (keys words : List Nat) (ln : Nat) : UpToHomes s (s.writeLine u keys words ln) := by
  unfold writeLine
  dsimp only
  split
  · rfl
  · split
    · exact allocate_homes ..
    · refine upToHomes_trans ?_ (upToHomes_foldl _ (fun s h => ?_) _ _)
      · split
        · exact allocate_homes ..
        · rfl
      · split
        · exact sendPort_homes ..
        · rfl

/-- A write's bitmap marks keep memory's canonical form. -/
theorem markBitmap_wf {s : State} (h : s.mem.wf = true) (keys : List Nat) : (s.markBitmap keys).mem.wf = true := by
  unfold markBitmap
  generalize s.migrations = ms
  induction ms generalizing s with
  | nil => exact h
  | cons m ms ih =>
    refine ih ?_
    dsimp only
    split
    · exact Memory.foldl_wf _ (fun m x hm => Memory.setByte_wf hm _ _) _ h
    · exact h

/-- What a write does beside the write itself keeps it too. -/
theorem homeWrote_wf {s : State} (h : s.mem.wf = true) (u : HomeUse) (keys words : List Nat) : (s.homeWrote u keys words).mem.wf = true := by
  unfold homeWrote
  dsimp only
  rw [upToHomes_mem (touchLines_homes ..)]
  refine markBitmap_wf ?_ _
  rw [upToHomes_mem (upToHomes_foldl _ (fun s ln => writeLine_homes ..) _ _)]
  exact h

theorem redraw_homes (s : State) : UpToHomes s s.redraw := by
  unfold redraw
  split <;> rfl

theorem cacheXlat_homes (s : State) (c : Context) (va : Nat) (e : TlbEntry) : UpToHomes s (s.cacheXlat c va e) := by
  unfold cacheXlat
  split <;> rfl

theorem cacheVa_homes (s : State) (c : Context) (va : Nat) (n : Need) : UpToHomes s (s.cacheVa c va n) := by
  unfold cacheVa
  split
  · exact upToHomes_trans (homeReads_homes ..) (cacheXlat_homes ..)
  · rfl

end State

end Sys2Proof.Machine
end

