-- ==== Sys2Proof/Laws/PerInstr.lean ====
section
/-! SUPPORT. Sys2Proof/Laws/PerInstr.lean: per constructor of Instr, that decoding its encoding gives it back (R12 to R33). -/

set_option Elab.async false

namespace Sys2Proof.Laws.RoundTrip

/-- A well-formed issue word decodes from its own words, whatever words follow them; an event has no words. -/
def Statement (i : Instr) : Prop :=
  match i.isWord with
  | true => i.wf = true → ∀ more, decodeAt (encode i ++ more) = .ok i
  | false => encode i = []

theorem iadd (h : Head) (d : BitVec 6) (a : BitVec 6) (b : BitVec 6) : Statement (.iadd h d a b) := by
  intro hw more
  exact decode_of_cand _ _ _ hw (by rw [candOf_tWord]; unfold decodeT; rw [fOp_tWord]; simp [Cand.ok])

theorem isub (h : Head) (d : BitVec 6) (a : BitVec 6) (b : BitVec 6) : Statement (.isub h d a b) := by
  intro hw more
  exact decode_of_cand _ _ _ hw (by rw [candOf_tWord]; unfold decodeT; rw [fOp_tWord]; simp [Cand.ok])

theorem imul (h : Head) (d : BitVec 6) (a : BitVec 6) (b : BitVec 6) : Statement (.imul h d a b) := by
  intro hw more
  exact decode_of_cand _ _ _ hw (by rw [candOf_tWord]; unfold decodeT; rw [fOp_tWord]; simp [Cand.ok])

theorem imulhS (h : Head) (d : BitVec 6) (a : BitVec 6) (b : BitVec 6) : Statement (.imulhS h d a b) := by
  intro hw more
  exact decode_of_cand _ _ _ hw (by rw [candOf_tWord]; unfold decodeT; rw [fOp_tWord]; simp [Cand.ok])

theorem imulhN (h : Head) (d : BitVec 6) (a : BitVec 6) (b : BitVec 6) : Statement (.imulhN h d a b) := by
  intro hw more
  exact decode_of_cand _ _ _ hw (by rw [candOf_tWord]; unfold decodeT; rw [fOp_tWord]; simp [Cand.ok])

theorem imac (h : Head) (d : BitVec 6) (a : BitVec 6) (b : BitVec 6) : Statement (.imac h d a b) := by
  intro hw more
  exact decode_of_cand _ _ _ hw (by rw [candOf_tWord]; unfold decodeT; rw [fOp_tWord]; simp [Cand.ok])

theorem iminS (h : Head) (d : BitVec 6) (a : BitVec 6) (b : BitVec 6) : Statement (.iminS h d a b) := by
  intro hw more
  exact decode_of_cand _ _ _ hw (by rw [candOf_tWord]; unfold decodeT; rw [fOp_tWord]; simp [Cand.ok])

theorem iminN (h : Head) (d : BitVec 6) (a : BitVec 6) (b : BitVec 6) : Statement (.iminN h d a b) := by
  intro hw more
  exact decode_of_cand _ _ _ hw (by rw [candOf_tWord]; unfold decodeT; rw [fOp_tWord]; simp [Cand.ok])

theorem imaxS (h : Head) (d : BitVec 6) (a : BitVec 6) (b : BitVec 6) : Statement (.imaxS h d a b) := by
  intro hw more
  exact decode_of_cand _ _ _ hw (by rw [candOf_tWord]; unfold decodeT; rw [fOp_tWord]; simp [Cand.ok])

theorem imaxN (h : Head) (d : BitVec 6) (a : BitVec 6) (b : BitVec 6) : Statement (.imaxN h d a b) := by
  intro hw more
  exact decode_of_cand _ _ _ hw (by rw [candOf_tWord]; unfold decodeT; rw [fOp_tWord]; simp [Cand.ok])

theorem and (h : Head) (d : BitVec 6) (a : BitVec 6) (b : BitVec 6) : Statement (.and h d a b) := by
  intro hw more
  exact decode_of_cand _ _ _ hw (by rw [candOf_tWord]; unfold decodeT; rw [fOp_tWord]; simp [Cand.ok])

theorem or (h : Head) (d : BitVec 6) (a : BitVec 6) (b : BitVec 6) : Statement (.or h d a b) := by
  intro hw more
  exact decode_of_cand _ _ _ hw (by rw [candOf_tWord]; unfold decodeT; rw [fOp_tWord]; simp [Cand.ok])

theorem xor (h : Head) (d : BitVec 6) (a : BitVec 6) (b : BitVec 6) : Statement (.xor h d a b) := by
  intro hw more
  exact decode_of_cand _ _ _ hw (by rw [candOf_tWord]; unfold decodeT; rw [fOp_tWord]; simp [Cand.ok])

theorem andn (h : Head) (d : BitVec 6) (a : BitVec 6) (b : BitVec 6) : Statement (.andn h d a b) := by
  intro hw more
  exact decode_of_cand _ _ _ hw (by rw [candOf_tWord]; unfold decodeT; rw [fOp_tWord]; simp [Cand.ok])

theorem shl (h : Head) (d : BitVec 6) (a : BitVec 6) (b : BitVec 6) : Statement (.shl h d a b) := by
  intro hw more
  exact decode_of_cand _ _ _ hw (by rw [candOf_tWord]; unfold decodeT; rw [fOp_tWord]; simp [Cand.ok])

theorem shr (h : Head) (d : BitVec 6) (a : BitVec 6) (b : BitVec 6) : Statement (.shr h d a b) := by
  intro hw more
  exact decode_of_cand _ _ _ hw (by rw [candOf_tWord]; unfold decodeT; rw [fOp_tWord]; simp [Cand.ok])

theorem sar (h : Head) (d : BitVec 6) (a : BitVec 6) (b : BitVec 6) : Statement (.sar h d a b) := by
  intro hw more
  exact decode_of_cand _ _ _ hw (by rw [candOf_tWord]; unfold decodeT; rw [fOp_tWord]; simp [Cand.ok])

theorem rol (h : Head) (d : BitVec 6) (a : BitVec 6) (b : BitVec 6) : Statement (.rol h d a b) := by
  intro hw more
  exact decode_of_cand _ _ _ hw (by rw [candOf_tWord]; unfold decodeT; rw [fOp_tWord]; simp [Cand.ok])

theorem bfx (h : Head) (d : BitVec 6) (a : BitVec 6) (b : BitVec 6) : Statement (.bfx h d a b) := by
  intro hw more
  exact decode_of_cand _ _ _ hw (by rw [candOf_tWord]; unfold decodeT; rw [fOp_tWord]; simp [Cand.ok])

theorem bfi (h : Head) (d : BitVec 6) (a : BitVec 6) (b : BitVec 6) : Statement (.bfi h d a b) := by
  intro hw more
  exact decode_of_cand _ _ _ hw (by rw [candOf_tWord]; unfold decodeT; rw [fOp_tWord]; simp [Cand.ok])

theorem icmpS (h : Head) (n : BitVec 3) (p : BitVec 3) (a : BitVec 6) (b : BitVec 6) : Statement (.icmpS h n p a b) := by
  intro hw more
  exact decode_of_cand _ _ _ hw (by rw [candOf_tWord]; unfold decodeT; rw [fOp_tWord]; simp [Cand.ok, fN_tWord, fP_tWord])

theorem icmpN (h : Head) (n : BitVec 3) (p : BitVec 3) (a : BitVec 6) (b : BitVec 6) : Statement (.icmpN h n p a b) := by
  intro hw more
  exact decode_of_cand _ _ _ hw (by rw [candOf_tWord]; unfold decodeT; rw [fOp_tWord]; simp [Cand.ok, fN_tWord, fP_tWord])

theorem popc (h : Head) (d : BitVec 6) (a : BitVec 6) : Statement (.popc h d a) := by
  intro hw more
  exact decode_of_cand _ _ _ hw (by rw [candOf_tWord]; unfold decodeT; rw [fOp_tWord]; simp)

theorem clz (h : Head) (d : BitVec 6) (a : BitVec 6) : Statement (.clz h d a) := by
  intro hw more
  exact decode_of_cand _ _ _ hw (by rw [candOf_tWord]; unfold decodeT; rw [fOp_tWord]; simp)

theorem brev (h : Head) (d : BitVec 6) (a : BitVec 6) : Statement (.brev h d a) := by
  intro hw more
  exact decode_of_cand _ _ _ hw (by rw [candOf_tWord]; unfold decodeT; rw [fOp_tWord]; simp)

theorem mov (h : Head) (d : BitVec 6) (a : BitVec 6) : Statement (.mov h d a) := by
  intro hw more
  exact decode_of_cand _ _ _ hw (by rw [candOf_tWord]; unfold decodeT; rw [fOp_tWord]; simp)

theorem ladd (h : Head) (d : BitVec 6) (a : BitVec 6) (b : BitVec 6) : Statement (.ladd h d a b) := by
  intro hw more
  exact decode_of_cand _ _ _ hw (by rw [candOf_tWord]; unfold decodeT; rw [fOp_tWord]; simp [Cand.ok])

theorem lsub (h : Head) (d : BitVec 6) (a : BitVec 6) (b : BitVec 6) : Statement (.lsub h d a b) := by
  intro hw more
  exact decode_of_cand _ _ _ hw (by rw [candOf_tWord]; unfold decodeT; rw [fOp_tWord]; simp [Cand.ok])

theorem lmul (h : Head) (d : BitVec 6) (a : BitVec 6) (b : BitVec 6) : Statement (.lmul h d a b) := by
  intro hw more
  exact decode_of_cand _ _ _ hw (by rw [candOf_tWord]; unfold decodeT; rw [fOp_tWord]; simp [Cand.ok])

theorem lmulhS (h : Head) (d : BitVec 6) (a : BitVec 6) (b : BitVec 6) : Statement (.lmulhS h d a b) := by
  intro hw more
  exact decode_of_cand _ _ _ hw (by rw [candOf_tWord]; unfold decodeT; rw [fOp_tWord]; simp [Cand.ok])

theorem lmulhN (h : Head) (d : BitVec 6) (a : BitVec 6) (b : BitVec 6) : Statement (.lmulhN h d a b) := by
  intro hw more
  exact decode_of_cand _ _ _ hw (by rw [candOf_tWord]; unfold decodeT; rw [fOp_tWord]; simp [Cand.ok])

theorem lshl (h : Head) (d : BitVec 6) (a : BitVec 6) (b : BitVec 6) : Statement (.lshl h d a b) := by
  intro hw more
  exact decode_of_cand _ _ _ hw (by rw [candOf_tWord]; unfold decodeT; rw [fOp_tWord]; simp [Cand.ok])

theorem lshr (h : Head) (d : BitVec 6) (a : BitVec 6) (b : BitVec 6) : Statement (.lshr h d a b) := by
  intro hw more
  exact decode_of_cand _ _ _ hw (by rw [candOf_tWord]; unfold decodeT; rw [fOp_tWord]; simp [Cand.ok])

theorem lsar (h : Head) (d : BitVec 6) (a : BitVec 6) (b : BitVec 6) : Statement (.lsar h d a b) := by
  intro hw more
  exact decode_of_cand _ _ _ hw (by rw [candOf_tWord]; unfold decodeT; rw [fOp_tWord]; simp [Cand.ok])

theorem lcmpS (h : Head) (n : BitVec 3) (p : BitVec 3) (a : BitVec 6) (b : BitVec 6) : Statement (.lcmpS h n p a b) := by
  intro hw more
  exact decode_of_cand _ _ _ hw (by rw [candOf_tWord]; unfold decodeT; rw [fOp_tWord]; simp [Cand.ok, fN_tWord, fP_tWord])

theorem lcmpN (h : Head) (n : BitVec 3) (p : BitVec 3) (a : BitVec 6) (b : BitVec 6) : Statement (.lcmpN h n p a b) := by
  intro hw more
  exact decode_of_cand _ _ _ hw (by rw [candOf_tWord]; unfold decodeT; rw [fOp_tWord]; simp [Cand.ok, fN_tWord, fP_tWord])

theorem land (h : Head) (d : BitVec 6) (a : BitVec 6) (b : BitVec 6) : Statement (.land h d a b) := by
  intro hw more
  exact decode_of_cand _ _ _ hw (by rw [candOf_tWord]; unfold decodeT; rw [fOp_tWord]; simp [Cand.ok])

theorem lor (h : Head) (d : BitVec 6) (a : BitVec 6) (b : BitVec 6) : Statement (.lor h d a b) := by
  intro hw more
  exact decode_of_cand _ _ _ hw (by rw [candOf_tWord]; unfold decodeT; rw [fOp_tWord]; simp [Cand.ok])

theorem lxor (h : Head) (d : BitVec 6) (a : BitVec 6) (b : BitVec 6) : Statement (.lxor h d a b) := by
  intro hw more
  exact decode_of_cand _ _ _ hw (by rw [candOf_tWord]; unfold decodeT; rw [fOp_tWord]; simp [Cand.ok])

theorem lea1 (h : Head) (d : BitVec 6) (a : BitVec 6) (b : BitVec 6) : Statement (.lea1 h d a b) := by
  intro hw more
  exact decode_of_cand _ _ _ hw (by rw [candOf_tWord]; unfold decodeT; rw [fOp_tWord]; simp [Cand.ok])

theorem lea2 (h : Head) (d : BitVec 6) (a : BitVec 6) (b : BitVec 6) : Statement (.lea2 h d a b) := by
  intro hw more
  exact decode_of_cand _ _ _ hw (by rw [candOf_tWord]; unfold decodeT; rw [fOp_tWord]; simp [Cand.ok])

theorem lea4 (h : Head) (d : BitVec 6) (a : BitVec 6) (b : BitVec 6) : Statement (.lea4 h d a b) := by
  intro hw more
  exact decode_of_cand _ _ _ hw (by rw [candOf_tWord]; unfold decodeT; rw [fOp_tWord]; simp [Cand.ok])

theorem lea8 (h : Head) (d : BitVec 6) (a : BitVec 6) (b : BitVec 6) : Statement (.lea8 h d a b) := by
  intro hw more
  exact decode_of_cand _ _ _ hw (by rw [candOf_tWord]; unfold decodeT; rw [fOp_tWord]; simp [Cand.ok])

theorem fadd (h : Head) (d : BitVec 6) (a : BitVec 6) (b : BitVec 6) : Statement (.fadd h d a b) := by
  intro hw more
  exact decode_of_cand _ _ _ hw (by rw [candOf_tWord]; unfold decodeT; rw [fOp_tWord]; simp [Cand.ok])

theorem fsub (h : Head) (d : BitVec 6) (a : BitVec 6) (b : BitVec 6) : Statement (.fsub h d a b) := by
  intro hw more
  exact decode_of_cand _ _ _ hw (by rw [candOf_tWord]; unfold decodeT; rw [fOp_tWord]; simp [Cand.ok])

theorem fmul (h : Head) (d : BitVec 6) (a : BitVec 6) (b : BitVec 6) : Statement (.fmul h d a b) := by
  intro hw more
  exact decode_of_cand _ _ _ hw (by rw [candOf_tWord]; unfold decodeT; rw [fOp_tWord]; simp [Cand.ok])

theorem fmac (h : Head) (d : BitVec 6) (a : BitVec 6) (b : BitVec 6) : Statement (.fmac h d a b) := by
  intro hw more
  exact decode_of_cand _ _ _ hw (by rw [candOf_tWord]; unfold decodeT; rw [fOp_tWord]; simp [Cand.ok])

theorem fnmac (h : Head) (d : BitVec 6) (a : BitVec 6) (b : BitVec 6) : Statement (.fnmac h d a b) := by
  intro hw more
  exact decode_of_cand _ _ _ hw (by rw [candOf_tWord]; unfold decodeT; rw [fOp_tWord]; simp [Cand.ok])

theorem fmin (h : Head) (d : BitVec 6) (a : BitVec 6) (b : BitVec 6) : Statement (.fmin h d a b) := by
  intro hw more
  exact decode_of_cand _ _ _ hw (by rw [candOf_tWord]; unfold decodeT; rw [fOp_tWord]; simp [Cand.ok])

theorem fmax (h : Head) (d : BitVec 6) (a : BitVec 6) (b : BitVec 6) : Statement (.fmax h d a b) := by
  intro hw more
  exact decode_of_cand _ _ _ hw (by rw [candOf_tWord]; unfold decodeT; rw [fOp_tWord]; simp [Cand.ok])

theorem fcmp (h : Head) (n : BitVec 3) (p : BitVec 3) (a : BitVec 6) (b : BitVec 6) : Statement (.fcmp h n p a b) := by
  intro hw more
  exact decode_of_cand _ _ _ hw (by rw [candOf_tWord]; unfold decodeT; rw [fOp_tWord]; simp [Cand.ok, fN_tWord, fP_tWord])

theorem fneg (h : Head) (d : BitVec 6) (a : BitVec 6) : Statement (.fneg h d a) := by
  intro hw more
  exact decode_of_cand _ _ _ hw (by rw [candOf_tWord]; unfold decodeT; rw [fOp_tWord]; simp)

theorem fabs (h : Head) (d : BitVec 6) (a : BitVec 6) : Statement (.fabs h d a) := by
  intro hw more
  exact decode_of_cand _ _ _ hw (by rw [candOf_tWord]; unfold decodeT; rw [fOp_tWord]; simp)

theorem hadd2 (h : Head) (d : BitVec 6) (a : BitVec 6) (b : BitVec 6) : Statement (.hadd2 h d a b) := by
  intro hw more
  exact decode_of_cand _ _ _ hw (by rw [candOf_tWord]; unfold decodeT; rw [fOp_tWord]; simp [Cand.ok])

theorem hmul2 (h : Head) (d : BitVec 6) (a : BitVec 6) (b : BitVec 6) : Statement (.hmul2 h d a b) := by
  intro hw more
  exact decode_of_cand _ _ _ hw (by rw [candOf_tWord]; unfold decodeT; rw [fOp_tWord]; simp [Cand.ok])

theorem hfmac2 (h : Head) (d : BitVec 6) (a : BitVec 6) (b : BitVec 6) : Statement (.hfmac2 h d a b) := by
  intro hw more
  exact decode_of_cand _ _ _ hw (by rw [candOf_tWord]; unfold decodeT; rw [fOp_tWord]; simp [Cand.ok])

theorem badd2 (h : Head) (d : BitVec 6) (a : BitVec 6) (b : BitVec 6) : Statement (.badd2 h d a b) := by
  intro hw more
  exact decode_of_cand _ _ _ hw (by rw [candOf_tWord]; unfold decodeT; rw [fOp_tWord]; simp [Cand.ok])

theorem bmul2 (h : Head) (d : BitVec 6) (a : BitVec 6) (b : BitVec 6) : Statement (.bmul2 h d a b) := by
  intro hw more
  exact decode_of_cand _ _ _ hw (by rw [candOf_tWord]; unfold decodeT; rw [fOp_tWord]; simp [Cand.ok])

theorem bfmac2 (h : Head) (d : BitVec 6) (a : BitVec 6) (b : BitVec 6) : Statement (.bfmac2 h d a b) := by
  intro hw more
  exact decode_of_cand _ _ _ hw (by rw [candOf_tWord]; unfold decodeT; rw [fOp_tWord]; simp [Cand.ok])

theorem dadd (h : Head) (d : BitVec 6) (a : BitVec 6) (b : BitVec 6) : Statement (.dadd h d a b) := by
  intro hw more
  exact decode_of_cand _ _ _ hw (by rw [candOf_tWord]; unfold decodeT; rw [fOp_tWord]; simp [Cand.ok])

theorem dmul (h : Head) (d : BitVec 6) (a : BitVec 6) (b : BitVec 6) : Statement (.dmul h d a b) := by
  intro hw more
  exact decode_of_cand _ _ _ hw (by rw [candOf_tWord]; unfold decodeT; rw [fOp_tWord]; simp [Cand.ok])

theorem dfmac (h : Head) (d : BitVec 6) (a : BitVec 6) (b : BitVec 6) : Statement (.dfmac h d a b) := by
  intro hw more
  exact decode_of_cand _ _ _ hw (by rw [candOf_tWord]; unfold decodeT; rw [fOp_tWord]; simp [Cand.ok])

theorem dcmp (h : Head) (n : BitVec 3) (p : BitVec 3) (a : BitVec 6) (b : BitVec 6) : Statement (.dcmp h n p a b) := by
  intro hw more
  exact decode_of_cand _ _ _ hw (by rw [candOf_tWord]; unfold decodeT; rw [fOp_tWord]; simp [Cand.ok, fN_tWord, fP_tWord])

theorem iaddi (h : Head) (d : BitVec 6) (a : BitVec 6) (k : BitVec 8) : Statement (.iaddi h d a k) := by
  intro hw more
  exact decode_of_cand _ _ _ hw (by rw [candOf_iWord]; unfold decodeI; rw [iOp_iWord]; simp [Cand.ok])

theorem andi (h : Head) (d : BitVec 6) (a : BitVec 6) (k : BitVec 8) : Statement (.andi h d a k) := by
  intro hw more
  exact decode_of_cand _ _ _ hw (by rw [candOf_iWord]; unfold decodeI; rw [iOp_iWord]; simp [Cand.ok])

theorem ori (h : Head) (d : BitVec 6) (a : BitVec 6) (k : BitVec 8) : Statement (.ori h d a k) := by
  intro hw more
  exact decode_of_cand _ _ _ hw (by rw [candOf_iWord]; unfold decodeI; rw [iOp_iWord]; simp [Cand.ok])

theorem xori (h : Head) (d : BitVec 6) (a : BitVec 6) (k : BitVec 8) : Statement (.xori h d a k) := by
  intro hw more
  exact decode_of_cand _ _ _ hw (by rw [candOf_iWord]; unfold decodeI; rw [iOp_iWord]; simp [Cand.ok])

theorem shli (h : Head) (d : BitVec 6) (a : BitVec 6) (k : BitVec 5) : Statement (.shli h d a k) := by
  intro hw more
  exact decode_of_cand _ _ _ hw (by rw [candOf_iWord]; unfold decodeI; rw [iOp_iWord]; simp [iK5_iWord, iKhi_iWord])

theorem shri (h : Head) (d : BitVec 6) (a : BitVec 6) (k : BitVec 5) : Statement (.shri h d a k) := by
  intro hw more
  exact decode_of_cand _ _ _ hw (by rw [candOf_iWord]; unfold decodeI; rw [iOp_iWord]; simp [iK5_iWord, iKhi_iWord])

theorem sari (h : Head) (d : BitVec 6) (a : BitVec 6) (k : BitVec 5) : Statement (.sari h d a k) := by
  intro hw more
  exact decode_of_cand _ _ _ hw (by rw [candOf_iWord]; unfold decodeI; rw [iOp_iWord]; simp [iK5_iWord, iKhi_iWord])

theorem icmpiS (h : Head) (n : BitVec 3) (p : BitVec 3) (a : BitVec 6) (k : BitVec 8) : Statement (.icmpiS h n p a k) := by
  intro hw more
  exact decode_of_cand _ _ _ hw (by rw [candOf_iWord]; unfold decodeI; rw [iOp_iWord]; simp [Cand.ok, iN_iWord, iP_iWord])

theorem icmpiN (h : Head) (n : BitVec 3) (p : BitVec 3) (a : BitVec 6) (k : BitVec 8) : Statement (.icmpiN h n p a k) := by
  intro hw more
  exact decode_of_cand _ _ _ hw (by rw [candOf_iWord]; unfold decodeI; rw [iOp_iWord]; simp [Cand.ok, iN_iWord, iP_iWord])

theorem movi (h : Head) (d : BitVec 6) (k : BitVec 8) : Statement (.movi h d k) := by
  intro hw more
  exact decode_of_cand _ _ _ hw (by rw [candOf_iWord]; unfold decodeI; rw [iOp_iWord]; simp)

theorem laddi (h : Head) (d : BitVec 6) (a : BitVec 6) (k : BitVec 8) : Statement (.laddi h d a k) := by
  intro hw more
  exact decode_of_cand _ _ _ hw (by rw [candOf_iWord]; unfold decodeI; rw [iOp_iWord]; simp [Cand.ok])

theorem imuli (h : Head) (d : BitVec 6) (a : BitVec 6) (k : BitVec 8) : Statement (.imuli h d a k) := by
  intro hw more
  exact decode_of_cand _ _ _ hw (by rw [candOf_iWord]; unfold decodeI; rw [iOp_iWord]; simp [Cand.ok])

theorem ldb (h : Head) (q : BitVec 3) (d : BitVec 6) (a : BitVec 5) (p : BitVec 2) (off : Option Word) : Statement (.ldb h q d a p off) := by
  intro hw more
  rcases off with _ | l
  · exact decode_of_cand _ _ _ hw (by rw [candOf_mW]; unfold decodeM; rw [mOp_mW]; simp [mCand])
  · exact decode_of_cand _ _ _ hw (by rw [candOf_mW]; unfold decodeM; rw [mOp_mW]; simp [mCand])

theorem ldbs (h : Head) (q : BitVec 3) (d : BitVec 6) (a : BitVec 5) (p : BitVec 2) (off : Option Word) : Statement (.ldbs h q d a p off) := by
  intro hw more
  rcases off with _ | l
  · exact decode_of_cand _ _ _ hw (by rw [candOf_mW]; unfold decodeM; rw [mOp_mW]; simp [mCand])
  · exact decode_of_cand _ _ _ hw (by rw [candOf_mW]; unfold decodeM; rw [mOp_mW]; simp [mCand])

theorem ldh (h : Head) (q : BitVec 3) (d : BitVec 6) (a : BitVec 5) (p : BitVec 2) (off : Option Word) : Statement (.ldh h q d a p off) := by
  intro hw more
  rcases off with _ | l
  · exact decode_of_cand _ _ _ hw (by rw [candOf_mW]; unfold decodeM; rw [mOp_mW]; simp [mCand])
  · exact decode_of_cand _ _ _ hw (by rw [candOf_mW]; unfold decodeM; rw [mOp_mW]; simp [mCand])

theorem ldhs (h : Head) (q : BitVec 3) (d : BitVec 6) (a : BitVec 5) (p : BitVec 2) (off : Option Word) : Statement (.ldhs h q d a p off) := by
  intro hw more
  rcases off with _ | l
  · exact decode_of_cand _ _ _ hw (by rw [candOf_mW]; unfold decodeM; rw [mOp_mW]; simp [mCand])
  · exact decode_of_cand _ _ _ hw (by rw [candOf_mW]; unfold decodeM; rw [mOp_mW]; simp [mCand])

theorem ldw (h : Head) (q : BitVec 3) (d : BitVec 6) (a : BitVec 5) (p : BitVec 2) (off : Option Word) : Statement (.ldw h q d a p off) := by
  intro hw more
  rcases off with _ | l
  · exact decode_of_cand _ _ _ hw (by rw [candOf_mW]; unfold decodeM; rw [mOp_mW]; simp [mCand])
  · exact decode_of_cand _ _ _ hw (by rw [candOf_mW]; unfold decodeM; rw [mOp_mW]; simp [mCand])

theorem ldd (h : Head) (q : BitVec 3) (d : BitVec 6) (a : BitVec 5) (p : BitVec 2) (off : Option Word) : Statement (.ldd h q d a p off) := by
  intro hw more
  rcases off with _ | l
  · exact decode_of_cand _ _ _ hw (by rw [candOf_mW]; unfold decodeM; rw [mOp_mW]; simp [mCand])
  · exact decode_of_cand _ _ _ hw (by rw [candOf_mW]; unfold decodeM; rw [mOp_mW]; simp [mCand])

theorem ldq (h : Head) (q : BitVec 3) (d : BitVec 6) (a : BitVec 5) (p : BitVec 2) (off : Option Word) : Statement (.ldq h q d a p off) := by
  intro hw more
  rcases off with _ | l
  · exact decode_of_cand _ _ _ hw (by rw [candOf_mW]; unfold decodeM; rw [mOp_mW]; simp [mCand])
  · exact decode_of_cand _ _ _ hw (by rw [candOf_mW]; unfold decodeM; rw [mOp_mW]; simp [mCand])

theorem stb (h : Head) (q : BitVec 3) (d : BitVec 6) (a : BitVec 5) (p : BitVec 2) (off : Option Word) : Statement (.stb h q d a p off) := by
  intro hw more
  rcases off with _ | l
  · exact decode_of_cand _ _ _ hw (by rw [candOf_mW]; unfold decodeM; rw [mOp_mW]; simp [mCand])
  · exact decode_of_cand _ _ _ hw (by rw [candOf_mW]; unfold decodeM; rw [mOp_mW]; simp [mCand])

theorem sth (h : Head) (q : BitVec 3) (d : BitVec 6) (a : BitVec 5) (p : BitVec 2) (off : Option Word) : Statement (.sth h q d a p off) := by
  intro hw more
  rcases off with _ | l
  · exact decode_of_cand _ _ _ hw (by rw [candOf_mW]; unfold decodeM; rw [mOp_mW]; simp [mCand])
  · exact decode_of_cand _ _ _ hw (by rw [candOf_mW]; unfold decodeM; rw [mOp_mW]; simp [mCand])

theorem stw (h : Head) (q : BitVec 3) (d : BitVec 6) (a : BitVec 5) (p : BitVec 2) (off : Option Word) : Statement (.stw h q d a p off) := by
  intro hw more
  rcases off with _ | l
  · exact decode_of_cand _ _ _ hw (by rw [candOf_mW]; unfold decodeM; rw [mOp_mW]; simp [mCand])
  · exact decode_of_cand _ _ _ hw (by rw [candOf_mW]; unfold decodeM; rw [mOp_mW]; simp [mCand])

theorem std (h : Head) (q : BitVec 3) (d : BitVec 6) (a : BitVec 5) (p : BitVec 2) (off : Option Word) : Statement (.std h q d a p off) := by
  intro hw more
  rcases off with _ | l
  · exact decode_of_cand _ _ _ hw (by rw [candOf_mW]; unfold decodeM; rw [mOp_mW]; simp [mCand])
  · exact decode_of_cand _ _ _ hw (by rw [candOf_mW]; unfold decodeM; rw [mOp_mW]; simp [mCand])

theorem stq (h : Head) (q : BitVec 3) (d : BitVec 6) (a : BitVec 5) (p : BitVec 2) (off : Option Word) : Statement (.stq h q d a p off) := by
  intro hw more
  rcases off with _ | l
  · exact decode_of_cand _ _ _ hw (by rw [candOf_mW]; unfold decodeM; rw [mOp_mW]; simp [mCand])
  · exact decode_of_cand _ _ _ hw (by rw [candOf_mW]; unfold decodeM; rw [mOp_mW]; simp [mCand])

theorem ldt (h : Head) (q : BitVec 3) (d : BitVec 6) (a : BitVec 5) (p : BitVec 2) (lit : Word) : Statement (.ldt h q d a p lit) := by
  intro hw more
  exact decode_of_cand _ _ _ hw (by rw [candOf_mW]; unfold decodeM; rw [mOp_mW]; simp)

theorem stt (h : Head) (q : BitVec 3) (d : BitVec 6) (a : BitVec 5) (p : BitVec 2) (lit : Word) : Statement (.stt h q d a p lit) := by
  intro hw more
  exact decode_of_cand _ _ _ hw (by rw [candOf_mW]; unfold decodeM; rw [mOp_mW]; simp)

theorem atom (h : Head) (q : BitVec 3) (d : BitVec 6) (a : BitVec 5) (p : BitVec 2) (off : Option Word) : Statement (.atom h q d a p off) := by
  intro hw more
  rcases off with _ | l
  · exact decode_of_cand _ _ _ hw (by rw [candOf_mW]; unfold decodeM; rw [mOp_mW]; simp [mCand])
  · exact decode_of_cand _ _ _ hw (by rw [candOf_mW]; unfold decodeM; rw [mOp_mW]; simp [mCand])

theorem atomn (h : Head) (q : BitVec 3) (d : BitVec 6) (a : BitVec 5) (p : BitVec 2) (off : Option Word) : Statement (.atomn h q d a p off) := by
  intro hw more
  rcases off with _ | l
  · exact decode_of_cand _ _ _ hw (by rw [candOf_mW]; unfold decodeM; rw [mOp_mW]; simp [mCand])
  · exact decode_of_cand _ _ _ hw (by rw [candOf_mW]; unfold decodeM; rw [mOp_mW]; simp [mCand])

theorem atomd (h : Head) (q : BitVec 3) (d : BitVec 6) (a : BitVec 5) (p : BitVec 2) (off : Option Word) : Statement (.atomd h q d a p off) := by
  intro hw more
  rcases off with _ | l
  · exact decode_of_cand _ _ _ hw (by rw [candOf_mW]; unfold decodeM; rw [mOp_mW]; simp [mCand])
  · exact decode_of_cand _ _ _ hw (by rw [candOf_mW]; unfold decodeM; rw [mOp_mW]; simp [mCand])

theorem atomdn (h : Head) (q : BitVec 3) (d : BitVec 6) (a : BitVec 5) (p : BitVec 2) (off : Option Word) : Statement (.atomdn h q d a p off) := by
  intro hw more
  rcases off with _ | l
  · exact decode_of_cand _ _ _ hw (by rw [candOf_mW]; unfold decodeM; rw [mOp_mW]; simp [mCand])
  · exact decode_of_cand _ _ _ hw (by rw [candOf_mW]; unfold decodeM; rw [mOp_mW]; simp [mCand])

theorem atomf (h : Head) (q : BitVec 3) (d : BitVec 6) (a : BitVec 5) (p : BitVec 2) (off : Option Word) : Statement (.atomf h q d a p off) := by
  intro hw more
  rcases off with _ | l
  · exact decode_of_cand _ _ _ hw (by rw [candOf_mW]; unfold decodeM; rw [mOp_mW]; simp [mCand])
  · exact decode_of_cand _ _ _ hw (by rw [candOf_mW]; unfold decodeM; rw [mOp_mW]; simp [mCand])

theorem atomfn (h : Head) (q : BitVec 3) (d : BitVec 6) (a : BitVec 5) (p : BitVec 2) (off : Option Word) : Statement (.atomfn h q d a p off) := by
  intro hw more
  rcases off with _ | l
  · exact decode_of_cand _ _ _ hw (by rw [candOf_mW]; unfold decodeM; rw [mOp_mW]; simp [mCand])
  · exact decode_of_cand _ _ _ hw (by rw [candOf_mW]; unfold decodeM; rw [mOp_mW]; simp [mCand])

theorem xchg (h : Head) (d : BitVec 6) (a : BitVec 5) (p : BitVec 2) (off : Option Word) : Statement (.xchg h d a p off) := by
  intro hw more
  rcases off with _ | l
  · exact decode_of_cand _ _ _ hw (by rw [candOf_mW]; unfold decodeM; rw [mOp_mW]; simp [mCand])
  · exact decode_of_cand _ _ _ hw (by rw [candOf_mW]; unfold decodeM; rw [mOp_mW]; simp [mCand])

theorem cas (h : Head) (d : BitVec 6) (a : BitVec 5) (p : BitVec 2) (off : Option Word) : Statement (.cas h d a p off) := by
  intro hw more
  rcases off with _ | l
  · exact decode_of_cand _ _ _ hw (by rw [candOf_mW]; unfold decodeM; rw [mOp_mW]; simp [mCand])
  · exact decode_of_cand _ _ _ hw (by rw [candOf_mW]; unfold decodeM; rw [mOp_mW]; simp [mCand])

theorem casd (h : Head) (d : BitVec 6) (a : BitVec 5) (p : BitVec 2) (off : Option Word) : Statement (.casd h d a p off) := by
  intro hw more
  rcases off with _ | l
  · exact decode_of_cand _ _ _ hw (by rw [candOf_mW]; unfold decodeM; rw [mOp_mW]; simp [mCand])
  · exact decode_of_cand _ _ _ hw (by rw [candOf_mW]; unfold decodeM; rw [mOp_mW]; simp [mCand])

theorem tagr (h : Head) (d : BitVec 6) (a : BitVec 5) (p : BitVec 2) (off : Option Word) : Statement (.tagr h d a p off) := by
  intro hw more
  rcases off with _ | l
  · exact decode_of_cand _ _ _ hw (by rw [candOf_mW]; unfold decodeM; rw [mOp_mW]; simp [mCand])
  · exact decode_of_cand _ _ _ hw (by rw [candOf_mW]; unfold decodeM; rw [mOp_mW]; simp [mCand])

theorem tags (h : Head) (d : BitVec 6) (a : BitVec 5) (p : BitVec 2) (off : Option Word) : Statement (.tags h d a p off) := by
  intro hw more
  rcases off with _ | l
  · exact decode_of_cand _ _ _ hw (by rw [candOf_mW]; unfold decodeM; rw [mOp_mW]; simp [mCand])
  · exact decode_of_cand _ _ _ hw (by rw [candOf_mW]; unfold decodeM; rw [mOp_mW]; simp [mCand])

theorem pref (h : Head) (a : BitVec 5) (p : BitVec 2) (off : Option Word) : Statement (.pref h a p off) := by
  intro hw more
  rcases off with _ | l
  · exact decode_of_cand _ _ _ hw (by rw [candOf_mW]; unfold decodeM; rw [mOp_mW]; simp [mCand])
  · exact decode_of_cand _ _ _ hw (by rw [candOf_mW]; unfold decodeM; rw [mOp_mW]; simp [mCand])

theorem bra (h : Head) (o : BitVec 18) : Statement (.bra h o) := by
  intro hw more
  exact decode_of_cand _ _ _ hw (by rw [candOf_xbWord]; unfold decodeX; rw [fOp_xbWord]; simp [Cand.ok])

theorem call (h : Head) (o : BitVec 18) : Statement (.call h o) := by
  intro hw more
  exact decode_of_cand _ _ _ hw (by rw [candOf_xbWord]; unfold decodeX; rw [fOp_xbWord]; simp [Cand.ok])

theorem brx (h : Head) (a : BitVec 6) : Statement (.brx h a) := by
  intro hw more
  exact decode_of_cand _ _ _ hw (by rw [candOf_xtWord]; unfold decodeX; rw [fOp_tWord]; simp)

theorem ret (h : Head) : Statement (.ret h) := by
  intro hw more
  exact decode_of_cand _ _ _ hw (by rw [candOf_xtWord]; unfold decodeX; rw [fOp_tWord]; simp)

theorem loop (h : Head) (d : BitVec 6) (k : BitVec 12) : Statement (.loop h d k) := by
  intro hw more
  exact decode_of_cand _ _ _ hw (by rw [candOf_xkWord]; unfold decodeX; rw [fOp_xkWord]; simp [Cand.ok])

theorem endF (h : Head) : Statement (.endF h) := by
  intro hw more
  exact decode_of_cand _ _ _ hw (by rw [candOf_xtWord]; unfold decodeX; rw [fOp_tWord]; simp)

theorem endJ (h : Head) (a : BitVec 6) : Statement (.endJ h a) := by
  intro hw more
  exact decode_of_cand _ _ _ hw (by rw [candOf_xtWord]; unfold decodeX; rw [fOp_tWord]; simp)

theorem fork (h : Head) (d : BitVec 6) (a : BitVec 6) (b : BitVec 6) : Statement (.fork h d a b) := by
  intro hw more
  exact decode_of_cand _ _ _ hw (by rw [candOf_xtWord]; unfold decodeX; rw [fOp_tWord]; simp [Cand.ok])

theorem yield (h : Head) : Statement (.yield h) := by
  intro hw more
  exact decode_of_cand _ _ _ hw (by rw [candOf_xtWord]; unfold decodeX; rw [fOp_tWord]; simp)

theorem nop (h : Head) : Statement (.nop h) := by
  intro hw more
  exact decode_of_cand _ _ _ hw (by rw [candOf_xtWord]; unfold decodeX; rw [fOp_tWord]; simp)

theorem trap (h : Head) (k : BitVec 12) : Statement (.trap h k) := by
  intro hw more
  exact decode_of_cand _ _ _ hw (by rw [candOf_xkWord]; unfold decodeX; rw [fOp_xkWord]; simp)

theorem rett (h : Head) : Statement (.rett h) := by
  intro hw more
  exact decode_of_cand _ _ _ hw (by rw [candOf_xtWord]; unfold decodeX; rw [fOp_tWord]; simp)

theorem rds (h : Head) (d : BitVec 6) (i : BitVec 6) : Statement (.rds h d i) := by
  intro hw more
  have e1 : fB (xkWord h 11#6 d (0#6 ++ i)) = i := (inner_xkWord h 11#6 d (0#6 ++ i) 0 6 (by decide)).trans (low_append 0#6 i)
  have e2 : fA (xkWord h 11#6 d (0#6 ++ i)) = 0 := (inner_xkWord h 11#6 d (0#6 ++ i) 6 6 (by decide)).trans (top_append 0#6 i)
  exact decode_of_cand _ _ _ hw (by rw [candOf_xkWord]; unfold decodeX; rw [fOp_xkWord]; simp [e1, e2])

theorem wrs (h : Head) (d : BitVec 6) (i : BitVec 6) : Statement (.wrs h d i) := by
  intro hw more
  have e1 : fB (xkWord h 12#6 d (0#6 ++ i)) = i := (inner_xkWord h 12#6 d (0#6 ++ i) 0 6 (by decide)).trans (low_append 0#6 i)
  have e2 : fA (xkWord h 12#6 d (0#6 ++ i)) = 0 := (inner_xkWord h 12#6 d (0#6 ++ i) 6 6 (by decide)).trans (top_append 0#6 i)
  exact decode_of_cand _ _ _ hw (by rw [candOf_xkWord]; unfold decodeX; rw [fOp_xkWord]; simp [e1, e2])

theorem movl (h : Head) (d : BitVec 6) (lit : Word) : Statement (.movl h d lit) := by
  intro hw more
  exact decode_of_cand _ _ _ hw (by rw [candOf_xkWord]; unfold decodeX; rw [fOp_xkWord]; simp)

theorem shfl (h : Head) (d : BitVec 6) (m : BitVec 2) (k : BitVec 7) : Statement (.shfl h d m k) := by
  intro hw more
  have e1 := (inner_xkWord h 14#6 d (m ++ 0#3 ++ k) 0 7 (by decide)).trans (low_append (m ++ 0#3) k)
  have e2 := (inner_xkWord h 14#6 d (m ++ 0#3 ++ k) 7 3 (by decide)).trans ((high_append (m ++ 0#3) k 7 3 (by decide)).trans (low_append m 0#3))
  have e3 := (inner_xkWord h 14#6 d (m ++ 0#3 ++ k) 10 2 (by decide)).trans ((high_append (m ++ 0#3) k 10 2 (by decide)).trans (top_append m 0#3))
  exact decode_of_cand _ _ _ hw (by rw [candOf_xkWord]; unfold decodeX; rw [fOp_xkWord]; simp [e1, e2, e3])

theorem bcast (h : Head) (d : BitVec 6) (l : BitVec 7) : Statement (.bcast h d l) := by
  intro hw more
  have e1 := (inner_xkWord h 15#6 d (0#5 ++ l) 0 7 (by decide)).trans (low_append 0#5 l)
  have e2 := (inner_xkWord h 15#6 d (0#5 ++ l) 7 5 (by decide)).trans (top_append 0#5 l)
  exact decode_of_cand _ _ _ hw (by rw [candOf_xkWord]; unfold decodeX; rw [fOp_xkWord]; simp [e1, e2])

theorem vote (h : Head) (d : BitVec 6) (a : BitVec 6) (v : BitVec 2) : Statement (.vote h d a v) := by
  intro hw more
  have e1 := (inner_tWord h 3#2 16#6 d a (v ++ 0#4) 0 4 (by decide)).trans (low_append v 0#4)
  have e2 := (inner_tWord h 3#2 16#6 d a (v ++ 0#4) 4 2 (by decide)).trans (top_append v 0#4)
  exact decode_of_cand _ _ _ hw (by rw [candOf_xtWord]; unfold decodeX; rw [fOp_tWord]; simp [e1, e2])

theorem matchL (h : Head) (d : BitVec 6) (a : BitVec 6) : Statement (.matchL h d a) := by
  intro hw more
  exact decode_of_cand _ _ _ hw (by rw [candOf_xtWord]; unfold decodeX; rw [fOp_tWord]; simp)

theorem red (h : Head) (d : BitVec 6) (a : BitVec 6) (o : BitVec 4) : Statement (.red h d a o) := by
  intro hw more
  have e1 := (inner_tWord h 3#2 18#6 d a (o ++ 0#2) 0 2 (by decide)).trans (low_append o 0#2)
  have e2 := (inner_tWord h 3#2 18#6 d a (o ++ 0#2) 2 4 (by decide)).trans (top_append o 0#2)
  exact decode_of_cand _ _ _ hw (by rw [candOf_xtWord]; unfold decodeX; rw [fOp_tWord]; simp [e1, e2])

theorem scan (h : Head) (d : BitVec 6) (a : BitVec 6) (o : BitVec 4) (e : BitVec 1) : Statement (.scan h d a o e) := by
  intro hw more
  have e1 := (inner_tWord h 3#2 19#6 d a (o ++ 0#1 ++ e) 0 1 (by decide)).trans (low_append (o ++ 0#1) e)
  have e2 := (inner_tWord h 3#2 19#6 d a (o ++ 0#1 ++ e) 1 1 (by decide)).trans ((high_append (o ++ 0#1) e 1 1 (by decide)).trans (low_append o 0#1))
  have e3 := (inner_tWord h 3#2 19#6 d a (o ++ 0#1 ++ e) 2 4 (by decide)).trans ((high_append (o ++ 0#1) e 2 4 (by decide)).trans (top_append o 0#1))
  exact decode_of_cand _ _ _ hw (by rw [candOf_xtWord]; unfold decodeX; rw [fOp_tWord]; simp [e1, e2, e3])

theorem sign (h : Head) (k : BitVec 5) : Statement (.sign h k) := by
  intro hw more
  have e1 := (inner_xkWord h 20#6 0#6 (0#7 ++ k) 0 5 (by decide)).trans (low_append 0#7 k)
  have e2 := (inner_xkWord h 20#6 0#6 (0#7 ++ k) 5 7 (by decide)).trans (top_append 0#7 k)
  exact decode_of_cand _ _ _ hw (by rw [candOf_xkWord]; unfold decodeX; rw [fOp_xkWord]; simp [e1, e2])

theorem marm (h : Head) (d : BitVec 6) (a : BitVec 6) (b : BitVec 6) : Statement (.marm h d a b) := by
  intro hw more
  exact decode_of_cand _ _ _ hw (by rw [candOf_xtWord]; unfold decodeX; rw [fOp_tWord]; simp [Cand.ok])

theorem cpyq (h : Head) (a : BitVec 6) : Statement (.cpyq h a) := by
  intro hw more
  exact decode_of_cand _ _ _ hw (by rw [candOf_xtWord]; unfold decodeX; rw [fOp_tWord]; simp)

theorem bari (h : Head) (a : BitVec 6) (b : BitVec 6) : Statement (.bari h a b) := by
  intro hw more
  exact decode_of_cand _ _ _ hw (by rw [candOf_xtWord]; unfold decodeX; rw [fOp_tWord]; simp)

theorem barv (h : Head) (d : BitVec 6) (a : BitVec 6) : Statement (.barv h d a) := by
  intro hw more
  exact decode_of_cand _ _ _ hw (by rw [candOf_xtWord]; unfold decodeX; rw [fOp_tWord]; simp)

theorem barw (h : Head) (d : BitVec 6) (a : BitVec 6) (b : BitVec 6) : Statement (.barw h d a b) := by
  intro hw more
  exact decode_of_cand _ _ _ hw (by rw [candOf_xtWord]; unfold decodeX; rw [fOp_tWord]; simp [Cand.ok])

theorem fence (h : Head) (e : BitVec 1) (k : BitVec 2) (scope : BitVec 3) : Statement (.fence h e k scope) := by
  intro hw more
  have e1 := (inner_xkWord h 26#6 0#6 (0#6 ++ e ++ k ++ scope) 0 3 (by decide)).trans (low_append (0#6 ++ e ++ k) scope)
  have e2 := (inner_xkWord h 26#6 0#6 (0#6 ++ e ++ k ++ scope) 3 2 (by decide)).trans ((high_append (0#6 ++ e ++ k) scope 3 2 (by decide)).trans (low_append (0#6 ++ e) k))
  have e3 := (inner_xkWord h 26#6 0#6 (0#6 ++ e ++ k ++ scope) 5 1 (by decide)).trans ((high_append (0#6 ++ e ++ k) scope 5 1 (by decide)).trans ((high_append (0#6 ++ e) k 2 1 (by decide)).trans (low_append 0#6 e)))
  have e4 : fA (xkWord h 26#6 0#6 (0#6 ++ e ++ k ++ scope)) = 0 := (inner_xkWord h 26#6 0#6 (0#6 ++ e ++ k ++ scope) 6 6 (by decide)).trans ((high_append (0#6 ++ e ++ k) scope 6 6 (by decide)).trans ((high_append (0#6 ++ e) k 3 6 (by decide)).trans ((high_append 0#6 e 1 6 (by decide)).trans BitVec.extractLsb'_eq_self)))
  exact decode_of_cand _ _ _ hw (by rw [candOf_xkWord]; unfold decodeX; rw [fOp_xkWord]; simp [e1, e2, e3, e4])

theorem layq (h : Head) (d : BitVec 6) (a : BitVec 6) : Statement (.layq h d a) := by
  intro hw more
  exact decode_of_cand _ _ _ hw (by rw [candOf_xtWord]; unfold decodeX; rw [fOp_tWord]; simp)

theorem layadv (h : Head) (d : BitVec 6) (a : BitVec 6) (b : BitVec 6) : Statement (.layadv h d a b) := by
  intro hw more
  exact decode_of_cand _ _ _ hw (by rw [candOf_xtWord]; unfold decodeX; rw [fOp_tWord]; simp [Cand.ok])

theorem laypin (h : Head) (d : BitVec 6) (a : BitVec 6) (b : BitVec 6) : Statement (.laypin h d a b) := by
  intro hw more
  exact decode_of_cand _ _ _ hw (by rw [candOf_xtWord]; unfold decodeX; rw [fOp_tWord]; simp [Cand.ok])

theorem layacq (h : Head) (a : BitVec 6) : Statement (.layacq h a) := by
  intro hw more
  exact decode_of_cand _ _ _ hw (by rw [candOf_xtWord]; unfold decodeX; rw [fOp_tWord]; simp)

theorem layrel (h : Head) (a : BitVec 6) : Statement (.layrel h a) := by
  intro hw more
  exact decode_of_cand _ _ _ hw (by rw [candOf_xtWord]; unfold decodeX; rw [fOp_tWord]; simp)

theorem tgpost (h : Head) (d : BitVec 6) (a : BitVec 6) : Statement (.tgpost h d a) := by
  intro hw more
  exact decode_of_cand _ _ _ hw (by rw [candOf_xtWord]; unfold decodeX; rw [fOp_tWord]; simp)

theorem icinv (h : Head) (scope : BitVec 3) : Statement (.icinv h scope) := by
  intro hw more
  have e1 := (inner_xkWord h 33#6 0#6 (0#9 ++ scope) 0 3 (by decide)).trans (low_append 0#9 scope)
  have e2 := (inner_xkWord h 33#6 0#6 (0#9 ++ scope) 3 9 (by decide)).trans (top_append 0#9 scope)
  exact decode_of_cand _ _ _ hw (by rw [candOf_xkWord]; unfold decodeX; rw [fOp_xkWord]; simp [e1, e2])

theorem idivS (h : Head) (d : BitVec 6) (a : BitVec 6) (b : BitVec 6) : Statement (.idivS h d a b) := by
  intro hw more
  exact decode_of_cand _ _ _ hw (by rw [candOf_xtWord]; unfold decodeX; rw [fOp_tWord]; simp [Cand.ok])

theorem idivN (h : Head) (d : BitVec 6) (a : BitVec 6) (b : BitVec 6) : Statement (.idivN h d a b) := by
  intro hw more
  exact decode_of_cand _ _ _ hw (by rw [candOf_xtWord]; unfold decodeX; rw [fOp_tWord]; simp [Cand.ok])

theorem iremS (h : Head) (d : BitVec 6) (a : BitVec 6) (b : BitVec 6) : Statement (.iremS h d a b) := by
  intro hw more
  exact decode_of_cand _ _ _ hw (by rw [candOf_xtWord]; unfold decodeX; rw [fOp_tWord]; simp [Cand.ok])

theorem iremN (h : Head) (d : BitVec 6) (a : BitVec 6) (b : BitVec 6) : Statement (.iremN h d a b) := by
  intro hw more
  exact decode_of_cand _ _ _ hw (by rw [candOf_xtWord]; unfold decodeX; rw [fOp_tWord]; simp [Cand.ok])

theorem fdiv (h : Head) (d : BitVec 6) (a : BitVec 6) (b : BitVec 6) : Statement (.fdiv h d a b) := by
  intro hw more
  exact decode_of_cand _ _ _ hw (by rw [candOf_xtWord]; unfold decodeX; rw [fOp_tWord]; simp [Cand.ok])

theorem fsqrt (h : Head) (d : BitVec 6) (a : BitVec 6) : Statement (.fsqrt h d a) := by
  intro hw more
  exact decode_of_cand _ _ _ hw (by rw [candOf_xtWord]; unfold decodeX; rw [fOp_tWord]; simp)

theorem frcp (h : Head) (d : BitVec 6) (a : BitVec 6) : Statement (.frcp h d a) := by
  intro hw more
  exact decode_of_cand _ _ _ hw (by rw [candOf_xtWord]; unfold decodeX; rw [fOp_tWord]; simp)

theorem frsq (h : Head) (d : BitVec 6) (a : BitVec 6) : Statement (.frsq h d a) := by
  intro hw more
  exact decode_of_cand _ _ _ hw (by rw [candOf_xtWord]; unfold decodeX; rw [fOp_tWord]; simp)

theorem fexp2 (h : Head) (d : BitVec 6) (a : BitVec 6) : Statement (.fexp2 h d a) := by
  intro hw more
  exact decode_of_cand _ _ _ hw (by rw [candOf_xtWord]; unfold decodeX; rw [fOp_tWord]; simp)

theorem flog2 (h : Head) (d : BitVec 6) (a : BitVec 6) : Statement (.flog2 h d a) := by
  intro hw more
  exact decode_of_cand _ _ _ hw (by rw [candOf_xtWord]; unfold decodeX; rw [fOp_tWord]; simp)

theorem fsinp (h : Head) (d : BitVec 6) (a : BitVec 6) : Statement (.fsinp h d a) := by
  intro hw more
  exact decode_of_cand _ _ _ hw (by rw [candOf_xtWord]; unfold decodeX; rw [fOp_tWord]; simp)

theorem fcosp (h : Head) (d : BitVec 6) (a : BitVec 6) : Statement (.fcosp h d a) := by
  intro hw more
  exact decode_of_cand _ _ _ hw (by rw [candOf_xtWord]; unfold decodeX; rw [fOp_tWord]; simp)

theorem ddiv (h : Head) (d : BitVec 6) (a : BitVec 6) (b : BitVec 6) : Statement (.ddiv h d a b) := by
  intro hw more
  exact decode_of_cand _ _ _ hw (by rw [candOf_xtWord]; unfold decodeX; rw [fOp_tWord]; simp [Cand.ok])

theorem dsqrt (h : Head) (d : BitVec 6) (a : BitVec 6) : Statement (.dsqrt h d a) := by
  intro hw more
  exact decode_of_cand _ _ _ hw (by rw [candOf_xtWord]; unfold decodeX; rw [fOp_tWord]; simp)

theorem cvt (h : Head) (d : BitVec 6) (a : BitVec 6) (x : BitVec 3) (y : BitVec 3) : Statement (.cvt h d a x y) := by
  intro hw more
  have e1 := (inner_tWord h 3#2 48#6 d a (x ++ y) 3 3 (by decide)).trans (top_append x y)
  have e2 := (inner_tWord h 3#2 48#6 d a (x ++ y) 0 3 (by decide)).trans (low_append x y)
  exact decode_of_cand _ _ _ hw (by rw [candOf_xtWord]; unfold decodeX; rw [fOp_tWord]; simp [Cand.ok, e1, e2])

theorem narrow (h : Head) (d : BitVec 6) (a : BitVec 6) (b : BitVec 6) : Statement (.narrow h d a b) := by
  intro hw more
  exact decode_of_cand _ _ _ hw (by rw [candOf_xtWord]; unfold decodeX; rw [fOp_tWord]; simp [Cand.ok])

theorem widen (h : Head) (d : BitVec 6) (a : BitVec 6) (b : BitVec 6) : Statement (.widen h d a b) := by
  intro hw more
  exact decode_of_cand _ _ _ hw (by rw [candOf_xtWord]; unfold decodeX; rw [fOp_tWord]; simp [Cand.ok])

theorem fclass (h : Head) (d : BitVec 6) (a : BitVec 6) : Statement (.fclass h d a) := by
  intro hw more
  exact decode_of_cand _ _ _ hw (by rw [candOf_xtWord]; unfold decodeX; rw [fOp_tWord]; simp)

theorem lnkq (h : Head) (a : BitVec 6) : Statement (.lnkq h a) := by
  intro hw more
  exact decode_of_cand _ _ _ hw (by rw [candOf_xtWord]; unfold decodeX; rw [fOp_tWord]; simp)

theorem carve (h : Head) (k : BitVec 3) : Statement (.carve h k) := by
  intro hw more
  have e1 := (inner_xkWord h 53#6 0#6 (0#9 ++ k) 0 3 (by decide)).trans (low_append 0#9 k)
  have e2 := (inner_xkWord h 53#6 0#6 (0#9 ++ k) 3 9 (by decide)).trans (top_append 0#9 k)
  exact decode_of_cand _ _ _ hw (by rw [candOf_xkWord]; unfold decodeX; rw [fOp_xkWord]; simp [e1, e2])

theorem tlbinv (h : Head) (a : BitVec 6) (b : BitVec 6) : Statement (.tlbinv h a b) := by
  intro hw more
  exact decode_of_cand _ _ _ hw (by rw [candOf_xtWord]; unfold decodeX; rw [fOp_tWord]; simp)

theorem rdfs (h : Head) (d : BitVec 6) (a : BitVec 6) (b : BitVec 6) : Statement (.rdfs h d a b) := by
  intro hw more
  exact decode_of_cand _ _ _ hw (by rw [candOf_xtWord]; unfold decodeX; rw [fOp_tWord]; simp [Cand.ok])

theorem wrfs (h : Head) (d : BitVec 6) (a : BitVec 6) (b : BitVec 6) : Statement (.wrfs h d a b) := by
  intro hw more
  exact decode_of_cand _ _ _ hw (by rw [candOf_xtWord]; unfold decodeX; rw [fOp_tWord]; simp [Cand.ok])

theorem saved (h : Head) : Statement (.saved h) := by
  intro hw more
  exact decode_of_cand _ _ _ hw (by rw [candOf_xtWord]; unfold decodeX; rw [fOp_tWord]; simp)

theorem instructionFetch (b : Nat) : Statement (.instructionFetch b) := rfl

theorem variableResultReturn (id : Nat) : Statement (.variableResultReturn id) := rfl

theorem switchMarkerResume (b : Nat) : Statement (.switchMarkerResume b) := rfl

theorem crewMismatch (gang : Nat) (crew : Nat) : Statement (.crewMismatch gang crew) := rfl

theorem yieldExpiry (b : Nat) : Statement (.yieldExpiry b) := rfl

theorem carveApply (core : Nat) : Statement (.carveApply core) := rfl

theorem bankAccess (id : Nat) : Statement (.bankAccess id) := rfl

theorem homeRequest (id : Nat) : Statement (.homeRequest id) := rfl

theorem waitRepresent (id : Nat) : Statement (.waitRepresent id) := rfl

theorem storeAcknowledgement (id : Nat) : Statement (.storeAcknowledgement id) := rfl

theorem l1LeaseExpiry (core : Nat) (line : Nat) : Statement (.l1LeaseExpiry core line) := rfl

theorem releaseConditionMet (id : Nat) : Statement (.releaseConditionMet id) := rfl

theorem feTimeout (id : Nat) : Statement (.feTimeout id) := rfl

theorem dequeTake (core : Nat) : Statement (.dequeTake core) := rfl

theorem dequeSteal (core : Nat) : Statement (.dequeSteal core) := rfl

theorem preemptDecision (part : Nat) : Statement (.preemptDecision part) := rfl

theorem preemptTrap (gang : Nat) : Statement (.preemptTrap gang) := rfl

theorem restorePlacement (gang : Nat) : Statement (.restorePlacement gang) := rfl

theorem traceSample (core : Nat) : Statement (.traceSample core) := rfl

theorem commandPost (id : Nat) : Statement (.commandPost id) := rfl

theorem mma (job : Nat) : Statement (.mma job) := rfl

theorem drain (job : Nat) : Statement (.drain job) := rfl

theorem prime (job : Nat) : Statement (.prime job) := rfl

theorem streamFetchReturn (job : Nat) : Statement (.streamFetchReturn job) := rfl

theorem entryRaise (job : Nat) : Statement (.entryRaise job) := rfl

theorem copyJobStart (job : Nat) : Statement (.copyJobStart job) := rfl

theorem jobComplete (job : Nat) : Statement (.jobComplete job) := rfl

theorem completionAction (job : Nat) : Statement (.completionAction job) := rfl

theorem sideLogReplay (id : Nat) : Statement (.sideLogReplay id) := rfl

theorem migrationRound (m : Nat) : Statement (.migrationRound m) := rfl

theorem migrationFreeze (m : Nat) : Statement (.migrationFreeze m) := rfl

theorem mapApply : Statement .mapApply := rfl

theorem regionCreate (part : Nat) (node : Nat) : Statement (.regionCreate part node) := rfl

theorem regionDestroy (part : Nat) (node : Nat) : Statement (.regionDestroy part node) := rfl

theorem monitorNotice (region : Nat) : Statement (.monitorNotice region) := rfl

theorem windowEnd (region : Nat) : Statement (.windowEnd region) := rfl

theorem driftTile (region : Nat) : Statement (.driftTile region) := rfl

theorem nodePost (part : Nat) (q : Nat) : Statement (.nodePost part q) := rfl

theorem nodeLaunch (part : Nat) (node : Nat) : Statement (.nodeLaunch part node) := rfl

theorem nodeCopy (part : Nat) (node : Nat) : Statement (.nodeCopy part node) := rfl

theorem nodeSwapIn (part : Nat) (node : Nat) : Statement (.nodeSwapIn part node) := rfl

theorem nodeSwapEvict (part : Nat) (node : Nat) : Statement (.nodeSwapEvict part node) := rfl

theorem nodeLink (part : Nat) (node : Nat) : Statement (.nodeLink part node) := rfl

theorem nodeMarker (part : Nat) (node : Nat) : Statement (.nodeMarker part node) := rfl

theorem nodeReservedKind (part : Nat) (node : Nat) : Statement (.nodeReservedKind part node) := rfl

theorem nodeComplete (part : Nat) (node : Nat) : Statement (.nodeComplete part node) := rfl

theorem priorityAging (part : Nat) (node : Nat) : Statement (.priorityAging part node) := rfl

theorem gangPlacement (part : Nat) : Statement (.gangPlacement part) := rfl

theorem detRound (gang : Nat) : Statement (.detRound gang) := rfl

theorem carillonRelease (part : Nat) (node : Nat) : Statement (.carillonRelease part node) := rfl

theorem swapInFrames (swap : Nat) : Statement (.swapInFrames swap) := rfl

theorem evictionFramesReturn (part : Nat) (m : Nat) (layer : Nat) : Statement (.evictionFramesReturn part m layer) := rfl

theorem swapInComplete (swap : Nat) : Statement (.swapInComplete swap) := rfl

theorem swapInFailure (swap : Nat) : Statement (.swapInFailure swap) := rfl

theorem readSector (ch : Nat) (tag : Nat) : Statement (.readSector ch tag) := rfl

theorem readLine (ch : Nat) (tag : Nat) : Statement (.readLine ch tag) := rfl

theorem writeSector (ch : Nat) (tag : Nat) : Statement (.writeSector ch tag) := rfl

theorem writeLine (ch : Nat) (tag : Nat) : Statement (.writeLine ch tag) := rfl

theorem partialWrite (ch : Nat) (tag : Nat) : Statement (.partialWrite ch tag) := rfl

theorem scrubRead (ch : Nat) (sector : Nat) : Statement (.scrubRead ch sector) := rfl

theorem readData (ch : Nat) (tag : Nat) : Statement (.readData ch tag) := rfl

theorem writeDone (ch : Nat) (tag : Nat) : Statement (.writeDone ch tag) := rfl

theorem spareRowCopy (ch : Nat) (row : Nat) : Statement (.spareRowCopy ch row) := rfl

theorem thermalShutdown : Statement .thermalShutdown := rfl

theorem rekey (part : Nat) (n : Nat) : Statement (.rekey part n) := rfl

theorem linkDownExpiry (link : Nat) : Statement (.linkDownExpiry link) := rfl

theorem linkRetrain (link : Nat) : Statement (.linkRetrain link) := rfl

theorem linkPut (job : Nat) : Statement (.linkPut job) := rfl

theorem linkGet (job : Nat) : Statement (.linkGet job) := rfl

theorem linkReduce (job : Nat) : Statement (.linkReduce job) := rfl

theorem putFlagFill (put : Nat) : Statement (.putFlagFill put) := rfl

theorem reduceDeadline (job : Nat) : Statement (.reduceDeadline job) := rfl

theorem linkJobEnd (job : Nat) : Statement (.linkJobEnd job) := rfl

theorem clusterSpareTakeover (k : Nat) : Statement (.clusterSpareTakeover k) := rfl

theorem powerGood : Statement .powerGood := rfl

theorem trctlWrite (core : Nat) (v : DWord) : Statement (.trctlWrite core v) := rfl

theorem trlostClear (core : Nat) : Statement (.trlostClear core) := rfl

theorem histogramClear (core : Nat) (k : Nat) : Statement (.histogramClear core k) := rfl

theorem eventSelectWrite (core : Nat) (k : Nat) (v : DWord) : Statement (.eventSelectWrite core k v) := rfl

theorem counterStatusClear (core : Nat) (v : DWord) : Statement (.counterStatusClear core v) := rfl

theorem faultAnswer (part : Nat) (tag : DWord) (status : DWord) (tagArea : DWord) : Statement (.faultAnswer part tag status tagArea) := rfl

theorem rangeEntryWrite (part : Nat) (k : Nat) (base : DWord) (limit : DWord) (off : DWord) (ctl : DWord) : Statement (.rangeEntryWrite part k base limit off ctl) := rfl

theorem migrationStart (part : Nat) (old : Nat) (new : Nat) (size : Nat) (bitmap : Nat) (checkpoint : Bool) : Statement (.migrationStart part old new size bitmap checkpoint) := rfl

theorem migrationEndForwarding (m : Nat) : Statement (.migrationEndForwarding m) := rfl

theorem mapcommit (v : DWord) : Statement (.mapcommit v) := rfl

theorem pctlWrite (part : Nat) (v : DWord) : Statement (.pctlWrite part v) := rfl

theorem pfstatClear (v : DWord) : Statement (.pfstatClear v) := rfl

theorem registerWrite (part : Nat) (vf : Bool) (off : Nat) (v : DWord) : Statement (.registerWrite part vf off v) := rfl

theorem hostCxlRead (addr : Nat) (size : Nat) : Statement (.hostCxlRead addr size) := rfl

theorem hostCxlWrite (addr : Nat) (data : List Byte) : Statement (.hostCxlWrite addr data) := rfl

theorem sqtail (part : Nat) (q : Nat) (v : DWord) : Statement (.sqtail part q v) := rfl

theorem cqhead (part : Nat) (q : Nat) (v : DWord) : Statement (.cqhead part q v) := rfl

theorem qsize (part : Nat) (q : Nat) (v : DWord) : Statement (.qsize part q v) := rfl

theorem modelRecordWrite (part : Nat) (m : Nat) (k : Nat) (v : DWord) : Statement (.modelRecordWrite part m k v) := rfl

theorem modelEnable (part : Nat) (m : Nat) : Statement (.modelEnable part m) := rfl

theorem modelDisable (part : Nat) (m : Nat) : Statement (.modelDisable part m) := rfl

theorem portReservedKind (ch : Nat) (hdr : DWord) : Statement (.portReservedKind ch hdr) := rfl

theorem spareChannelTakeover (ch : Nat) (readable : Bool) : Statement (.spareChannelTakeover ch readable) := rfl

theorem laneReplace (link : Nat) (lane : Nat) : Statement (.laneReplace link lane) := rfl

theorem mplim (v : DWord) : Statement (.mplim v) := rfl

theorem mshare (part : Nat) (v : DWord) : Statement (.mshare part v) := rfl

theorem powerThrottle (part : Nat) (watts : Nat) : Statement (.powerThrottle part watts) := rfl

theorem thermalTrip : Statement .thermalTrip := rfl

theorem vfReset (part : Nat) : Statement (.vfReset part) := rfl

theorem pfReset : Statement .pfReset := rfl

theorem getMeasurements (k : Nat) : Statement (.getMeasurements k) := rfl

theorem sessionOpen (part : Nat) (link : Nat) (peer : Nat) (n : Nat) (base : Nat) (len : Nat) : Statement (.sessionOpen part link peer n base len) := rfl

theorem sessionClose (part : Nat) (n : Nat) : Statement (.sessionClose part n) := rfl

theorem sessionLoss (part : Nat) (n : Nat) : Statement (.sessionLoss part n) := rfl

theorem flitData (link : Nat) (flit : List Byte) : Statement (.flitData link flit) := rfl

theorem flitAcknowledgement (link : Nat) (flit : List Byte) : Statement (.flitAcknowledgement link flit) := rfl

theorem flitContribution (link : Nat) (flit : List Byte) : Statement (.flitContribution link flit) := rfl

theorem flitControl (link : Nat) (flit : List Byte) : Statement (.flitControl link flit) := rfl

theorem flitReservedKind (link : Nat) (flit : List Byte) : Statement (.flitReservedKind link flit) := rfl

theorem nak (link : Nat) (seq : BitVec 16) : Statement (.nak link seq) := rfl

theorem cxlCacheSnoop (addr : Nat) (data : List Byte) : Statement (.cxlCacheSnoop addr data) := rfl

theorem linkRetrained (link : Nat) : Statement (.linkRetrained link) := rfl

theorem temperatureFall : Statement .temperatureFall := rfl

theorem hostLinkLoss : Statement .hostLinkLoss := rfl

theorem clusterLost (k : Nat) : Statement (.clusterLost k) := rfl

end Sys2Proof.Laws.RoundTrip
end

