-- ==== Sys2Proof/Laws/Places.lean ====
section
/-! SUPPORT. Sys2Proof/Laws/Places.lean: what a scan of a wait list does where nobody waits (R143), and the state updates that
leave everybody as they were. -/

set_option Elab.async false

namespace Sys2Proof.Machine

namespace State

theorem waitersOf_calm {s : State} (h : s.calm) (l : Loc) : s.waitersOf l = [] := by
  have e : ∀ (xs : List Access), (∀ a ∈ xs, ∀ st p, a.phase ≠ .waiting st p) → ∀ (f : Access → Bool),
      (∀ x : Access, (∀ st p, x.phase ≠ .waiting st p) → f x = false) → xs.filter f = [] := by
    intro xs hx f hf
    rw [List.filter_eq_nil_iff]
    intro x hm
    simp [hf x (hx x hm)]
  unfold waitersOf
  rw [e _ h]
  · rfl
  · intro x hx
    cases hp : x.phase <;> simp_all

/-- A scan with nobody waiting does nothing. -/
theorem scanAll_calm {s : State} (h : s.calm) (l : Loc) : s.scanAll l = s := by
  simp [scanAll, scanGo, scanPass, waitersOf_calm h]
theorem waitPlaces_calm {s : State} (h : s.calm) : s.waitPlaces = [] := by
  unfold waitPlaces
  rw [List.filterMap_eq_nil_iff]
  intro a ha
  have := h a ha
  cases hp : a.phase <;> simp_all
theorem scanKeys_calm {s : State} (h : s.calm) (ks : List Nat) : s.scanKeys ks = s := by
  simp [scanKeys, waitPlaces_calm h]

/-- A check of all accesses for the wait phase. -/
theorem calm_of_all {s : State} (h : s.accesses.all (fun a => match a.phase with
    | .waiting _ _ => false
    | _ => true) = true) : s.calm := by
  intro a ha st p e
  have := List.all_eq_true.1 h a ha
  simp [e] at this

/-- Nobody waits after an access leaves, or after one is set to another phase. -/
theorem calm_of_accesses {s t : State} (h : s.calm) (e : ∀ a ∈ t.accesses, a ∈ s.accesses ∨ ∀ st p, a.phase ≠ .waiting st p) : t.calm := by
  intro a ha
  rcases e a ha with h1 | h1
  · exact h a h1
  · exact h1
theorem calm_dropAccess {s : State} (h : s.calm) (id : Nat) : (s.dropAccess id).calm :=
  calm_of_accesses h (fun _ ha => .inl (List.mem_filter.1 ha).1)
theorem calm_setAccess {s : State} (h : s.calm) (b : Access) (hb : ∀ st p, b.phase ≠ .waiting st p) : (s.setAccess b).calm := by
  refine calm_of_accesses h (fun a ha => ?_)
  obtain ⟨x, hx, rfl⟩ := List.mem_map.1 ha
  split
  · exact .inr hb
  · exact .inl hx

end State

end Sys2Proof.Machine
end

