-- ==== Sys2Proof/Laws/State.lean ====
section
/-! SUPPORT. Sys2Proof/Laws/State.lean: what each update of the state leaves in each field. -/

set_option Elab.async false

namespace Sys2Proof.Machine.State

variable (s : State)

/-! ### setGang -/

@[simp] theorem setGang_time (g : Gang) : (s.setGang g).time = s.time := rfl
@[simp] theorem setGang_nextId (g : Gang) : (s.setGang g).nextId = s.nextId := rfl
@[simp] theorem setGang_fresh (g : Gang) : (s.setGang g).fresh = s.fresh := rfl
@[simp] theorem setGang_mem (g : Gang) : (s.setGang g).mem = s.mem := rfl
@[simp] theorem setGang_issue (g : Gang) : (s.setGang g).issue = s.issue := rfl
@[simp] theorem setGang_fibres (g : Gang) : (s.setGang g).fibres = s.fibres := rfl
@[simp] theorem setGang_bands (g : Gang) : (s.setGang g).bands = s.bands := rfl
@[simp] theorem setGang_results (g : Gang) : (s.setGang g).results = s.results := rfl
@[simp] theorem setGang_accesses (g : Gang) : (s.setGang g).accesses = s.accesses := rfl
@[simp] theorem setGang_sideLog (g : Gang) : (s.setGang g).sideLog = s.sideLog := rfl
@[simp] theorem setGang_cores (g : Gang) : (s.setGang g).cores = s.cores := rfl
@[simp] theorem setGang_clusters (g : Gang) : (s.setGang g).clusters = s.clusters := rfl
@[simp] theorem setGang_l1 (g : Gang) : (s.setGang g).l1 = s.l1 := rfl
@[simp] theorem setGang_launches (g : Gang) : (s.setGang g).launches = s.launches := rfl
@[simp] theorem setGang_reserves (g : Gang) : (s.setGang g).reserves = s.reserves := rfl
@[simp] theorem setGang_jobs (g : Gang) : (s.setGang g).jobs = s.jobs := rfl
@[simp] theorem setGang_parts (g : Gang) : (s.setGang g).parts = s.parts := rfl
@[simp] theorem setGang_contexts (g : Gang) : (s.setGang g).contexts = s.contexts := rfl
@[simp] theorem setGang_regions (g : Gang) : (s.setGang g).regions = s.regions := rfl
@[simp] theorem setGang_tlb (g : Gang) : (s.setGang g).tlb = s.tlb := rfl
@[simp] theorem setGang_walks (g : Gang) : (s.setGang g).walks = s.walks := rfl
@[simp] theorem setGang_tlbPick (g : Gang) : (s.setGang g).tlbPick = s.tlbPick := rfl
@[simp] theorem setGang_leases (g : Gang) : (s.setGang g).leases = s.leases := rfl
@[simp] theorem setGang_stamps (g : Gang) : (s.setGang g).stamps = s.stamps := rfl
@[simp] theorem setGang_sliceLast (g : Gang) : (s.setGang g).sliceLast = s.sliceLast := rfl
@[simp] theorem setGang_bankLast (g : Gang) : (s.setGang g).bankLast = s.bankLast := rfl
@[simp] theorem setGang_l2 (g : Gang) : (s.setGang g).l2 = s.l2 := rfl
@[simp] theorem setGang_ports (g : Gang) : (s.setGang g).ports = s.ports := rfl
@[simp] theorem setGang_badSectors (g : Gang) : (s.setGang g).badSectors = s.badSectors := rfl
@[simp] theorem setGang_rowFixes (g : Gang) : (s.setGang g).rowFixes = s.rowFixes := rfl
@[simp] theorem setGang_sram (g : Gang) : (s.setGang g).sram = s.sram := rfl
@[simp] theorem setGang_poison (g : Gang) : (s.setGang g).poison = s.poison := rfl
@[simp] theorem setGang_frameCtx (g : Gang) : (s.setGang g).frameCtx = s.frameCtx := rfl
@[simp] theorem setGang_migrations (g : Gang) : (s.setGang g).migrations = s.migrations := rfl
@[simp] theorem setGang_links (g : Gang) : (s.setGang g).links = s.links := rfl
@[simp] theorem setGang_linkJobs (g : Gang) : (s.setGang g).linkJobs = s.linkJobs := rfl
@[simp] theorem setGang_remotePuts (g : Gang) : (s.setGang g).remotePuts = s.remotePuts := rfl
@[simp] theorem setGang_hostVisible (g : Gang) : (s.setGang g).hostVisible = s.hostVisible := rfl
@[simp] theorem setGang_hostAcks (g : Gang) : (s.setGang g).hostAcks = s.hostAcks := rfl
@[simp] theorem setGang_hostReply (g : Gang) : (s.setGang g).hostReply = s.hostReply := rfl
@[simp] theorem setGang_portWait (g : Gang) : (s.setGang g).portWait = s.portWait := rfl
@[simp] theorem setGang_pf (g : Gang) : (s.setGang g).pf = s.pf := rfl
@[simp] theorem setGang_inputs (g : Gang) : (s.setGang g).inputs = s.inputs := rfl
@[simp] theorem setGang_gangs (g : Gang) : (s.setGang g).gangs = s.gangs.map (fun x => if x.id == g.id then g else x) := rfl

/-! ### setLaunch -/

@[simp] theorem setLaunch_time (l : Launch) : (s.setLaunch l).time = s.time := rfl
@[simp] theorem setLaunch_nextId (l : Launch) : (s.setLaunch l).nextId = s.nextId := rfl
@[simp] theorem setLaunch_fresh (l : Launch) : (s.setLaunch l).fresh = s.fresh := rfl
@[simp] theorem setLaunch_mem (l : Launch) : (s.setLaunch l).mem = s.mem := rfl
@[simp] theorem setLaunch_issue (l : Launch) : (s.setLaunch l).issue = s.issue := rfl
@[simp] theorem setLaunch_fibres (l : Launch) : (s.setLaunch l).fibres = s.fibres := rfl
@[simp] theorem setLaunch_bands (l : Launch) : (s.setLaunch l).bands = s.bands := rfl
@[simp] theorem setLaunch_results (l : Launch) : (s.setLaunch l).results = s.results := rfl
@[simp] theorem setLaunch_accesses (l : Launch) : (s.setLaunch l).accesses = s.accesses := rfl
@[simp] theorem setLaunch_sideLog (l : Launch) : (s.setLaunch l).sideLog = s.sideLog := rfl
@[simp] theorem setLaunch_cores (l : Launch) : (s.setLaunch l).cores = s.cores := rfl
@[simp] theorem setLaunch_clusters (l : Launch) : (s.setLaunch l).clusters = s.clusters := rfl
@[simp] theorem setLaunch_l1 (l : Launch) : (s.setLaunch l).l1 = s.l1 := rfl
@[simp] theorem setLaunch_gangs (l : Launch) : (s.setLaunch l).gangs = s.gangs := rfl
@[simp] theorem setLaunch_jobs (l : Launch) : (s.setLaunch l).jobs = s.jobs := rfl
@[simp] theorem setLaunch_parts (l : Launch) : (s.setLaunch l).parts = s.parts := rfl
@[simp] theorem setLaunch_contexts (l : Launch) : (s.setLaunch l).contexts = s.contexts := rfl
@[simp] theorem setLaunch_regions (l : Launch) : (s.setLaunch l).regions = s.regions := rfl
@[simp] theorem setLaunch_tlb (l : Launch) : (s.setLaunch l).tlb = s.tlb := rfl
@[simp] theorem setLaunch_walks (l : Launch) : (s.setLaunch l).walks = s.walks := rfl
@[simp] theorem setLaunch_tlbPick (l : Launch) : (s.setLaunch l).tlbPick = s.tlbPick := rfl
@[simp] theorem setLaunch_leases (l : Launch) : (s.setLaunch l).leases = s.leases := rfl
@[simp] theorem setLaunch_stamps (l : Launch) : (s.setLaunch l).stamps = s.stamps := rfl
@[simp] theorem setLaunch_sliceLast (l : Launch) : (s.setLaunch l).sliceLast = s.sliceLast := rfl
@[simp] theorem setLaunch_bankLast (l : Launch) : (s.setLaunch l).bankLast = s.bankLast := rfl
@[simp] theorem setLaunch_l2 (l : Launch) : (s.setLaunch l).l2 = s.l2 := rfl
@[simp] theorem setLaunch_ports (l : Launch) : (s.setLaunch l).ports = s.ports := rfl
@[simp] theorem setLaunch_badSectors (l : Launch) : (s.setLaunch l).badSectors = s.badSectors := rfl
@[simp] theorem setLaunch_rowFixes (l : Launch) : (s.setLaunch l).rowFixes = s.rowFixes := rfl
@[simp] theorem setLaunch_sram (l : Launch) : (s.setLaunch l).sram = s.sram := rfl
@[simp] theorem setLaunch_poison (l : Launch) : (s.setLaunch l).poison = s.poison := rfl
@[simp] theorem setLaunch_frameCtx (l : Launch) : (s.setLaunch l).frameCtx = s.frameCtx := rfl
@[simp] theorem setLaunch_migrations (l : Launch) : (s.setLaunch l).migrations = s.migrations := rfl
@[simp] theorem setLaunch_links (l : Launch) : (s.setLaunch l).links = s.links := rfl
@[simp] theorem setLaunch_linkJobs (l : Launch) : (s.setLaunch l).linkJobs = s.linkJobs := rfl
@[simp] theorem setLaunch_remotePuts (l : Launch) : (s.setLaunch l).remotePuts = s.remotePuts := rfl
@[simp] theorem setLaunch_hostVisible (l : Launch) : (s.setLaunch l).hostVisible = s.hostVisible := rfl
@[simp] theorem setLaunch_hostAcks (l : Launch) : (s.setLaunch l).hostAcks = s.hostAcks := rfl
@[simp] theorem setLaunch_hostReply (l : Launch) : (s.setLaunch l).hostReply = s.hostReply := rfl
@[simp] theorem setLaunch_portWait (l : Launch) : (s.setLaunch l).portWait = s.portWait := rfl
@[simp] theorem setLaunch_pf (l : Launch) : (s.setLaunch l).pf = s.pf := rfl
@[simp] theorem setLaunch_inputs (l : Launch) : (s.setLaunch l).inputs = s.inputs := rfl
@[simp] theorem setLaunch_launches (l : Launch) : (s.setLaunch l).launches = s.launches.map (fun x => if x.id == l.id then l else x) := rfl
@[simp] theorem setLaunch_reserves (l : Launch) : (s.setLaunch l).reserves = s.reserves := rfl

/-! ### setContext -/

@[simp] theorem setContext_time (c : Context) : (s.setContext c).time = s.time := rfl
@[simp] theorem setContext_nextId (c : Context) : (s.setContext c).nextId = s.nextId := rfl
@[simp] theorem setContext_fresh (c : Context) : (s.setContext c).fresh = s.fresh := rfl
@[simp] theorem setContext_mem (c : Context) : (s.setContext c).mem = s.mem := rfl
@[simp] theorem setContext_issue (c : Context) : (s.setContext c).issue = s.issue := rfl
@[simp] theorem setContext_fibres (c : Context) : (s.setContext c).fibres = s.fibres := rfl
@[simp] theorem setContext_bands (c : Context) : (s.setContext c).bands = s.bands := rfl
@[simp] theorem setContext_results (c : Context) : (s.setContext c).results = s.results := rfl
@[simp] theorem setContext_accesses (c : Context) : (s.setContext c).accesses = s.accesses := rfl
@[simp] theorem setContext_sideLog (c : Context) : (s.setContext c).sideLog = s.sideLog := rfl
@[simp] theorem setContext_cores (c : Context) : (s.setContext c).cores = s.cores := rfl
@[simp] theorem setContext_clusters (c : Context) : (s.setContext c).clusters = s.clusters := rfl
@[simp] theorem setContext_l1 (c : Context) : (s.setContext c).l1 = s.l1 := rfl
@[simp] theorem setContext_gangs (c : Context) : (s.setContext c).gangs = s.gangs := rfl
@[simp] theorem setContext_launches (c : Context) : (s.setContext c).launches = s.launches := rfl
@[simp] theorem setContext_reserves (c : Context) : (s.setContext c).reserves = s.reserves := rfl
@[simp] theorem setContext_jobs (c : Context) : (s.setContext c).jobs = s.jobs := rfl
@[simp] theorem setContext_parts (c : Context) : (s.setContext c).parts = s.parts := rfl
@[simp] theorem setContext_regions (c : Context) : (s.setContext c).regions = s.regions := rfl
@[simp] theorem setContext_tlb (c : Context) : (s.setContext c).tlb = s.tlb := rfl
@[simp] theorem setContext_walks (c : Context) : (s.setContext c).walks = s.walks := rfl
@[simp] theorem setContext_tlbPick (c : Context) : (s.setContext c).tlbPick = s.tlbPick := rfl
@[simp] theorem setContext_leases (c : Context) : (s.setContext c).leases = s.leases := rfl
@[simp] theorem setContext_stamps (c : Context) : (s.setContext c).stamps = s.stamps := rfl
@[simp] theorem setContext_sliceLast (c : Context) : (s.setContext c).sliceLast = s.sliceLast := rfl
@[simp] theorem setContext_bankLast (c : Context) : (s.setContext c).bankLast = s.bankLast := rfl
@[simp] theorem setContext_l2 (c : Context) : (s.setContext c).l2 = s.l2 := rfl
@[simp] theorem setContext_ports (c : Context) : (s.setContext c).ports = s.ports := rfl
@[simp] theorem setContext_badSectors (c : Context) : (s.setContext c).badSectors = s.badSectors := rfl
@[simp] theorem setContext_rowFixes (c : Context) : (s.setContext c).rowFixes = s.rowFixes := rfl
@[simp] theorem setContext_sram (c : Context) : (s.setContext c).sram = s.sram := rfl
@[simp] theorem setContext_poison (c : Context) : (s.setContext c).poison = s.poison := rfl
@[simp] theorem setContext_frameCtx (c : Context) : (s.setContext c).frameCtx = s.frameCtx := rfl
@[simp] theorem setContext_migrations (c : Context) : (s.setContext c).migrations = s.migrations := rfl
@[simp] theorem setContext_links (c : Context) : (s.setContext c).links = s.links := rfl
@[simp] theorem setContext_linkJobs (c : Context) : (s.setContext c).linkJobs = s.linkJobs := rfl
@[simp] theorem setContext_remotePuts (c : Context) : (s.setContext c).remotePuts = s.remotePuts := rfl
@[simp] theorem setContext_hostVisible (c : Context) : (s.setContext c).hostVisible = s.hostVisible := rfl
@[simp] theorem setContext_hostAcks (c : Context) : (s.setContext c).hostAcks = s.hostAcks := rfl
@[simp] theorem setContext_hostReply (c : Context) : (s.setContext c).hostReply = s.hostReply := rfl
@[simp] theorem setContext_portWait (c : Context) : (s.setContext c).portWait = s.portWait := rfl
@[simp] theorem setContext_pf (c : Context) : (s.setContext c).pf = s.pf := rfl
@[simp] theorem setContext_inputs (c : Context) : (s.setContext c).inputs = s.inputs := rfl
@[simp] theorem setContext_contexts (c : Context) : (s.setContext c).contexts = s.contexts.map (fun x => if x.id == c.id then c else x) := rfl

/-! ### setAccess -/

@[simp] theorem setAccess_time (a : Access) : (s.setAccess a).time = s.time := rfl
@[simp] theorem setAccess_nextId (a : Access) : (s.setAccess a).nextId = s.nextId := rfl
@[simp] theorem setAccess_fresh (a : Access) : (s.setAccess a).fresh = s.fresh := rfl
@[simp] theorem setAccess_mem (a : Access) : (s.setAccess a).mem = s.mem := rfl
@[simp] theorem setAccess_issue (a : Access) : (s.setAccess a).issue = s.issue := rfl
@[simp] theorem setAccess_fibres (a : Access) : (s.setAccess a).fibres = s.fibres := rfl
@[simp] theorem setAccess_bands (a : Access) : (s.setAccess a).bands = s.bands := rfl
@[simp] theorem setAccess_results (a : Access) : (s.setAccess a).results = s.results := rfl
@[simp] theorem setAccess_sideLog (a : Access) : (s.setAccess a).sideLog = s.sideLog := rfl
@[simp] theorem setAccess_cores (a : Access) : (s.setAccess a).cores = s.cores := rfl
@[simp] theorem setAccess_clusters (a : Access) : (s.setAccess a).clusters = s.clusters := rfl
@[simp] theorem setAccess_l1 (a : Access) : (s.setAccess a).l1 = s.l1 := rfl
@[simp] theorem setAccess_gangs (a : Access) : (s.setAccess a).gangs = s.gangs := rfl
@[simp] theorem setAccess_launches (a : Access) : (s.setAccess a).launches = s.launches := rfl
@[simp] theorem setAccess_reserves (a : Access) : (s.setAccess a).reserves = s.reserves := rfl
@[simp] theorem setAccess_jobs (a : Access) : (s.setAccess a).jobs = s.jobs := rfl
@[simp] theorem setAccess_parts (a : Access) : (s.setAccess a).parts = s.parts := rfl
@[simp] theorem setAccess_contexts (a : Access) : (s.setAccess a).contexts = s.contexts := rfl
@[simp] theorem setAccess_regions (a : Access) : (s.setAccess a).regions = s.regions := rfl
@[simp] theorem setAccess_tlb (a : Access) : (s.setAccess a).tlb = s.tlb := rfl
@[simp] theorem setAccess_walks (a : Access) : (s.setAccess a).walks = s.walks := rfl
@[simp] theorem setAccess_tlbPick (a : Access) : (s.setAccess a).tlbPick = s.tlbPick := rfl
@[simp] theorem setAccess_leases (a : Access) : (s.setAccess a).leases = s.leases := rfl
@[simp] theorem setAccess_stamps (a : Access) : (s.setAccess a).stamps = s.stamps := rfl
@[simp] theorem setAccess_sliceLast (a : Access) : (s.setAccess a).sliceLast = s.sliceLast := rfl
@[simp] theorem setAccess_bankLast (a : Access) : (s.setAccess a).bankLast = s.bankLast := rfl
@[simp] theorem setAccess_l2 (a : Access) : (s.setAccess a).l2 = s.l2 := rfl
@[simp] theorem setAccess_ports (a : Access) : (s.setAccess a).ports = s.ports := rfl
@[simp] theorem setAccess_badSectors (a : Access) : (s.setAccess a).badSectors = s.badSectors := rfl
@[simp] theorem setAccess_rowFixes (a : Access) : (s.setAccess a).rowFixes = s.rowFixes := rfl
@[simp] theorem setAccess_sram (a : Access) : (s.setAccess a).sram = s.sram := rfl
@[simp] theorem setAccess_poison (a : Access) : (s.setAccess a).poison = s.poison := rfl
@[simp] theorem setAccess_frameCtx (a : Access) : (s.setAccess a).frameCtx = s.frameCtx := rfl
@[simp] theorem setAccess_migrations (a : Access) : (s.setAccess a).migrations = s.migrations := rfl
@[simp] theorem setAccess_links (a : Access) : (s.setAccess a).links = s.links := rfl
@[simp] theorem setAccess_linkJobs (a : Access) : (s.setAccess a).linkJobs = s.linkJobs := rfl
@[simp] theorem setAccess_remotePuts (a : Access) : (s.setAccess a).remotePuts = s.remotePuts := rfl
@[simp] theorem setAccess_hostVisible (a : Access) : (s.setAccess a).hostVisible = s.hostVisible := rfl
@[simp] theorem setAccess_hostAcks (a : Access) : (s.setAccess a).hostAcks = s.hostAcks := rfl
@[simp] theorem setAccess_hostReply (a : Access) : (s.setAccess a).hostReply = s.hostReply := rfl
@[simp] theorem setAccess_portWait (a : Access) : (s.setAccess a).portWait = s.portWait := rfl
@[simp] theorem setAccess_pf (a : Access) : (s.setAccess a).pf = s.pf := rfl
@[simp] theorem setAccess_inputs (a : Access) : (s.setAccess a).inputs = s.inputs := rfl
@[simp] theorem setAccess_accesses (a : Access) : (s.setAccess a).accesses = s.accesses.map (fun x => if x.id == a.id then a else x) := rfl

/-! ### dropAccess -/

@[simp] theorem dropAccess_time (id : Nat) : (s.dropAccess id).time = s.time := rfl
@[simp] theorem dropAccess_nextId (id : Nat) : (s.dropAccess id).nextId = s.nextId := rfl
@[simp] theorem dropAccess_fresh (id : Nat) : (s.dropAccess id).fresh = s.fresh := rfl
@[simp] theorem dropAccess_mem (id : Nat) : (s.dropAccess id).mem = s.mem := rfl
@[simp] theorem dropAccess_issue (id : Nat) : (s.dropAccess id).issue = s.issue := rfl
@[simp] theorem dropAccess_fibres (id : Nat) : (s.dropAccess id).fibres = s.fibres := rfl
@[simp] theorem dropAccess_bands (id : Nat) : (s.dropAccess id).bands = s.bands := rfl
@[simp] theorem dropAccess_results (id : Nat) : (s.dropAccess id).results = s.results := rfl
@[simp] theorem dropAccess_sideLog (id : Nat) : (s.dropAccess id).sideLog = s.sideLog := rfl
@[simp] theorem dropAccess_cores (id : Nat) : (s.dropAccess id).cores = s.cores := rfl
@[simp] theorem dropAccess_clusters (id : Nat) : (s.dropAccess id).clusters = s.clusters := rfl
@[simp] theorem dropAccess_l1 (id : Nat) : (s.dropAccess id).l1 = s.l1 := rfl
@[simp] theorem dropAccess_gangs (id : Nat) : (s.dropAccess id).gangs = s.gangs := rfl
@[simp] theorem dropAccess_launches (id : Nat) : (s.dropAccess id).launches = s.launches := rfl
@[simp] theorem dropAccess_reserves (id : Nat) : (s.dropAccess id).reserves = s.reserves := rfl
@[simp] theorem dropAccess_jobs (id : Nat) : (s.dropAccess id).jobs = s.jobs := rfl
@[simp] theorem dropAccess_parts (id : Nat) : (s.dropAccess id).parts = s.parts := rfl
@[simp] theorem dropAccess_contexts (id : Nat) : (s.dropAccess id).contexts = s.contexts := rfl
@[simp] theorem dropAccess_regions (id : Nat) : (s.dropAccess id).regions = s.regions := rfl
@[simp] theorem dropAccess_tlb (id : Nat) : (s.dropAccess id).tlb = s.tlb := rfl
@[simp] theorem dropAccess_walks (id : Nat) : (s.dropAccess id).walks = s.walks := rfl
@[simp] theorem dropAccess_tlbPick (id : Nat) : (s.dropAccess id).tlbPick = s.tlbPick := rfl
@[simp] theorem dropAccess_leases (id : Nat) : (s.dropAccess id).leases = s.leases := rfl
@[simp] theorem dropAccess_stamps (id : Nat) : (s.dropAccess id).stamps = s.stamps := rfl
@[simp] theorem dropAccess_sliceLast (id : Nat) : (s.dropAccess id).sliceLast = s.sliceLast := rfl
@[simp] theorem dropAccess_bankLast (id : Nat) : (s.dropAccess id).bankLast = s.bankLast := rfl
@[simp] theorem dropAccess_l2 (id : Nat) : (s.dropAccess id).l2 = s.l2 := rfl
@[simp] theorem dropAccess_ports (id : Nat) : (s.dropAccess id).ports = s.ports := rfl
@[simp] theorem dropAccess_badSectors (id : Nat) : (s.dropAccess id).badSectors = s.badSectors := rfl
@[simp] theorem dropAccess_rowFixes (id : Nat) : (s.dropAccess id).rowFixes = s.rowFixes := rfl
@[simp] theorem dropAccess_sram (id : Nat) : (s.dropAccess id).sram = s.sram := rfl
@[simp] theorem dropAccess_poison (id : Nat) : (s.dropAccess id).poison = s.poison := rfl
@[simp] theorem dropAccess_frameCtx (id : Nat) : (s.dropAccess id).frameCtx = s.frameCtx := rfl
@[simp] theorem dropAccess_migrations (id : Nat) : (s.dropAccess id).migrations = s.migrations := rfl
@[simp] theorem dropAccess_links (id : Nat) : (s.dropAccess id).links = s.links := rfl
@[simp] theorem dropAccess_linkJobs (id : Nat) : (s.dropAccess id).linkJobs = s.linkJobs := rfl
@[simp] theorem dropAccess_remotePuts (id : Nat) : (s.dropAccess id).remotePuts = s.remotePuts := rfl
@[simp] theorem dropAccess_hostVisible (id : Nat) : (s.dropAccess id).hostVisible = s.hostVisible := rfl
@[simp] theorem dropAccess_hostAcks (id : Nat) : (s.dropAccess id).hostAcks = s.hostAcks := rfl
@[simp] theorem dropAccess_hostReply (id : Nat) : (s.dropAccess id).hostReply = s.hostReply := rfl
@[simp] theorem dropAccess_portWait (id : Nat) : (s.dropAccess id).portWait = s.portWait := rfl
@[simp] theorem dropAccess_pf (id : Nat) : (s.dropAccess id).pf = s.pf := rfl
@[simp] theorem dropAccess_inputs (id : Nat) : (s.dropAccess id).inputs = s.inputs := rfl
@[simp] theorem dropAccess_accesses (id : Nat) : (s.dropAccess id).accesses = s.accesses.filter (fun x => x.id != id) := rfl

/-! ### setJob -/

@[simp] theorem setJob_time (j : Job) : (s.setJob j).time = s.time := rfl
@[simp] theorem setJob_nextId (j : Job) : (s.setJob j).nextId = s.nextId := rfl
@[simp] theorem setJob_fresh (j : Job) : (s.setJob j).fresh = s.fresh := rfl
@[simp] theorem setJob_mem (j : Job) : (s.setJob j).mem = s.mem := rfl
@[simp] theorem setJob_issue (j : Job) : (s.setJob j).issue = s.issue := rfl
@[simp] theorem setJob_fibres (j : Job) : (s.setJob j).fibres = s.fibres := rfl
@[simp] theorem setJob_bands (j : Job) : (s.setJob j).bands = s.bands := rfl
@[simp] theorem setJob_results (j : Job) : (s.setJob j).results = s.results := rfl
@[simp] theorem setJob_accesses (j : Job) : (s.setJob j).accesses = s.accesses := rfl
@[simp] theorem setJob_sideLog (j : Job) : (s.setJob j).sideLog = s.sideLog := rfl
@[simp] theorem setJob_cores (j : Job) : (s.setJob j).cores = s.cores := rfl
@[simp] theorem setJob_clusters (j : Job) : (s.setJob j).clusters = s.clusters := rfl
@[simp] theorem setJob_l1 (j : Job) : (s.setJob j).l1 = s.l1 := rfl
@[simp] theorem setJob_gangs (j : Job) : (s.setJob j).gangs = s.gangs := rfl
@[simp] theorem setJob_launches (j : Job) : (s.setJob j).launches = s.launches := rfl
@[simp] theorem setJob_reserves (j : Job) : (s.setJob j).reserves = s.reserves := rfl
@[simp] theorem setJob_parts (j : Job) : (s.setJob j).parts = s.parts := rfl
@[simp] theorem setJob_contexts (j : Job) : (s.setJob j).contexts = s.contexts := rfl
@[simp] theorem setJob_regions (j : Job) : (s.setJob j).regions = s.regions := rfl
@[simp] theorem setJob_tlb (j : Job) : (s.setJob j).tlb = s.tlb := rfl
@[simp] theorem setJob_walks (j : Job) : (s.setJob j).walks = s.walks := rfl
@[simp] theorem setJob_tlbPick (j : Job) : (s.setJob j).tlbPick = s.tlbPick := rfl
@[simp] theorem setJob_leases (j : Job) : (s.setJob j).leases = s.leases := rfl
@[simp] theorem setJob_stamps (j : Job) : (s.setJob j).stamps = s.stamps := rfl
@[simp] theorem setJob_sliceLast (j : Job) : (s.setJob j).sliceLast = s.sliceLast := rfl
@[simp] theorem setJob_bankLast (j : Job) : (s.setJob j).bankLast = s.bankLast := rfl
@[simp] theorem setJob_l2 (j : Job) : (s.setJob j).l2 = s.l2 := rfl
@[simp] theorem setJob_ports (j : Job) : (s.setJob j).ports = s.ports := rfl
@[simp] theorem setJob_badSectors (j : Job) : (s.setJob j).badSectors = s.badSectors := rfl
@[simp] theorem setJob_rowFixes (j : Job) : (s.setJob j).rowFixes = s.rowFixes := rfl
@[simp] theorem setJob_sram (j : Job) : (s.setJob j).sram = s.sram := rfl
@[simp] theorem setJob_poison (j : Job) : (s.setJob j).poison = s.poison := rfl
@[simp] theorem setJob_frameCtx (j : Job) : (s.setJob j).frameCtx = s.frameCtx := rfl
@[simp] theorem setJob_migrations (j : Job) : (s.setJob j).migrations = s.migrations := rfl
@[simp] theorem setJob_links (j : Job) : (s.setJob j).links = s.links := rfl
@[simp] theorem setJob_linkJobs (j : Job) : (s.setJob j).linkJobs = s.linkJobs := rfl
@[simp] theorem setJob_remotePuts (j : Job) : (s.setJob j).remotePuts = s.remotePuts := rfl
@[simp] theorem setJob_hostVisible (j : Job) : (s.setJob j).hostVisible = s.hostVisible := rfl
@[simp] theorem setJob_hostAcks (j : Job) : (s.setJob j).hostAcks = s.hostAcks := rfl
@[simp] theorem setJob_hostReply (j : Job) : (s.setJob j).hostReply = s.hostReply := rfl
@[simp] theorem setJob_portWait (j : Job) : (s.setJob j).portWait = s.portWait := rfl
@[simp] theorem setJob_pf (j : Job) : (s.setJob j).pf = s.pf := rfl
@[simp] theorem setJob_inputs (j : Job) : (s.setJob j).inputs = s.inputs := rfl
@[simp] theorem setJob_jobs (j : Job) : (s.setJob j).jobs = s.jobs.map (fun x => if x.id == j.id then j else x) := rfl

/-! ### dropJob -/

@[simp] theorem dropJob_time (id : Nat) : (s.dropJob id).time = s.time := rfl
@[simp] theorem dropJob_nextId (id : Nat) : (s.dropJob id).nextId = s.nextId := rfl
@[simp] theorem dropJob_fresh (id : Nat) : (s.dropJob id).fresh = s.fresh := rfl
@[simp] theorem dropJob_mem (id : Nat) : (s.dropJob id).mem = s.mem := rfl
@[simp] theorem dropJob_issue (id : Nat) : (s.dropJob id).issue = s.issue := rfl
@[simp] theorem dropJob_fibres (id : Nat) : (s.dropJob id).fibres = s.fibres := rfl
@[simp] theorem dropJob_bands (id : Nat) : (s.dropJob id).bands = s.bands := rfl
@[simp] theorem dropJob_results (id : Nat) : (s.dropJob id).results = s.results := rfl
@[simp] theorem dropJob_accesses (id : Nat) : (s.dropJob id).accesses = s.accesses := rfl
@[simp] theorem dropJob_sideLog (id : Nat) : (s.dropJob id).sideLog = s.sideLog := rfl
@[simp] theorem dropJob_cores (id : Nat) : (s.dropJob id).cores = s.cores := rfl
@[simp] theorem dropJob_clusters (id : Nat) : (s.dropJob id).clusters = s.clusters := rfl
@[simp] theorem dropJob_l1 (id : Nat) : (s.dropJob id).l1 = s.l1 := rfl
@[simp] theorem dropJob_gangs (id : Nat) : (s.dropJob id).gangs = s.gangs := rfl
@[simp] theorem dropJob_launches (id : Nat) : (s.dropJob id).launches = s.launches := rfl
@[simp] theorem dropJob_reserves (id : Nat) : (s.dropJob id).reserves = s.reserves := rfl
@[simp] theorem dropJob_parts (id : Nat) : (s.dropJob id).parts = s.parts := rfl
@[simp] theorem dropJob_contexts (id : Nat) : (s.dropJob id).contexts = s.contexts := rfl
@[simp] theorem dropJob_regions (id : Nat) : (s.dropJob id).regions = s.regions := rfl
@[simp] theorem dropJob_tlb (id : Nat) : (s.dropJob id).tlb = s.tlb := rfl
@[simp] theorem dropJob_walks (id : Nat) : (s.dropJob id).walks = s.walks := rfl
@[simp] theorem dropJob_tlbPick (id : Nat) : (s.dropJob id).tlbPick = s.tlbPick := rfl
@[simp] theorem dropJob_leases (id : Nat) : (s.dropJob id).leases = s.leases := rfl
@[simp] theorem dropJob_stamps (id : Nat) : (s.dropJob id).stamps = s.stamps := rfl
@[simp] theorem dropJob_sliceLast (id : Nat) : (s.dropJob id).sliceLast = s.sliceLast := rfl
@[simp] theorem dropJob_bankLast (id : Nat) : (s.dropJob id).bankLast = s.bankLast := rfl
@[simp] theorem dropJob_l2 (id : Nat) : (s.dropJob id).l2 = s.l2 := rfl
@[simp] theorem dropJob_ports (id : Nat) : (s.dropJob id).ports = s.ports := rfl
@[simp] theorem dropJob_badSectors (id : Nat) : (s.dropJob id).badSectors = s.badSectors := rfl
@[simp] theorem dropJob_rowFixes (id : Nat) : (s.dropJob id).rowFixes = s.rowFixes := rfl
@[simp] theorem dropJob_sram (id : Nat) : (s.dropJob id).sram = s.sram := rfl
@[simp] theorem dropJob_poison (id : Nat) : (s.dropJob id).poison = s.poison := rfl
@[simp] theorem dropJob_frameCtx (id : Nat) : (s.dropJob id).frameCtx = s.frameCtx := rfl
@[simp] theorem dropJob_migrations (id : Nat) : (s.dropJob id).migrations = s.migrations := rfl
@[simp] theorem dropJob_links (id : Nat) : (s.dropJob id).links = s.links := rfl
@[simp] theorem dropJob_linkJobs (id : Nat) : (s.dropJob id).linkJobs = s.linkJobs := rfl
@[simp] theorem dropJob_remotePuts (id : Nat) : (s.dropJob id).remotePuts = s.remotePuts := rfl
@[simp] theorem dropJob_hostVisible (id : Nat) : (s.dropJob id).hostVisible = s.hostVisible := rfl
@[simp] theorem dropJob_hostAcks (id : Nat) : (s.dropJob id).hostAcks = s.hostAcks := rfl
@[simp] theorem dropJob_hostReply (id : Nat) : (s.dropJob id).hostReply = s.hostReply := rfl
@[simp] theorem dropJob_portWait (id : Nat) : (s.dropJob id).portWait = s.portWait := rfl
@[simp] theorem dropJob_pf (id : Nat) : (s.dropJob id).pf = s.pf := rfl
@[simp] theorem dropJob_inputs (id : Nat) : (s.dropJob id).inputs = s.inputs := rfl
@[simp] theorem dropJob_jobs (id : Nat) : (s.dropJob id).jobs = s.jobs.filter (fun x => x.id != id) := rfl

/-! ### setRegion -/

@[simp] theorem setRegion_time (r : Region) : (s.setRegion r).time = s.time := rfl
@[simp] theorem setRegion_nextId (r : Region) : (s.setRegion r).nextId = s.nextId := rfl
@[simp] theorem setRegion_fresh (r : Region) : (s.setRegion r).fresh = s.fresh := rfl
@[simp] theorem setRegion_mem (r : Region) : (s.setRegion r).mem = s.mem := rfl
@[simp] theorem setRegion_issue (r : Region) : (s.setRegion r).issue = s.issue := rfl
@[simp] theorem setRegion_fibres (r : Region) : (s.setRegion r).fibres = s.fibres := rfl
@[simp] theorem setRegion_bands (r : Region) : (s.setRegion r).bands = s.bands := rfl
@[simp] theorem setRegion_results (r : Region) : (s.setRegion r).results = s.results := rfl
@[simp] theorem setRegion_accesses (r : Region) : (s.setRegion r).accesses = s.accesses := rfl
@[simp] theorem setRegion_sideLog (r : Region) : (s.setRegion r).sideLog = s.sideLog := rfl
@[simp] theorem setRegion_cores (r : Region) : (s.setRegion r).cores = s.cores := rfl
@[simp] theorem setRegion_clusters (r : Region) : (s.setRegion r).clusters = s.clusters := rfl
@[simp] theorem setRegion_l1 (r : Region) : (s.setRegion r).l1 = s.l1 := rfl
@[simp] theorem setRegion_gangs (r : Region) : (s.setRegion r).gangs = s.gangs := rfl
@[simp] theorem setRegion_launches (r : Region) : (s.setRegion r).launches = s.launches := rfl
@[simp] theorem setRegion_reserves (r : Region) : (s.setRegion r).reserves = s.reserves := rfl
@[simp] theorem setRegion_jobs (r : Region) : (s.setRegion r).jobs = s.jobs := rfl
@[simp] theorem setRegion_parts (r : Region) : (s.setRegion r).parts = s.parts := rfl
@[simp] theorem setRegion_contexts (r : Region) : (s.setRegion r).contexts = s.contexts := rfl
@[simp] theorem setRegion_tlb (r : Region) : (s.setRegion r).tlb = s.tlb := rfl
@[simp] theorem setRegion_walks (r : Region) : (s.setRegion r).walks = s.walks := rfl
@[simp] theorem setRegion_tlbPick (r : Region) : (s.setRegion r).tlbPick = s.tlbPick := rfl
@[simp] theorem setRegion_leases (r : Region) : (s.setRegion r).leases = s.leases := rfl
@[simp] theorem setRegion_stamps (r : Region) : (s.setRegion r).stamps = s.stamps := rfl
@[simp] theorem setRegion_sliceLast (r : Region) : (s.setRegion r).sliceLast = s.sliceLast := rfl
@[simp] theorem setRegion_bankLast (r : Region) : (s.setRegion r).bankLast = s.bankLast := rfl
@[simp] theorem setRegion_l2 (r : Region) : (s.setRegion r).l2 = s.l2 := rfl
@[simp] theorem setRegion_ports (r : Region) : (s.setRegion r).ports = s.ports := rfl
@[simp] theorem setRegion_badSectors (r : Region) : (s.setRegion r).badSectors = s.badSectors := rfl
@[simp] theorem setRegion_rowFixes (r : Region) : (s.setRegion r).rowFixes = s.rowFixes := rfl
@[simp] theorem setRegion_sram (r : Region) : (s.setRegion r).sram = s.sram := rfl
@[simp] theorem setRegion_poison (r : Region) : (s.setRegion r).poison = s.poison := rfl
@[simp] theorem setRegion_frameCtx (r : Region) : (s.setRegion r).frameCtx = s.frameCtx := rfl
@[simp] theorem setRegion_migrations (r : Region) : (s.setRegion r).migrations = s.migrations := rfl
@[simp] theorem setRegion_links (r : Region) : (s.setRegion r).links = s.links := rfl
@[simp] theorem setRegion_linkJobs (r : Region) : (s.setRegion r).linkJobs = s.linkJobs := rfl
@[simp] theorem setRegion_remotePuts (r : Region) : (s.setRegion r).remotePuts = s.remotePuts := rfl
@[simp] theorem setRegion_hostVisible (r : Region) : (s.setRegion r).hostVisible = s.hostVisible := rfl
@[simp] theorem setRegion_hostAcks (r : Region) : (s.setRegion r).hostAcks = s.hostAcks := rfl
@[simp] theorem setRegion_hostReply (r : Region) : (s.setRegion r).hostReply = s.hostReply := rfl
@[simp] theorem setRegion_portWait (r : Region) : (s.setRegion r).portWait = s.portWait := rfl
@[simp] theorem setRegion_pf (r : Region) : (s.setRegion r).pf = s.pf := rfl
@[simp] theorem setRegion_inputs (r : Region) : (s.setRegion r).inputs = s.inputs := rfl
@[simp] theorem setRegion_regions (r : Region) : (s.setRegion r).regions = s.regions.map (fun x => if x.id == r.id then r else x) := rfl

/-! ### updPart -/

@[simp] theorem updPart_time (p : Nat) (f : Part → Part) : (s.updPart p f).time = s.time := rfl
@[simp] theorem updPart_nextId (p : Nat) (f : Part → Part) : (s.updPart p f).nextId = s.nextId := rfl
@[simp] theorem updPart_fresh (p : Nat) (f : Part → Part) : (s.updPart p f).fresh = s.fresh := rfl
@[simp] theorem updPart_mem (p : Nat) (f : Part → Part) : (s.updPart p f).mem = s.mem := rfl
@[simp] theorem updPart_issue (p : Nat) (f : Part → Part) : (s.updPart p f).issue = s.issue := rfl
@[simp] theorem updPart_fibres (p : Nat) (f : Part → Part) : (s.updPart p f).fibres = s.fibres := rfl
@[simp] theorem updPart_bands (p : Nat) (f : Part → Part) : (s.updPart p f).bands = s.bands := rfl
@[simp] theorem updPart_results (p : Nat) (f : Part → Part) : (s.updPart p f).results = s.results := rfl
@[simp] theorem updPart_accesses (p : Nat) (f : Part → Part) : (s.updPart p f).accesses = s.accesses := rfl
@[simp] theorem updPart_sideLog (p : Nat) (f : Part → Part) : (s.updPart p f).sideLog = s.sideLog := rfl
@[simp] theorem updPart_cores (p : Nat) (f : Part → Part) : (s.updPart p f).cores = s.cores := rfl
@[simp] theorem updPart_clusters (p : Nat) (f : Part → Part) : (s.updPart p f).clusters = s.clusters := rfl
@[simp] theorem updPart_l1 (p : Nat) (f : Part → Part) : (s.updPart p f).l1 = s.l1 := rfl
@[simp] theorem updPart_gangs (p : Nat) (f : Part → Part) : (s.updPart p f).gangs = s.gangs := rfl
@[simp] theorem updPart_launches (p : Nat) (f : Part → Part) : (s.updPart p f).launches = s.launches := rfl
@[simp] theorem updPart_reserves (p : Nat) (f : Part → Part) : (s.updPart p f).reserves = s.reserves := rfl
@[simp] theorem updPart_jobs (p : Nat) (f : Part → Part) : (s.updPart p f).jobs = s.jobs := rfl
@[simp] theorem updPart_contexts (p : Nat) (f : Part → Part) : (s.updPart p f).contexts = s.contexts := rfl
@[simp] theorem updPart_regions (p : Nat) (f : Part → Part) : (s.updPart p f).regions = s.regions := rfl
@[simp] theorem updPart_tlb (p : Nat) (f : Part → Part) : (s.updPart p f).tlb = s.tlb := rfl
@[simp] theorem updPart_walks (p : Nat) (f : Part → Part) : (s.updPart p f).walks = s.walks := rfl
@[simp] theorem updPart_tlbPick (p : Nat) (f : Part → Part) : (s.updPart p f).tlbPick = s.tlbPick := rfl
@[simp] theorem updPart_leases (p : Nat) (f : Part → Part) : (s.updPart p f).leases = s.leases := rfl
@[simp] theorem updPart_stamps (p : Nat) (f : Part → Part) : (s.updPart p f).stamps = s.stamps := rfl
@[simp] theorem updPart_sliceLast (p : Nat) (f : Part → Part) : (s.updPart p f).sliceLast = s.sliceLast := rfl
@[simp] theorem updPart_bankLast (p : Nat) (f : Part → Part) : (s.updPart p f).bankLast = s.bankLast := rfl
@[simp] theorem updPart_l2 (p : Nat) (f : Part → Part) : (s.updPart p f).l2 = s.l2 := rfl
@[simp] theorem updPart_ports (p : Nat) (f : Part → Part) : (s.updPart p f).ports = s.ports := rfl
@[simp] theorem updPart_badSectors (p : Nat) (f : Part → Part) : (s.updPart p f).badSectors = s.badSectors := rfl
@[simp] theorem updPart_rowFixes (p : Nat) (f : Part → Part) : (s.updPart p f).rowFixes = s.rowFixes := rfl
@[simp] theorem updPart_sram (p : Nat) (f : Part → Part) : (s.updPart p f).sram = s.sram := rfl
@[simp] theorem updPart_poison (p : Nat) (f : Part → Part) : (s.updPart p f).poison = s.poison := rfl
@[simp] theorem updPart_frameCtx (p : Nat) (f : Part → Part) : (s.updPart p f).frameCtx = s.frameCtx := rfl
@[simp] theorem updPart_migrations (p : Nat) (f : Part → Part) : (s.updPart p f).migrations = s.migrations := rfl
@[simp] theorem updPart_links (p : Nat) (f : Part → Part) : (s.updPart p f).links = s.links := rfl
@[simp] theorem updPart_linkJobs (p : Nat) (f : Part → Part) : (s.updPart p f).linkJobs = s.linkJobs := rfl
@[simp] theorem updPart_remotePuts (p : Nat) (f : Part → Part) : (s.updPart p f).remotePuts = s.remotePuts := rfl
@[simp] theorem updPart_hostVisible (p : Nat) (f : Part → Part) : (s.updPart p f).hostVisible = s.hostVisible := rfl
@[simp] theorem updPart_hostAcks (p : Nat) (f : Part → Part) : (s.updPart p f).hostAcks = s.hostAcks := rfl
@[simp] theorem updPart_hostReply (p : Nat) (f : Part → Part) : (s.updPart p f).hostReply = s.hostReply := rfl
@[simp] theorem updPart_portWait (p : Nat) (f : Part → Part) : (s.updPart p f).portWait = s.portWait := rfl
@[simp] theorem updPart_pf (p : Nat) (f : Part → Part) : (s.updPart p f).pf = s.pf := rfl
@[simp] theorem updPart_inputs (p : Nat) (f : Part → Part) : (s.updPart p f).inputs = s.inputs := rfl
@[simp] theorem updPart_parts (p : Nat) (f : Part → Part) : (s.updPart p f).parts = s.parts.modify p f := rfl

/-! ### updCore -/

@[simp] theorem updCore_time (c : Nat) (f : CoreSt → CoreSt) : (s.updCore c f).time = s.time := rfl
@[simp] theorem updCore_nextId (c : Nat) (f : CoreSt → CoreSt) : (s.updCore c f).nextId = s.nextId := rfl
@[simp] theorem updCore_fresh (c : Nat) (f : CoreSt → CoreSt) : (s.updCore c f).fresh = s.fresh := rfl
@[simp] theorem updCore_mem (c : Nat) (f : CoreSt → CoreSt) : (s.updCore c f).mem = s.mem := rfl
@[simp] theorem updCore_issue (c : Nat) (f : CoreSt → CoreSt) : (s.updCore c f).issue = s.issue := rfl
@[simp] theorem updCore_fibres (c : Nat) (f : CoreSt → CoreSt) : (s.updCore c f).fibres = s.fibres := rfl
@[simp] theorem updCore_bands (c : Nat) (f : CoreSt → CoreSt) : (s.updCore c f).bands = s.bands := rfl
@[simp] theorem updCore_results (c : Nat) (f : CoreSt → CoreSt) : (s.updCore c f).results = s.results := rfl
@[simp] theorem updCore_accesses (c : Nat) (f : CoreSt → CoreSt) : (s.updCore c f).accesses = s.accesses := rfl
@[simp] theorem updCore_sideLog (c : Nat) (f : CoreSt → CoreSt) : (s.updCore c f).sideLog = s.sideLog := rfl
@[simp] theorem updCore_clusters (c : Nat) (f : CoreSt → CoreSt) : (s.updCore c f).clusters = s.clusters := rfl
@[simp] theorem updCore_l1 (c : Nat) (f : CoreSt → CoreSt) : (s.updCore c f).l1 = s.l1 := rfl
@[simp] theorem updCore_gangs (c : Nat) (f : CoreSt → CoreSt) : (s.updCore c f).gangs = s.gangs := rfl
@[simp] theorem updCore_launches (c : Nat) (f : CoreSt → CoreSt) : (s.updCore c f).launches = s.launches := rfl
@[simp] theorem updCore_reserves (c : Nat) (f : CoreSt → CoreSt) : (s.updCore c f).reserves = s.reserves := rfl
@[simp] theorem updCore_jobs (c : Nat) (f : CoreSt → CoreSt) : (s.updCore c f).jobs = s.jobs := rfl
@[simp] theorem updCore_parts (c : Nat) (f : CoreSt → CoreSt) : (s.updCore c f).parts = s.parts := rfl
@[simp] theorem updCore_contexts (c : Nat) (f : CoreSt → CoreSt) : (s.updCore c f).contexts = s.contexts := rfl
@[simp] theorem updCore_regions (c : Nat) (f : CoreSt → CoreSt) : (s.updCore c f).regions = s.regions := rfl
@[simp] theorem updCore_tlb (c : Nat) (f : CoreSt → CoreSt) : (s.updCore c f).tlb = s.tlb := rfl
@[simp] theorem updCore_walks (c : Nat) (f : CoreSt → CoreSt) : (s.updCore c f).walks = s.walks := rfl
@[simp] theorem updCore_tlbPick (c : Nat) (f : CoreSt → CoreSt) : (s.updCore c f).tlbPick = s.tlbPick := rfl
@[simp] theorem updCore_leases (c : Nat) (f : CoreSt → CoreSt) : (s.updCore c f).leases = s.leases := rfl
@[simp] theorem updCore_stamps (c : Nat) (f : CoreSt → CoreSt) : (s.updCore c f).stamps = s.stamps := rfl
@[simp] theorem updCore_sliceLast (c : Nat) (f : CoreSt → CoreSt) : (s.updCore c f).sliceLast = s.sliceLast := rfl
@[simp] theorem updCore_bankLast (c : Nat) (f : CoreSt → CoreSt) : (s.updCore c f).bankLast = s.bankLast := rfl
@[simp] theorem updCore_l2 (c : Nat) (f : CoreSt → CoreSt) : (s.updCore c f).l2 = s.l2 := rfl
@[simp] theorem updCore_ports (c : Nat) (f : CoreSt → CoreSt) : (s.updCore c f).ports = s.ports := rfl
@[simp] theorem updCore_badSectors (c : Nat) (f : CoreSt → CoreSt) : (s.updCore c f).badSectors = s.badSectors := rfl
@[simp] theorem updCore_rowFixes (c : Nat) (f : CoreSt → CoreSt) : (s.updCore c f).rowFixes = s.rowFixes := rfl
@[simp] theorem updCore_sram (c : Nat) (f : CoreSt → CoreSt) : (s.updCore c f).sram = s.sram := rfl
@[simp] theorem updCore_poison (c : Nat) (f : CoreSt → CoreSt) : (s.updCore c f).poison = s.poison := rfl
@[simp] theorem updCore_frameCtx (c : Nat) (f : CoreSt → CoreSt) : (s.updCore c f).frameCtx = s.frameCtx := rfl
@[simp] theorem updCore_migrations (c : Nat) (f : CoreSt → CoreSt) : (s.updCore c f).migrations = s.migrations := rfl
@[simp] theorem updCore_links (c : Nat) (f : CoreSt → CoreSt) : (s.updCore c f).links = s.links := rfl
@[simp] theorem updCore_linkJobs (c : Nat) (f : CoreSt → CoreSt) : (s.updCore c f).linkJobs = s.linkJobs := rfl
@[simp] theorem updCore_remotePuts (c : Nat) (f : CoreSt → CoreSt) : (s.updCore c f).remotePuts = s.remotePuts := rfl
@[simp] theorem updCore_hostVisible (c : Nat) (f : CoreSt → CoreSt) : (s.updCore c f).hostVisible = s.hostVisible := rfl
@[simp] theorem updCore_hostAcks (c : Nat) (f : CoreSt → CoreSt) : (s.updCore c f).hostAcks = s.hostAcks := rfl
@[simp] theorem updCore_hostReply (c : Nat) (f : CoreSt → CoreSt) : (s.updCore c f).hostReply = s.hostReply := rfl
@[simp] theorem updCore_portWait (c : Nat) (f : CoreSt → CoreSt) : (s.updCore c f).portWait = s.portWait := rfl
@[simp] theorem updCore_pf (c : Nat) (f : CoreSt → CoreSt) : (s.updCore c f).pf = s.pf := rfl
@[simp] theorem updCore_inputs (c : Nat) (f : CoreSt → CoreSt) : (s.updCore c f).inputs = s.inputs := rfl
@[simp] theorem updCore_cores (c : Nat) (f : CoreSt → CoreSt) : (s.updCore c f).cores = s.cores.modify c f := rfl

/-! ### updCluster -/

@[simp] theorem updCluster_time (k : Nat) (f : ClusterSt → ClusterSt) : (s.updCluster k f).time = s.time := rfl
@[simp] theorem updCluster_nextId (k : Nat) (f : ClusterSt → ClusterSt) : (s.updCluster k f).nextId = s.nextId := rfl
@[simp] theorem updCluster_fresh (k : Nat) (f : ClusterSt → ClusterSt) : (s.updCluster k f).fresh = s.fresh := rfl
@[simp] theorem updCluster_mem (k : Nat) (f : ClusterSt → ClusterSt) : (s.updCluster k f).mem = s.mem := rfl
@[simp] theorem updCluster_issue (k : Nat) (f : ClusterSt → ClusterSt) : (s.updCluster k f).issue = s.issue := rfl
@[simp] theorem updCluster_fibres (k : Nat) (f : ClusterSt → ClusterSt) : (s.updCluster k f).fibres = s.fibres := rfl
@[simp] theorem updCluster_bands (k : Nat) (f : ClusterSt → ClusterSt) : (s.updCluster k f).bands = s.bands := rfl
@[simp] theorem updCluster_results (k : Nat) (f : ClusterSt → ClusterSt) : (s.updCluster k f).results = s.results := rfl
@[simp] theorem updCluster_accesses (k : Nat) (f : ClusterSt → ClusterSt) : (s.updCluster k f).accesses = s.accesses := rfl
@[simp] theorem updCluster_sideLog (k : Nat) (f : ClusterSt → ClusterSt) : (s.updCluster k f).sideLog = s.sideLog := rfl
@[simp] theorem updCluster_cores (k : Nat) (f : ClusterSt → ClusterSt) : (s.updCluster k f).cores = s.cores := rfl
@[simp] theorem updCluster_l1 (k : Nat) (f : ClusterSt → ClusterSt) : (s.updCluster k f).l1 = s.l1 := rfl
@[simp] theorem updCluster_gangs (k : Nat) (f : ClusterSt → ClusterSt) : (s.updCluster k f).gangs = s.gangs := rfl
@[simp] theorem updCluster_launches (k : Nat) (f : ClusterSt → ClusterSt) : (s.updCluster k f).launches = s.launches := rfl
@[simp] theorem updCluster_reserves (k : Nat) (f : ClusterSt → ClusterSt) : (s.updCluster k f).reserves = s.reserves := rfl
@[simp] theorem updCluster_jobs (k : Nat) (f : ClusterSt → ClusterSt) : (s.updCluster k f).jobs = s.jobs := rfl
@[simp] theorem updCluster_parts (k : Nat) (f : ClusterSt → ClusterSt) : (s.updCluster k f).parts = s.parts := rfl
@[simp] theorem updCluster_contexts (k : Nat) (f : ClusterSt → ClusterSt) : (s.updCluster k f).contexts = s.contexts := rfl
@[simp] theorem updCluster_regions (k : Nat) (f : ClusterSt → ClusterSt) : (s.updCluster k f).regions = s.regions := rfl
@[simp] theorem updCluster_tlb (k : Nat) (f : ClusterSt → ClusterSt) : (s.updCluster k f).tlb = s.tlb := rfl
@[simp] theorem updCluster_walks (k : Nat) (f : ClusterSt → ClusterSt) : (s.updCluster k f).walks = s.walks := rfl
@[simp] theorem updCluster_tlbPick (k : Nat) (f : ClusterSt → ClusterSt) : (s.updCluster k f).tlbPick = s.tlbPick := rfl
@[simp] theorem updCluster_leases (k : Nat) (f : ClusterSt → ClusterSt) : (s.updCluster k f).leases = s.leases := rfl
@[simp] theorem updCluster_stamps (k : Nat) (f : ClusterSt → ClusterSt) : (s.updCluster k f).stamps = s.stamps := rfl
@[simp] theorem updCluster_sliceLast (k : Nat) (f : ClusterSt → ClusterSt) : (s.updCluster k f).sliceLast = s.sliceLast := rfl
@[simp] theorem updCluster_bankLast (k : Nat) (f : ClusterSt → ClusterSt) : (s.updCluster k f).bankLast = s.bankLast := rfl
@[simp] theorem updCluster_l2 (k : Nat) (f : ClusterSt → ClusterSt) : (s.updCluster k f).l2 = s.l2 := rfl
@[simp] theorem updCluster_ports (k : Nat) (f : ClusterSt → ClusterSt) : (s.updCluster k f).ports = s.ports := rfl
@[simp] theorem updCluster_badSectors (k : Nat) (f : ClusterSt → ClusterSt) : (s.updCluster k f).badSectors = s.badSectors := rfl
@[simp] theorem updCluster_rowFixes (k : Nat) (f : ClusterSt → ClusterSt) : (s.updCluster k f).rowFixes = s.rowFixes := rfl
@[simp] theorem updCluster_sram (k : Nat) (f : ClusterSt → ClusterSt) : (s.updCluster k f).sram = s.sram := rfl
@[simp] theorem updCluster_poison (k : Nat) (f : ClusterSt → ClusterSt) : (s.updCluster k f).poison = s.poison := rfl
@[simp] theorem updCluster_frameCtx (k : Nat) (f : ClusterSt → ClusterSt) : (s.updCluster k f).frameCtx = s.frameCtx := rfl
@[simp] theorem updCluster_migrations (k : Nat) (f : ClusterSt → ClusterSt) : (s.updCluster k f).migrations = s.migrations := rfl
@[simp] theorem updCluster_links (k : Nat) (f : ClusterSt → ClusterSt) : (s.updCluster k f).links = s.links := rfl
@[simp] theorem updCluster_linkJobs (k : Nat) (f : ClusterSt → ClusterSt) : (s.updCluster k f).linkJobs = s.linkJobs := rfl
@[simp] theorem updCluster_remotePuts (k : Nat) (f : ClusterSt → ClusterSt) : (s.updCluster k f).remotePuts = s.remotePuts := rfl
@[simp] theorem updCluster_hostVisible (k : Nat) (f : ClusterSt → ClusterSt) : (s.updCluster k f).hostVisible = s.hostVisible := rfl
@[simp] theorem updCluster_hostAcks (k : Nat) (f : ClusterSt → ClusterSt) : (s.updCluster k f).hostAcks = s.hostAcks := rfl
@[simp] theorem updCluster_hostReply (k : Nat) (f : ClusterSt → ClusterSt) : (s.updCluster k f).hostReply = s.hostReply := rfl
@[simp] theorem updCluster_portWait (k : Nat) (f : ClusterSt → ClusterSt) : (s.updCluster k f).portWait = s.portWait := rfl
@[simp] theorem updCluster_pf (k : Nat) (f : ClusterSt → ClusterSt) : (s.updCluster k f).pf = s.pf := rfl
@[simp] theorem updCluster_inputs (k : Nat) (f : ClusterSt → ClusterSt) : (s.updCluster k f).inputs = s.inputs := rfl
@[simp] theorem updCluster_clusters (k : Nat) (f : ClusterSt → ClusterSt) : (s.updCluster k f).clusters = s.clusters.modify k f := rfl

/-! ### updLink -/

@[simp] theorem updLink_time (l : Nat) (f : Link → Link) : (s.updLink l f).time = s.time := rfl
@[simp] theorem updLink_nextId (l : Nat) (f : Link → Link) : (s.updLink l f).nextId = s.nextId := rfl
@[simp] theorem updLink_fresh (l : Nat) (f : Link → Link) : (s.updLink l f).fresh = s.fresh := rfl
@[simp] theorem updLink_mem (l : Nat) (f : Link → Link) : (s.updLink l f).mem = s.mem := rfl
@[simp] theorem updLink_issue (l : Nat) (f : Link → Link) : (s.updLink l f).issue = s.issue := rfl
@[simp] theorem updLink_fibres (l : Nat) (f : Link → Link) : (s.updLink l f).fibres = s.fibres := rfl
@[simp] theorem updLink_bands (l : Nat) (f : Link → Link) : (s.updLink l f).bands = s.bands := rfl
@[simp] theorem updLink_results (l : Nat) (f : Link → Link) : (s.updLink l f).results = s.results := rfl
@[simp] theorem updLink_accesses (l : Nat) (f : Link → Link) : (s.updLink l f).accesses = s.accesses := rfl
@[simp] theorem updLink_sideLog (l : Nat) (f : Link → Link) : (s.updLink l f).sideLog = s.sideLog := rfl
@[simp] theorem updLink_cores (l : Nat) (f : Link → Link) : (s.updLink l f).cores = s.cores := rfl
@[simp] theorem updLink_clusters (l : Nat) (f : Link → Link) : (s.updLink l f).clusters = s.clusters := rfl
@[simp] theorem updLink_l1 (l : Nat) (f : Link → Link) : (s.updLink l f).l1 = s.l1 := rfl
@[simp] theorem updLink_gangs (l : Nat) (f : Link → Link) : (s.updLink l f).gangs = s.gangs := rfl
@[simp] theorem updLink_launches (l : Nat) (f : Link → Link) : (s.updLink l f).launches = s.launches := rfl
@[simp] theorem updLink_reserves (l : Nat) (f : Link → Link) : (s.updLink l f).reserves = s.reserves := rfl
@[simp] theorem updLink_jobs (l : Nat) (f : Link → Link) : (s.updLink l f).jobs = s.jobs := rfl
@[simp] theorem updLink_parts (l : Nat) (f : Link → Link) : (s.updLink l f).parts = s.parts := rfl
@[simp] theorem updLink_contexts (l : Nat) (f : Link → Link) : (s.updLink l f).contexts = s.contexts := rfl
@[simp] theorem updLink_regions (l : Nat) (f : Link → Link) : (s.updLink l f).regions = s.regions := rfl
@[simp] theorem updLink_tlb (l : Nat) (f : Link → Link) : (s.updLink l f).tlb = s.tlb := rfl
@[simp] theorem updLink_walks (l : Nat) (f : Link → Link) : (s.updLink l f).walks = s.walks := rfl
@[simp] theorem updLink_tlbPick (l : Nat) (f : Link → Link) : (s.updLink l f).tlbPick = s.tlbPick := rfl
@[simp] theorem updLink_leases (l : Nat) (f : Link → Link) : (s.updLink l f).leases = s.leases := rfl
@[simp] theorem updLink_stamps (l : Nat) (f : Link → Link) : (s.updLink l f).stamps = s.stamps := rfl
@[simp] theorem updLink_sliceLast (l : Nat) (f : Link → Link) : (s.updLink l f).sliceLast = s.sliceLast := rfl
@[simp] theorem updLink_bankLast (l : Nat) (f : Link → Link) : (s.updLink l f).bankLast = s.bankLast := rfl
@[simp] theorem updLink_l2 (l : Nat) (f : Link → Link) : (s.updLink l f).l2 = s.l2 := rfl
@[simp] theorem updLink_ports (l : Nat) (f : Link → Link) : (s.updLink l f).ports = s.ports := rfl
@[simp] theorem updLink_badSectors (l : Nat) (f : Link → Link) : (s.updLink l f).badSectors = s.badSectors := rfl
@[simp] theorem updLink_rowFixes (l : Nat) (f : Link → Link) : (s.updLink l f).rowFixes = s.rowFixes := rfl
@[simp] theorem updLink_sram (l : Nat) (f : Link → Link) : (s.updLink l f).sram = s.sram := rfl
@[simp] theorem updLink_poison (l : Nat) (f : Link → Link) : (s.updLink l f).poison = s.poison := rfl
@[simp] theorem updLink_frameCtx (l : Nat) (f : Link → Link) : (s.updLink l f).frameCtx = s.frameCtx := rfl
@[simp] theorem updLink_migrations (l : Nat) (f : Link → Link) : (s.updLink l f).migrations = s.migrations := rfl
@[simp] theorem updLink_linkJobs (l : Nat) (f : Link → Link) : (s.updLink l f).linkJobs = s.linkJobs := rfl
@[simp] theorem updLink_remotePuts (l : Nat) (f : Link → Link) : (s.updLink l f).remotePuts = s.remotePuts := rfl
@[simp] theorem updLink_hostVisible (l : Nat) (f : Link → Link) : (s.updLink l f).hostVisible = s.hostVisible := rfl
@[simp] theorem updLink_hostAcks (l : Nat) (f : Link → Link) : (s.updLink l f).hostAcks = s.hostAcks := rfl
@[simp] theorem updLink_hostReply (l : Nat) (f : Link → Link) : (s.updLink l f).hostReply = s.hostReply := rfl
@[simp] theorem updLink_portWait (l : Nat) (f : Link → Link) : (s.updLink l f).portWait = s.portWait := rfl
@[simp] theorem updLink_pf (l : Nat) (f : Link → Link) : (s.updLink l f).pf = s.pf := rfl
@[simp] theorem updLink_inputs (l : Nat) (f : Link → Link) : (s.updLink l f).inputs = s.inputs := rfl
@[simp] theorem updLink_links (l : Nat) (f : Link → Link) : (s.updLink l f).links = s.links.modify l f := rfl

/-! ### updPf -/

@[simp] theorem updPf_time (f : Pf → Pf) : (s.updPf f).time = s.time := rfl
@[simp] theorem updPf_nextId (f : Pf → Pf) : (s.updPf f).nextId = s.nextId := rfl
@[simp] theorem updPf_fresh (f : Pf → Pf) : (s.updPf f).fresh = s.fresh := rfl
@[simp] theorem updPf_mem (f : Pf → Pf) : (s.updPf f).mem = s.mem := rfl
@[simp] theorem updPf_issue (f : Pf → Pf) : (s.updPf f).issue = s.issue := rfl
@[simp] theorem updPf_fibres (f : Pf → Pf) : (s.updPf f).fibres = s.fibres := rfl
@[simp] theorem updPf_bands (f : Pf → Pf) : (s.updPf f).bands = s.bands := rfl
@[simp] theorem updPf_results (f : Pf → Pf) : (s.updPf f).results = s.results := rfl
@[simp] theorem updPf_accesses (f : Pf → Pf) : (s.updPf f).accesses = s.accesses := rfl
@[simp] theorem updPf_sideLog (f : Pf → Pf) : (s.updPf f).sideLog = s.sideLog := rfl
@[simp] theorem updPf_cores (f : Pf → Pf) : (s.updPf f).cores = s.cores := rfl
@[simp] theorem updPf_clusters (f : Pf → Pf) : (s.updPf f).clusters = s.clusters := rfl
@[simp] theorem updPf_l1 (f : Pf → Pf) : (s.updPf f).l1 = s.l1 := rfl
@[simp] theorem updPf_gangs (f : Pf → Pf) : (s.updPf f).gangs = s.gangs := rfl
@[simp] theorem updPf_launches (f : Pf → Pf) : (s.updPf f).launches = s.launches := rfl
@[simp] theorem updPf_reserves (f : Pf → Pf) : (s.updPf f).reserves = s.reserves := rfl
@[simp] theorem updPf_jobs (f : Pf → Pf) : (s.updPf f).jobs = s.jobs := rfl
@[simp] theorem updPf_parts (f : Pf → Pf) : (s.updPf f).parts = s.parts := rfl
@[simp] theorem updPf_contexts (f : Pf → Pf) : (s.updPf f).contexts = s.contexts := rfl
@[simp] theorem updPf_regions (f : Pf → Pf) : (s.updPf f).regions = s.regions := rfl
@[simp] theorem updPf_tlb (f : Pf → Pf) : (s.updPf f).tlb = s.tlb := rfl
@[simp] theorem updPf_walks (f : Pf → Pf) : (s.updPf f).walks = s.walks := rfl
@[simp] theorem updPf_tlbPick (f : Pf → Pf) : (s.updPf f).tlbPick = s.tlbPick := rfl
@[simp] theorem updPf_leases (f : Pf → Pf) : (s.updPf f).leases = s.leases := rfl
@[simp] theorem updPf_stamps (f : Pf → Pf) : (s.updPf f).stamps = s.stamps := rfl
@[simp] theorem updPf_sliceLast (f : Pf → Pf) : (s.updPf f).sliceLast = s.sliceLast := rfl
@[simp] theorem updPf_bankLast (f : Pf → Pf) : (s.updPf f).bankLast = s.bankLast := rfl
@[simp] theorem updPf_l2 (f : Pf → Pf) : (s.updPf f).l2 = s.l2 := rfl
@[simp] theorem updPf_ports (f : Pf → Pf) : (s.updPf f).ports = s.ports := rfl
@[simp] theorem updPf_badSectors (f : Pf → Pf) : (s.updPf f).badSectors = s.badSectors := rfl
@[simp] theorem updPf_rowFixes (f : Pf → Pf) : (s.updPf f).rowFixes = s.rowFixes := rfl
@[simp] theorem updPf_sram (f : Pf → Pf) : (s.updPf f).sram = s.sram := rfl
@[simp] theorem updPf_poison (f : Pf → Pf) : (s.updPf f).poison = s.poison := rfl
@[simp] theorem updPf_frameCtx (f : Pf → Pf) : (s.updPf f).frameCtx = s.frameCtx := rfl
@[simp] theorem updPf_migrations (f : Pf → Pf) : (s.updPf f).migrations = s.migrations := rfl
@[simp] theorem updPf_links (f : Pf → Pf) : (s.updPf f).links = s.links := rfl
@[simp] theorem updPf_linkJobs (f : Pf → Pf) : (s.updPf f).linkJobs = s.linkJobs := rfl
@[simp] theorem updPf_remotePuts (f : Pf → Pf) : (s.updPf f).remotePuts = s.remotePuts := rfl
@[simp] theorem updPf_hostVisible (f : Pf → Pf) : (s.updPf f).hostVisible = s.hostVisible := rfl
@[simp] theorem updPf_hostAcks (f : Pf → Pf) : (s.updPf f).hostAcks = s.hostAcks := rfl
@[simp] theorem updPf_hostReply (f : Pf → Pf) : (s.updPf f).hostReply = s.hostReply := rfl
@[simp] theorem updPf_portWait (f : Pf → Pf) : (s.updPf f).portWait = s.portWait := rfl
@[simp] theorem updPf_inputs (f : Pf → Pf) : (s.updPf f).inputs = s.inputs := rfl
@[simp] theorem updPf_pf (f : Pf → Pf) : (s.updPf f).pf = f s.pf := rfl

/-! ### updFibre -/

@[simp] theorem updFibre_time (k : Nat) (f : Fibre → Fibre) : (s.updFibre k f).time = s.time := rfl
@[simp] theorem updFibre_nextId (k : Nat) (f : Fibre → Fibre) : (s.updFibre k f).nextId = s.nextId := rfl
@[simp] theorem updFibre_fresh (k : Nat) (f : Fibre → Fibre) : (s.updFibre k f).fresh = s.fresh := rfl
@[simp] theorem updFibre_mem (k : Nat) (f : Fibre → Fibre) : (s.updFibre k f).mem = s.mem := rfl
@[simp] theorem updFibre_issue (k : Nat) (f : Fibre → Fibre) : (s.updFibre k f).issue = s.issue := rfl
@[simp] theorem updFibre_bands (k : Nat) (f : Fibre → Fibre) : (s.updFibre k f).bands = s.bands := rfl
@[simp] theorem updFibre_results (k : Nat) (f : Fibre → Fibre) : (s.updFibre k f).results = s.results := rfl
@[simp] theorem updFibre_accesses (k : Nat) (f : Fibre → Fibre) : (s.updFibre k f).accesses = s.accesses := rfl
@[simp] theorem updFibre_sideLog (k : Nat) (f : Fibre → Fibre) : (s.updFibre k f).sideLog = s.sideLog := rfl
@[simp] theorem updFibre_cores (k : Nat) (f : Fibre → Fibre) : (s.updFibre k f).cores = s.cores := rfl
@[simp] theorem updFibre_clusters (k : Nat) (f : Fibre → Fibre) : (s.updFibre k f).clusters = s.clusters := rfl
@[simp] theorem updFibre_l1 (k : Nat) (f : Fibre → Fibre) : (s.updFibre k f).l1 = s.l1 := rfl
@[simp] theorem updFibre_gangs (k : Nat) (f : Fibre → Fibre) : (s.updFibre k f).gangs = s.gangs := rfl
@[simp] theorem updFibre_launches (k : Nat) (f : Fibre → Fibre) : (s.updFibre k f).launches = s.launches := rfl
@[simp] theorem updFibre_reserves (k : Nat) (f : Fibre → Fibre) : (s.updFibre k f).reserves = s.reserves := rfl
@[simp] theorem updFibre_jobs (k : Nat) (f : Fibre → Fibre) : (s.updFibre k f).jobs = s.jobs := rfl
@[simp] theorem updFibre_parts (k : Nat) (f : Fibre → Fibre) : (s.updFibre k f).parts = s.parts := rfl
@[simp] theorem updFibre_contexts (k : Nat) (f : Fibre → Fibre) : (s.updFibre k f).contexts = s.contexts := rfl
@[simp] theorem updFibre_regions (k : Nat) (f : Fibre → Fibre) : (s.updFibre k f).regions = s.regions := rfl
@[simp] theorem updFibre_tlb (k : Nat) (f : Fibre → Fibre) : (s.updFibre k f).tlb = s.tlb := rfl
@[simp] theorem updFibre_walks (k : Nat) (f : Fibre → Fibre) : (s.updFibre k f).walks = s.walks := rfl
@[simp] theorem updFibre_tlbPick (k : Nat) (f : Fibre → Fibre) : (s.updFibre k f).tlbPick = s.tlbPick := rfl
@[simp] theorem updFibre_leases (k : Nat) (f : Fibre → Fibre) : (s.updFibre k f).leases = s.leases := rfl
@[simp] theorem updFibre_stamps (k : Nat) (f : Fibre → Fibre) : (s.updFibre k f).stamps = s.stamps := rfl
@[simp] theorem updFibre_sliceLast (k : Nat) (f : Fibre → Fibre) : (s.updFibre k f).sliceLast = s.sliceLast := rfl
@[simp] theorem updFibre_bankLast (k : Nat) (f : Fibre → Fibre) : (s.updFibre k f).bankLast = s.bankLast := rfl
@[simp] theorem updFibre_l2 (k : Nat) (f : Fibre → Fibre) : (s.updFibre k f).l2 = s.l2 := rfl
@[simp] theorem updFibre_ports (k : Nat) (f : Fibre → Fibre) : (s.updFibre k f).ports = s.ports := rfl
@[simp] theorem updFibre_badSectors (k : Nat) (f : Fibre → Fibre) : (s.updFibre k f).badSectors = s.badSectors := rfl
@[simp] theorem updFibre_rowFixes (k : Nat) (f : Fibre → Fibre) : (s.updFibre k f).rowFixes = s.rowFixes := rfl
@[simp] theorem updFibre_sram (k : Nat) (f : Fibre → Fibre) : (s.updFibre k f).sram = s.sram := rfl
@[simp] theorem updFibre_poison (k : Nat) (f : Fibre → Fibre) : (s.updFibre k f).poison = s.poison := rfl
@[simp] theorem updFibre_frameCtx (k : Nat) (f : Fibre → Fibre) : (s.updFibre k f).frameCtx = s.frameCtx := rfl
@[simp] theorem updFibre_migrations (k : Nat) (f : Fibre → Fibre) : (s.updFibre k f).migrations = s.migrations := rfl
@[simp] theorem updFibre_links (k : Nat) (f : Fibre → Fibre) : (s.updFibre k f).links = s.links := rfl
@[simp] theorem updFibre_linkJobs (k : Nat) (f : Fibre → Fibre) : (s.updFibre k f).linkJobs = s.linkJobs := rfl
@[simp] theorem updFibre_remotePuts (k : Nat) (f : Fibre → Fibre) : (s.updFibre k f).remotePuts = s.remotePuts := rfl
@[simp] theorem updFibre_hostVisible (k : Nat) (f : Fibre → Fibre) : (s.updFibre k f).hostVisible = s.hostVisible := rfl
@[simp] theorem updFibre_hostAcks (k : Nat) (f : Fibre → Fibre) : (s.updFibre k f).hostAcks = s.hostAcks := rfl
@[simp] theorem updFibre_hostReply (k : Nat) (f : Fibre → Fibre) : (s.updFibre k f).hostReply = s.hostReply := rfl
@[simp] theorem updFibre_portWait (k : Nat) (f : Fibre → Fibre) : (s.updFibre k f).portWait = s.portWait := rfl
@[simp] theorem updFibre_pf (k : Nat) (f : Fibre → Fibre) : (s.updFibre k f).pf = s.pf := rfl
@[simp] theorem updFibre_inputs (k : Nat) (f : Fibre → Fibre) : (s.updFibre k f).inputs = s.inputs := rfl
@[simp] theorem updFibre_fibres (k : Nat) (f : Fibre → Fibre) : (s.updFibre k f).fibres = s.fibres.modify k f := rfl

/-! ### updFibres -/

@[simp] theorem updFibres_time (ks : List Nat) (f : Nat → Fibre → Fibre) : (s.updFibres ks f).time = s.time := rfl
@[simp] theorem updFibres_nextId (ks : List Nat) (f : Nat → Fibre → Fibre) : (s.updFibres ks f).nextId = s.nextId := rfl
@[simp] theorem updFibres_fresh (ks : List Nat) (f : Nat → Fibre → Fibre) : (s.updFibres ks f).fresh = s.fresh := rfl
@[simp] theorem updFibres_mem (ks : List Nat) (f : Nat → Fibre → Fibre) : (s.updFibres ks f).mem = s.mem := rfl
@[simp] theorem updFibres_issue (ks : List Nat) (f : Nat → Fibre → Fibre) : (s.updFibres ks f).issue = s.issue := rfl
@[simp] theorem updFibres_bands (ks : List Nat) (f : Nat → Fibre → Fibre) : (s.updFibres ks f).bands = s.bands := rfl
@[simp] theorem updFibres_results (ks : List Nat) (f : Nat → Fibre → Fibre) : (s.updFibres ks f).results = s.results := rfl
@[simp] theorem updFibres_accesses (ks : List Nat) (f : Nat → Fibre → Fibre) : (s.updFibres ks f).accesses = s.accesses := rfl
@[simp] theorem updFibres_sideLog (ks : List Nat) (f : Nat → Fibre → Fibre) : (s.updFibres ks f).sideLog = s.sideLog := rfl
@[simp] theorem updFibres_cores (ks : List Nat) (f : Nat → Fibre → Fibre) : (s.updFibres ks f).cores = s.cores := rfl
@[simp] theorem updFibres_clusters (ks : List Nat) (f : Nat → Fibre → Fibre) : (s.updFibres ks f).clusters = s.clusters := rfl
@[simp] theorem updFibres_l1 (ks : List Nat) (f : Nat → Fibre → Fibre) : (s.updFibres ks f).l1 = s.l1 := rfl
@[simp] theorem updFibres_gangs (ks : List Nat) (f : Nat → Fibre → Fibre) : (s.updFibres ks f).gangs = s.gangs := rfl
@[simp] theorem updFibres_launches (ks : List Nat) (f : Nat → Fibre → Fibre) : (s.updFibres ks f).launches = s.launches := rfl
@[simp] theorem updFibres_reserves (ks : List Nat) (f : Nat → Fibre → Fibre) : (s.updFibres ks f).reserves = s.reserves := rfl
@[simp] theorem updFibres_jobs (ks : List Nat) (f : Nat → Fibre → Fibre) : (s.updFibres ks f).jobs = s.jobs := rfl
@[simp] theorem updFibres_parts (ks : List Nat) (f : Nat → Fibre → Fibre) : (s.updFibres ks f).parts = s.parts := rfl
@[simp] theorem updFibres_contexts (ks : List Nat) (f : Nat → Fibre → Fibre) : (s.updFibres ks f).contexts = s.contexts := rfl
@[simp] theorem updFibres_regions (ks : List Nat) (f : Nat → Fibre → Fibre) : (s.updFibres ks f).regions = s.regions := rfl
@[simp] theorem updFibres_tlb (ks : List Nat) (f : Nat → Fibre → Fibre) : (s.updFibres ks f).tlb = s.tlb := rfl
@[simp] theorem updFibres_walks (ks : List Nat) (f : Nat → Fibre → Fibre) : (s.updFibres ks f).walks = s.walks := rfl
@[simp] theorem updFibres_tlbPick (ks : List Nat) (f : Nat → Fibre → Fibre) : (s.updFibres ks f).tlbPick = s.tlbPick := rfl
@[simp] theorem updFibres_leases (ks : List Nat) (f : Nat → Fibre → Fibre) : (s.updFibres ks f).leases = s.leases := rfl
@[simp] theorem updFibres_stamps (ks : List Nat) (f : Nat → Fibre → Fibre) : (s.updFibres ks f).stamps = s.stamps := rfl
@[simp] theorem updFibres_sliceLast (ks : List Nat) (f : Nat → Fibre → Fibre) : (s.updFibres ks f).sliceLast = s.sliceLast := rfl
@[simp] theorem updFibres_bankLast (ks : List Nat) (f : Nat → Fibre → Fibre) : (s.updFibres ks f).bankLast = s.bankLast := rfl
@[simp] theorem updFibres_l2 (ks : List Nat) (f : Nat → Fibre → Fibre) : (s.updFibres ks f).l2 = s.l2 := rfl
@[simp] theorem updFibres_ports (ks : List Nat) (f : Nat → Fibre → Fibre) : (s.updFibres ks f).ports = s.ports := rfl
@[simp] theorem updFibres_badSectors (ks : List Nat) (f : Nat → Fibre → Fibre) : (s.updFibres ks f).badSectors = s.badSectors := rfl
@[simp] theorem updFibres_rowFixes (ks : List Nat) (f : Nat → Fibre → Fibre) : (s.updFibres ks f).rowFixes = s.rowFixes := rfl
@[simp] theorem updFibres_sram (ks : List Nat) (f : Nat → Fibre → Fibre) : (s.updFibres ks f).sram = s.sram := rfl
@[simp] theorem updFibres_poison (ks : List Nat) (f : Nat → Fibre → Fibre) : (s.updFibres ks f).poison = s.poison := rfl
@[simp] theorem updFibres_frameCtx (ks : List Nat) (f : Nat → Fibre → Fibre) : (s.updFibres ks f).frameCtx = s.frameCtx := rfl
@[simp] theorem updFibres_migrations (ks : List Nat) (f : Nat → Fibre → Fibre) : (s.updFibres ks f).migrations = s.migrations := rfl
@[simp] theorem updFibres_links (ks : List Nat) (f : Nat → Fibre → Fibre) : (s.updFibres ks f).links = s.links := rfl
@[simp] theorem updFibres_linkJobs (ks : List Nat) (f : Nat → Fibre → Fibre) : (s.updFibres ks f).linkJobs = s.linkJobs := rfl
@[simp] theorem updFibres_remotePuts (ks : List Nat) (f : Nat → Fibre → Fibre) : (s.updFibres ks f).remotePuts = s.remotePuts := rfl
@[simp] theorem updFibres_hostVisible (ks : List Nat) (f : Nat → Fibre → Fibre) : (s.updFibres ks f).hostVisible = s.hostVisible := rfl
@[simp] theorem updFibres_hostAcks (ks : List Nat) (f : Nat → Fibre → Fibre) : (s.updFibres ks f).hostAcks = s.hostAcks := rfl
@[simp] theorem updFibres_hostReply (ks : List Nat) (f : Nat → Fibre → Fibre) : (s.updFibres ks f).hostReply = s.hostReply := rfl
@[simp] theorem updFibres_portWait (ks : List Nat) (f : Nat → Fibre → Fibre) : (s.updFibres ks f).portWait = s.portWait := rfl
@[simp] theorem updFibres_pf (ks : List Nat) (f : Nat → Fibre → Fibre) : (s.updFibres ks f).pf = s.pf := rfl
@[simp] theorem updFibres_inputs (ks : List Nat) (f : Nat → Fibre → Fibre) : (s.updFibres ks f).inputs = s.inputs := rfl
@[simp] theorem updFibres_fibres (ks : List Nat) (f : Nat → Fibre → Fibre) : (s.updFibres ks f).fibres = s.fibres.mapIdx (fun k x => if ks.contains k then f k x else x) := rfl

/-! ### updCtls -/

@[simp] theorem updCtls_time (ks : List Nat) (f : Nat → Ctl → Ctl) : (s.updCtls ks f).time = s.time := rfl
@[simp] theorem updCtls_nextId (ks : List Nat) (f : Nat → Ctl → Ctl) : (s.updCtls ks f).nextId = s.nextId := rfl
@[simp] theorem updCtls_fresh (ks : List Nat) (f : Nat → Ctl → Ctl) : (s.updCtls ks f).fresh = s.fresh := rfl
@[simp] theorem updCtls_mem (ks : List Nat) (f : Nat → Ctl → Ctl) : (s.updCtls ks f).mem = s.mem := rfl
@[simp] theorem updCtls_issue (ks : List Nat) (f : Nat → Ctl → Ctl) : (s.updCtls ks f).issue = s.issue := rfl
@[simp] theorem updCtls_bands (ks : List Nat) (f : Nat → Ctl → Ctl) : (s.updCtls ks f).bands = s.bands := rfl
@[simp] theorem updCtls_results (ks : List Nat) (f : Nat → Ctl → Ctl) : (s.updCtls ks f).results = s.results := rfl
@[simp] theorem updCtls_accesses (ks : List Nat) (f : Nat → Ctl → Ctl) : (s.updCtls ks f).accesses = s.accesses := rfl
@[simp] theorem updCtls_sideLog (ks : List Nat) (f : Nat → Ctl → Ctl) : (s.updCtls ks f).sideLog = s.sideLog := rfl
@[simp] theorem updCtls_cores (ks : List Nat) (f : Nat → Ctl → Ctl) : (s.updCtls ks f).cores = s.cores := rfl
@[simp] theorem updCtls_clusters (ks : List Nat) (f : Nat → Ctl → Ctl) : (s.updCtls ks f).clusters = s.clusters := rfl
@[simp] theorem updCtls_l1 (ks : List Nat) (f : Nat → Ctl → Ctl) : (s.updCtls ks f).l1 = s.l1 := rfl
@[simp] theorem updCtls_gangs (ks : List Nat) (f : Nat → Ctl → Ctl) : (s.updCtls ks f).gangs = s.gangs := rfl
@[simp] theorem updCtls_launches (ks : List Nat) (f : Nat → Ctl → Ctl) : (s.updCtls ks f).launches = s.launches := rfl
@[simp] theorem updCtls_reserves (ks : List Nat) (f : Nat → Ctl → Ctl) : (s.updCtls ks f).reserves = s.reserves := rfl
@[simp] theorem updCtls_jobs (ks : List Nat) (f : Nat → Ctl → Ctl) : (s.updCtls ks f).jobs = s.jobs := rfl
@[simp] theorem updCtls_parts (ks : List Nat) (f : Nat → Ctl → Ctl) : (s.updCtls ks f).parts = s.parts := rfl
@[simp] theorem updCtls_contexts (ks : List Nat) (f : Nat → Ctl → Ctl) : (s.updCtls ks f).contexts = s.contexts := rfl
@[simp] theorem updCtls_regions (ks : List Nat) (f : Nat → Ctl → Ctl) : (s.updCtls ks f).regions = s.regions := rfl
@[simp] theorem updCtls_tlb (ks : List Nat) (f : Nat → Ctl → Ctl) : (s.updCtls ks f).tlb = s.tlb := rfl
@[simp] theorem updCtls_walks (ks : List Nat) (f : Nat → Ctl → Ctl) : (s.updCtls ks f).walks = s.walks := rfl
@[simp] theorem updCtls_tlbPick (ks : List Nat) (f : Nat → Ctl → Ctl) : (s.updCtls ks f).tlbPick = s.tlbPick := rfl
@[simp] theorem updCtls_leases (ks : List Nat) (f : Nat → Ctl → Ctl) : (s.updCtls ks f).leases = s.leases := rfl
@[simp] theorem updCtls_stamps (ks : List Nat) (f : Nat → Ctl → Ctl) : (s.updCtls ks f).stamps = s.stamps := rfl
@[simp] theorem updCtls_sliceLast (ks : List Nat) (f : Nat → Ctl → Ctl) : (s.updCtls ks f).sliceLast = s.sliceLast := rfl
@[simp] theorem updCtls_bankLast (ks : List Nat) (f : Nat → Ctl → Ctl) : (s.updCtls ks f).bankLast = s.bankLast := rfl
@[simp] theorem updCtls_l2 (ks : List Nat) (f : Nat → Ctl → Ctl) : (s.updCtls ks f).l2 = s.l2 := rfl
@[simp] theorem updCtls_ports (ks : List Nat) (f : Nat → Ctl → Ctl) : (s.updCtls ks f).ports = s.ports := rfl
@[simp] theorem updCtls_badSectors (ks : List Nat) (f : Nat → Ctl → Ctl) : (s.updCtls ks f).badSectors = s.badSectors := rfl
@[simp] theorem updCtls_rowFixes (ks : List Nat) (f : Nat → Ctl → Ctl) : (s.updCtls ks f).rowFixes = s.rowFixes := rfl
@[simp] theorem updCtls_sram (ks : List Nat) (f : Nat → Ctl → Ctl) : (s.updCtls ks f).sram = s.sram := rfl
@[simp] theorem updCtls_poison (ks : List Nat) (f : Nat → Ctl → Ctl) : (s.updCtls ks f).poison = s.poison := rfl
@[simp] theorem updCtls_frameCtx (ks : List Nat) (f : Nat → Ctl → Ctl) : (s.updCtls ks f).frameCtx = s.frameCtx := rfl
@[simp] theorem updCtls_migrations (ks : List Nat) (f : Nat → Ctl → Ctl) : (s.updCtls ks f).migrations = s.migrations := rfl
@[simp] theorem updCtls_links (ks : List Nat) (f : Nat → Ctl → Ctl) : (s.updCtls ks f).links = s.links := rfl
@[simp] theorem updCtls_linkJobs (ks : List Nat) (f : Nat → Ctl → Ctl) : (s.updCtls ks f).linkJobs = s.linkJobs := rfl
@[simp] theorem updCtls_remotePuts (ks : List Nat) (f : Nat → Ctl → Ctl) : (s.updCtls ks f).remotePuts = s.remotePuts := rfl
@[simp] theorem updCtls_hostVisible (ks : List Nat) (f : Nat → Ctl → Ctl) : (s.updCtls ks f).hostVisible = s.hostVisible := rfl
@[simp] theorem updCtls_hostAcks (ks : List Nat) (f : Nat → Ctl → Ctl) : (s.updCtls ks f).hostAcks = s.hostAcks := rfl
@[simp] theorem updCtls_hostReply (ks : List Nat) (f : Nat → Ctl → Ctl) : (s.updCtls ks f).hostReply = s.hostReply := rfl
@[simp] theorem updCtls_portWait (ks : List Nat) (f : Nat → Ctl → Ctl) : (s.updCtls ks f).portWait = s.portWait := rfl
@[simp] theorem updCtls_pf (ks : List Nat) (f : Nat → Ctl → Ctl) : (s.updCtls ks f).pf = s.pf := rfl
@[simp] theorem updCtls_inputs (ks : List Nat) (f : Nat → Ctl → Ctl) : (s.updCtls ks f).inputs = s.inputs := rfl

/-! ### bump -/

@[simp] theorem bump_time : (s.bump).time = s.time := rfl
@[simp] theorem bump_fresh : (s.bump).fresh = s.fresh := rfl
@[simp] theorem bump_mem : (s.bump).mem = s.mem := rfl
@[simp] theorem bump_issue : (s.bump).issue = s.issue := rfl
@[simp] theorem bump_fibres : (s.bump).fibres = s.fibres := rfl
@[simp] theorem bump_bands : (s.bump).bands = s.bands := rfl
@[simp] theorem bump_results : (s.bump).results = s.results := rfl
@[simp] theorem bump_accesses : (s.bump).accesses = s.accesses := rfl
@[simp] theorem bump_sideLog : (s.bump).sideLog = s.sideLog := rfl
@[simp] theorem bump_cores : (s.bump).cores = s.cores := rfl
@[simp] theorem bump_clusters : (s.bump).clusters = s.clusters := rfl
@[simp] theorem bump_l1 : (s.bump).l1 = s.l1 := rfl
@[simp] theorem bump_gangs : (s.bump).gangs = s.gangs := rfl
@[simp] theorem bump_launches : (s.bump).launches = s.launches := rfl
@[simp] theorem bump_reserves : (s.bump).reserves = s.reserves := rfl
@[simp] theorem bump_jobs : (s.bump).jobs = s.jobs := rfl
@[simp] theorem bump_parts : (s.bump).parts = s.parts := rfl
@[simp] theorem bump_contexts : (s.bump).contexts = s.contexts := rfl
@[simp] theorem bump_regions : (s.bump).regions = s.regions := rfl
@[simp] theorem bump_tlb : (s.bump).tlb = s.tlb := rfl
@[simp] theorem bump_walks : (s.bump).walks = s.walks := rfl
@[simp] theorem bump_tlbPick : (s.bump).tlbPick = s.tlbPick := rfl
@[simp] theorem bump_leases : (s.bump).leases = s.leases := rfl
@[simp] theorem bump_stamps : (s.bump).stamps = s.stamps := rfl
@[simp] theorem bump_sliceLast : (s.bump).sliceLast = s.sliceLast := rfl
@[simp] theorem bump_bankLast : (s.bump).bankLast = s.bankLast := rfl
@[simp] theorem bump_l2 : (s.bump).l2 = s.l2 := rfl
@[simp] theorem bump_ports : (s.bump).ports = s.ports := rfl
@[simp] theorem bump_badSectors : (s.bump).badSectors = s.badSectors := rfl
@[simp] theorem bump_rowFixes : (s.bump).rowFixes = s.rowFixes := rfl
@[simp] theorem bump_sram : (s.bump).sram = s.sram := rfl
@[simp] theorem bump_poison : (s.bump).poison = s.poison := rfl
@[simp] theorem bump_frameCtx : (s.bump).frameCtx = s.frameCtx := rfl
@[simp] theorem bump_migrations : (s.bump).migrations = s.migrations := rfl
@[simp] theorem bump_links : (s.bump).links = s.links := rfl
@[simp] theorem bump_linkJobs : (s.bump).linkJobs = s.linkJobs := rfl
@[simp] theorem bump_remotePuts : (s.bump).remotePuts = s.remotePuts := rfl
@[simp] theorem bump_hostVisible : (s.bump).hostVisible = s.hostVisible := rfl
@[simp] theorem bump_hostAcks : (s.bump).hostAcks = s.hostAcks := rfl
@[simp] theorem bump_hostReply : (s.bump).hostReply = s.hostReply := rfl
@[simp] theorem bump_portWait : (s.bump).portWait = s.portWait := rfl
@[simp] theorem bump_pf : (s.bump).pf = s.pf := rfl
@[simp] theorem bump_inputs : (s.bump).inputs = s.inputs := rfl
@[simp] theorem bump_nextId : (s.bump).nextId = s.nextId + 1 := rfl

/-! ### addResult -/

@[simp] theorem addResult_time (r : Result) : (s.addResult r).time = s.time := rfl
@[simp] theorem addResult_fresh (r : Result) : (s.addResult r).fresh = s.fresh := rfl
@[simp] theorem addResult_mem (r : Result) : (s.addResult r).mem = s.mem := rfl
@[simp] theorem addResult_issue (r : Result) : (s.addResult r).issue = s.issue := rfl
@[simp] theorem addResult_fibres (r : Result) : (s.addResult r).fibres = s.fibres := rfl
@[simp] theorem addResult_bands (r : Result) : (s.addResult r).bands = s.bands := rfl
@[simp] theorem addResult_accesses (r : Result) : (s.addResult r).accesses = s.accesses := rfl
@[simp] theorem addResult_sideLog (r : Result) : (s.addResult r).sideLog = s.sideLog := rfl
@[simp] theorem addResult_cores (r : Result) : (s.addResult r).cores = s.cores := rfl
@[simp] theorem addResult_clusters (r : Result) : (s.addResult r).clusters = s.clusters := rfl
@[simp] theorem addResult_l1 (r : Result) : (s.addResult r).l1 = s.l1 := rfl
@[simp] theorem addResult_gangs (r : Result) : (s.addResult r).gangs = s.gangs := rfl
@[simp] theorem addResult_launches (r : Result) : (s.addResult r).launches = s.launches := rfl
@[simp] theorem addResult_reserves (r : Result) : (s.addResult r).reserves = s.reserves := rfl
@[simp] theorem addResult_jobs (r : Result) : (s.addResult r).jobs = s.jobs := rfl
@[simp] theorem addResult_parts (r : Result) : (s.addResult r).parts = s.parts := rfl
@[simp] theorem addResult_contexts (r : Result) : (s.addResult r).contexts = s.contexts := rfl
@[simp] theorem addResult_regions (r : Result) : (s.addResult r).regions = s.regions := rfl
@[simp] theorem addResult_tlb (r : Result) : (s.addResult r).tlb = s.tlb := rfl
@[simp] theorem addResult_walks (r : Result) : (s.addResult r).walks = s.walks := rfl
@[simp] theorem addResult_tlbPick (r : Result) : (s.addResult r).tlbPick = s.tlbPick := rfl
@[simp] theorem addResult_leases (r : Result) : (s.addResult r).leases = s.leases := rfl
@[simp] theorem addResult_stamps (r : Result) : (s.addResult r).stamps = s.stamps := rfl
@[simp] theorem addResult_sliceLast (r : Result) : (s.addResult r).sliceLast = s.sliceLast := rfl
@[simp] theorem addResult_bankLast (r : Result) : (s.addResult r).bankLast = s.bankLast := rfl
@[simp] theorem addResult_l2 (r : Result) : (s.addResult r).l2 = s.l2 := rfl
@[simp] theorem addResult_ports (r : Result) : (s.addResult r).ports = s.ports := rfl
@[simp] theorem addResult_badSectors (r : Result) : (s.addResult r).badSectors = s.badSectors := rfl
@[simp] theorem addResult_rowFixes (r : Result) : (s.addResult r).rowFixes = s.rowFixes := rfl
@[simp] theorem addResult_sram (r : Result) : (s.addResult r).sram = s.sram := rfl
@[simp] theorem addResult_poison (r : Result) : (s.addResult r).poison = s.poison := rfl
@[simp] theorem addResult_frameCtx (r : Result) : (s.addResult r).frameCtx = s.frameCtx := rfl
@[simp] theorem addResult_migrations (r : Result) : (s.addResult r).migrations = s.migrations := rfl
@[simp] theorem addResult_links (r : Result) : (s.addResult r).links = s.links := rfl
@[simp] theorem addResult_linkJobs (r : Result) : (s.addResult r).linkJobs = s.linkJobs := rfl
@[simp] theorem addResult_remotePuts (r : Result) : (s.addResult r).remotePuts = s.remotePuts := rfl
@[simp] theorem addResult_hostVisible (r : Result) : (s.addResult r).hostVisible = s.hostVisible := rfl
@[simp] theorem addResult_hostAcks (r : Result) : (s.addResult r).hostAcks = s.hostAcks := rfl
@[simp] theorem addResult_hostReply (r : Result) : (s.addResult r).hostReply = s.hostReply := rfl
@[simp] theorem addResult_portWait (r : Result) : (s.addResult r).portWait = s.portWait := rfl
@[simp] theorem addResult_pf (r : Result) : (s.addResult r).pf = s.pf := rfl
@[simp] theorem addResult_inputs (r : Result) : (s.addResult r).inputs = s.inputs := rfl

/-! ### unband -/

@[simp] theorem unband_time (ks : List Nat) : (s.unband ks).time = s.time := rfl
@[simp] theorem unband_nextId (ks : List Nat) : (s.unband ks).nextId = s.nextId := rfl
@[simp] theorem unband_fresh (ks : List Nat) : (s.unband ks).fresh = s.fresh := rfl
@[simp] theorem unband_mem (ks : List Nat) : (s.unband ks).mem = s.mem := rfl
@[simp] theorem unband_issue (ks : List Nat) : (s.unband ks).issue = s.issue := rfl
@[simp] theorem unband_fibres (ks : List Nat) : (s.unband ks).fibres = s.fibres := rfl
@[simp] theorem unband_results (ks : List Nat) : (s.unband ks).results = s.results := rfl
@[simp] theorem unband_accesses (ks : List Nat) : (s.unband ks).accesses = s.accesses := rfl
@[simp] theorem unband_sideLog (ks : List Nat) : (s.unband ks).sideLog = s.sideLog := rfl
@[simp] theorem unband_cores (ks : List Nat) : (s.unband ks).cores = s.cores := rfl
@[simp] theorem unband_clusters (ks : List Nat) : (s.unband ks).clusters = s.clusters := rfl
@[simp] theorem unband_l1 (ks : List Nat) : (s.unband ks).l1 = s.l1 := rfl
@[simp] theorem unband_gangs (ks : List Nat) : (s.unband ks).gangs = s.gangs := rfl
@[simp] theorem unband_launches (ks : List Nat) : (s.unband ks).launches = s.launches := rfl
@[simp] theorem unband_reserves (ks : List Nat) : (s.unband ks).reserves = s.reserves := rfl
@[simp] theorem unband_jobs (ks : List Nat) : (s.unband ks).jobs = s.jobs := rfl
@[simp] theorem unband_parts (ks : List Nat) : (s.unband ks).parts = s.parts := rfl
@[simp] theorem unband_contexts (ks : List Nat) : (s.unband ks).contexts = s.contexts := rfl
@[simp] theorem unband_regions (ks : List Nat) : (s.unband ks).regions = s.regions := rfl
@[simp] theorem unband_tlb (ks : List Nat) : (s.unband ks).tlb = s.tlb := rfl
@[simp] theorem unband_walks (ks : List Nat) : (s.unband ks).walks = s.walks := rfl
@[simp] theorem unband_tlbPick (ks : List Nat) : (s.unband ks).tlbPick = s.tlbPick := rfl
@[simp] theorem unband_leases (ks : List Nat) : (s.unband ks).leases = s.leases := rfl
@[simp] theorem unband_stamps (ks : List Nat) : (s.unband ks).stamps = s.stamps := rfl
@[simp] theorem unband_sliceLast (ks : List Nat) : (s.unband ks).sliceLast = s.sliceLast := rfl
@[simp] theorem unband_bankLast (ks : List Nat) : (s.unband ks).bankLast = s.bankLast := rfl
@[simp] theorem unband_l2 (ks : List Nat) : (s.unband ks).l2 = s.l2 := rfl
@[simp] theorem unband_ports (ks : List Nat) : (s.unband ks).ports = s.ports := rfl
@[simp] theorem unband_badSectors (ks : List Nat) : (s.unband ks).badSectors = s.badSectors := rfl
@[simp] theorem unband_rowFixes (ks : List Nat) : (s.unband ks).rowFixes = s.rowFixes := rfl
@[simp] theorem unband_sram (ks : List Nat) : (s.unband ks).sram = s.sram := rfl
@[simp] theorem unband_poison (ks : List Nat) : (s.unband ks).poison = s.poison := rfl
@[simp] theorem unband_frameCtx (ks : List Nat) : (s.unband ks).frameCtx = s.frameCtx := rfl
@[simp] theorem unband_migrations (ks : List Nat) : (s.unband ks).migrations = s.migrations := rfl
@[simp] theorem unband_links (ks : List Nat) : (s.unband ks).links = s.links := rfl
@[simp] theorem unband_linkJobs (ks : List Nat) : (s.unband ks).linkJobs = s.linkJobs := rfl
@[simp] theorem unband_remotePuts (ks : List Nat) : (s.unband ks).remotePuts = s.remotePuts := rfl
@[simp] theorem unband_hostVisible (ks : List Nat) : (s.unband ks).hostVisible = s.hostVisible := rfl
@[simp] theorem unband_hostAcks (ks : List Nat) : (s.unband ks).hostAcks = s.hostAcks := rfl
@[simp] theorem unband_hostReply (ks : List Nat) : (s.unband ks).hostReply = s.hostReply := rfl
@[simp] theorem unband_portWait (ks : List Nat) : (s.unband ks).portWait = s.portWait := rfl
@[simp] theorem unband_pf (ks : List Nat) : (s.unband ks).pf = s.pf := rfl
@[simp] theorem unband_inputs (ks : List Nat) : (s.unband ks).inputs = s.inputs := rfl

/-! ### request -/

@[simp] theorem request_time (ks : List Nat) (r : Nat → Req) : (s.request ks r).time = s.time := rfl
@[simp] theorem request_nextId (ks : List Nat) (r : Nat → Req) : (s.request ks r).nextId = s.nextId := rfl
@[simp] theorem request_fresh (ks : List Nat) (r : Nat → Req) : (s.request ks r).fresh = s.fresh := rfl
@[simp] theorem request_mem (ks : List Nat) (r : Nat → Req) : (s.request ks r).mem = s.mem := rfl
@[simp] theorem request_fibres (ks : List Nat) (r : Nat → Req) : (s.request ks r).fibres = s.fibres := rfl
@[simp] theorem request_bands (ks : List Nat) (r : Nat → Req) : (s.request ks r).bands = s.bands := rfl
@[simp] theorem request_results (ks : List Nat) (r : Nat → Req) : (s.request ks r).results = s.results := rfl
@[simp] theorem request_accesses (ks : List Nat) (r : Nat → Req) : (s.request ks r).accesses = s.accesses := rfl
@[simp] theorem request_sideLog (ks : List Nat) (r : Nat → Req) : (s.request ks r).sideLog = s.sideLog := rfl
@[simp] theorem request_cores (ks : List Nat) (r : Nat → Req) : (s.request ks r).cores = s.cores := rfl
@[simp] theorem request_clusters (ks : List Nat) (r : Nat → Req) : (s.request ks r).clusters = s.clusters := rfl
@[simp] theorem request_l1 (ks : List Nat) (r : Nat → Req) : (s.request ks r).l1 = s.l1 := rfl
@[simp] theorem request_gangs (ks : List Nat) (r : Nat → Req) : (s.request ks r).gangs = s.gangs := rfl
@[simp] theorem request_launches (ks : List Nat) (r : Nat → Req) : (s.request ks r).launches = s.launches := rfl
@[simp] theorem request_reserves (ks : List Nat) (r : Nat → Req) : (s.request ks r).reserves = s.reserves := rfl
@[simp] theorem request_jobs (ks : List Nat) (r : Nat → Req) : (s.request ks r).jobs = s.jobs := rfl
@[simp] theorem request_parts (ks : List Nat) (r : Nat → Req) : (s.request ks r).parts = s.parts := rfl
@[simp] theorem request_contexts (ks : List Nat) (r : Nat → Req) : (s.request ks r).contexts = s.contexts := rfl
@[simp] theorem request_regions (ks : List Nat) (r : Nat → Req) : (s.request ks r).regions = s.regions := rfl
@[simp] theorem request_tlb (ks : List Nat) (r : Nat → Req) : (s.request ks r).tlb = s.tlb := rfl
@[simp] theorem request_walks (ks : List Nat) (r : Nat → Req) : (s.request ks r).walks = s.walks := rfl
@[simp] theorem request_tlbPick (ks : List Nat) (r : Nat → Req) : (s.request ks r).tlbPick = s.tlbPick := rfl
@[simp] theorem request_leases (ks : List Nat) (r : Nat → Req) : (s.request ks r).leases = s.leases := rfl
@[simp] theorem request_stamps (ks : List Nat) (r : Nat → Req) : (s.request ks r).stamps = s.stamps := rfl
@[simp] theorem request_sliceLast (ks : List Nat) (r : Nat → Req) : (s.request ks r).sliceLast = s.sliceLast := rfl
@[simp] theorem request_bankLast (ks : List Nat) (r : Nat → Req) : (s.request ks r).bankLast = s.bankLast := rfl
@[simp] theorem request_l2 (ks : List Nat) (r : Nat → Req) : (s.request ks r).l2 = s.l2 := rfl
@[simp] theorem request_ports (ks : List Nat) (r : Nat → Req) : (s.request ks r).ports = s.ports := rfl
@[simp] theorem request_badSectors (ks : List Nat) (r : Nat → Req) : (s.request ks r).badSectors = s.badSectors := rfl
@[simp] theorem request_rowFixes (ks : List Nat) (r : Nat → Req) : (s.request ks r).rowFixes = s.rowFixes := rfl
@[simp] theorem request_sram (ks : List Nat) (r : Nat → Req) : (s.request ks r).sram = s.sram := rfl
@[simp] theorem request_poison (ks : List Nat) (r : Nat → Req) : (s.request ks r).poison = s.poison := rfl
@[simp] theorem request_frameCtx (ks : List Nat) (r : Nat → Req) : (s.request ks r).frameCtx = s.frameCtx := rfl
@[simp] theorem request_migrations (ks : List Nat) (r : Nat → Req) : (s.request ks r).migrations = s.migrations := rfl
@[simp] theorem request_links (ks : List Nat) (r : Nat → Req) : (s.request ks r).links = s.links := rfl
@[simp] theorem request_linkJobs (ks : List Nat) (r : Nat → Req) : (s.request ks r).linkJobs = s.linkJobs := rfl
@[simp] theorem request_remotePuts (ks : List Nat) (r : Nat → Req) : (s.request ks r).remotePuts = s.remotePuts := rfl
@[simp] theorem request_hostVisible (ks : List Nat) (r : Nat → Req) : (s.request ks r).hostVisible = s.hostVisible := rfl
@[simp] theorem request_hostAcks (ks : List Nat) (r : Nat → Req) : (s.request ks r).hostAcks = s.hostAcks := rfl
@[simp] theorem request_hostReply (ks : List Nat) (r : Nat → Req) : (s.request ks r).hostReply = s.hostReply := rfl
@[simp] theorem request_portWait (ks : List Nat) (r : Nat → Req) : (s.request ks r).portWait = s.portWait := rfl
@[simp] theorem request_pf (ks : List Nat) (r : Nat → Req) : (s.request ks r).pf = s.pf := rfl
@[simp] theorem request_inputs (ks : List Nat) (r : Nat → Req) : (s.request ks r).inputs = s.inputs := rfl

@[simp] theorem addResult_nextId (r : Result) : (s.addResult r).nextId = s.nextId + 1 := rfl
@[simp] theorem addResult_results (r : Result) : (s.addResult r).results = s.results ++ [{ r with id := s.nextId }] := rfl
@[simp] theorem request_issue (ks : List Nat) (r : Nat → Req) :
    (s.request ks r).issue = { s.issue with reqs := s.issue.reqs ++ ks.map (fun k => (k, r k)) } := rfl

end Sys2Proof.Machine.State
end

