-- ==== Sys2Proof/Laws/Translate.lean ====
section
/-! SUPPORT. Sys2Proof/Laws/Translate.lean: an address whose page is cached nowhere leads where its walk leads (R233 to R237). -/
set_option Elab.async false

namespace Sys2Proof.Machine.State

/-- A page cached nowhere has the leaf that its walk finds. -/
theorem leafOf_of_walk (s : State) (c : Context) (va x y : Nat) (z : Bool) (e : TlbEntry) (hs : s.tlb = []) (hp : s.walks = [])
    (hw : s.walk c va 0 levelShifts c.root = .ok x y z e) : s.leafOf c va = .ok e := by
  simp only [leafOf, startOf, hs, hp, List.filter_nil, List.getElem?_nil, List.drop_zero, hw]

/-- A stage-1 entry whose checks pass says whether its page is a layout's. -/
theorem tensor_of_resolve (s : State) (c : Context) (e f : TlbEntry) (va hpa at' : Nat) (t : Bool) (n : Need)
    (hr : s.resolveEntry c e va n = .ok hpa at' t f) : e.tensor = t := by
  simp only [resolveEntry] at hr
  split at hr
  · cases hr
  · split at hr <;> cases hr
    rfl

/-- A byte access whose page is cached nowhere leads where its walk leads. -/
theorem find_of_walk (s : State) (c : Context) (a : Access) (e : TlbEntry) (hpa at' x y : Nat) (z : Bool)
    (ht : a.op.tensor = none) (hs : s.tlb = []) (hp : s.walks = [])
    (hw : s.walk c a.addr.toNat 0 levelShifts c.root = .ok x y z e)
    (hr : s.resolveEntry c e a.addr.toNat a.op.need = .ok hpa at' false e) :
    s.find c a = .place (.ofBytes hpa (a.op.size.getD 8) at') (some e) := by
  have hl := leafOf_of_walk s c _ x y z e hs hp hw
  have hn := tensor_of_resolve s c e e _ hpa at' false _ hr
  simp only [find, findFor, findBytes, ht, tensorPage, xlat, hl, hr, hn]
  rfl

end Sys2Proof.Machine.State
end

