-- ==== Sys2Proof/Laws/Words.lean ====
section
/-! SUPPORT. Sys2Proof/Laws/Words.lean: what each shape of word leaves before the end of its group (R22 to R26, R97). -/

set_option Elab.async false

namespace Sys2Proof.Machine

/-! ### Registers and predicates of a fibre -/

namespace Fibre

@[simp] theorem setRegN_preds (f : Fibre) (i : Nat) (v : Word) : (f.setRegN i v).preds = f.preds := rfl
@[simp] theorem setRegN_ctl (f : Fibre) (i : Nat) (v : Word) : (f.setRegN i v).ctl = f.ctl := rfl
@[simp] theorem setRegN_length (f : Fibre) (i : Nat) (v : Word) : (f.setRegN i v).regs.length = f.regs.length := by
  simp [setRegN]
theorem setRegN_same (f : Fibre) (i : Nat) (v : Word) : f.setRegN i v = { f with regs := (f.setRegN i v).regs, preds := (f.setRegN i v).preds } := rfl

/-- A register reads what was last written to it; the others read as before. -/
theorem regN_setRegN (f : Fibre) (i r : Nat) (v : Word) (h : r < f.regs.length) :
    (f.setRegN i v).regN r = if r = i then v else f.regN r := by
  by_cases e : r = i
  · subst e; simp [setRegN, regN, h]
  · simp only [setRegN, regN, if_neg e, List.getD_eq_getElem?_getD, List.getElem?_set_ne (Ne.symm e)]

@[simp] theorem setPred_regs (f : Fibre) (k : Nat) (a b : Bool) : (f.setPred k a b).regs = f.regs := rfl
@[simp] theorem setPred_ctl (f : Fibre) (k : Nat) (a b : Bool) : (f.setPred k a b).ctl = f.ctl := rfl

end Fibre

/-- Writing pair k of the predicates writes predicates 2k and 2k + 1 and leaves the others. -/
theorem setPredPair_bit (p : BitVec 12) (k n : Nat) (a b : Bool) (hn : n < 12) :
    (setPredPair p k a b).getLsbD n = if n = 2 * k then a else if n = 2 * k + 1 then b else p.getLsbD n := by
  have e3 : (3#12).getLsbD (n - 2 * k) = (decide (n - 2 * k = 0) || decide (n - 2 * k = 1)) := by
    have h : ∀ m < 12, (3#12).getLsbD m = (decide (m = 0) || decide (m = 1)) := by decide
    exact h _ (by omega)
  simp only [setPredPair, BitVec.getLsbD_or, BitVec.getLsbD_and, BitVec.getLsbD_not, BitVec.getLsbD_shiftLeft,
    BitVec.getLsbD_setWidth, BitVec.getLsbD_ofBool, hn, decide_true, Bool.true_and, e3]
  by_cases h1 : n = 2 * k
  · subst h1; simp [hn]
  · by_cases h2 : n = 2 * k + 1
    · subst h2; simp [hn]
    · simp only [if_neg h1, if_neg h2]
      by_cases h3 : n < 2 * k
      · have : n < 2 * k + 1 := by omega
        simp [h3, this]
      · have : ¬ n < 2 * k + 1 := by omega
        have a1 : n - 2 * k ≠ 0 := by omega
        have a2 : n - 2 * k ≠ 1 := by omega
        have a3 : n - (2 * k + 1) ≠ 0 := by omega
        simp [h3, this, a1, a2, a3, hn]

/-! ### The state: fibres -/

namespace State

theorem fibre_updFibres (s : State) (ks : List Nat) (f : Nat → Fibre → Fibre) (k : Nat) (h : k < s.fibres.length) :
    (s.updFibres ks f).fibre k = if k ∈ ks then f k (s.fibre k) else s.fibre k := by
  simp [fibre, updFibres, h, List.getD_eq_getElem?_getD]

theorem fibre_updFibres_beyond (s : State) (ks : List Nat) (f : Nat → Fibre → Fibre) (k : Nat) (h : s.fibres.length ≤ k) :
    (s.updFibres ks f).fibre k = s.fibre k := by
  simp [fibre, updFibres, h, List.getD_eq_getElem?_getD]

theorem updFibres_length (s : State) (ks : List Nat) (f : Nat → Fibre → Fibre) :
    (s.updFibres ks f).fibres.length = s.fibres.length := by simp

end State

/-! ### Words -/

/-- A word that traps in no lane takes its effect in the lanes whose guard is on, and then ends. -/
theorem word_of_clear {i : Instr} {h : Head} {s : State} (eff : State → List Nat → State) (hc : s.clear i) :
    word i h s eff = .next ((eff s (s.on h)).endWord h (slotsOf i)) := by
  have e : s.badLanes i = [] := by
    simp only [State.badLanes, List.filterMap_eq_nil_iff]
    intro k hk
    simp [hc k hk]
  simp only [word, e]
  rfl

/-- Updating fibres by a function that writes registers and predicates only. -/
theorem wrote_of_updFibres (s : State) (ks : List Nat) (f : Nat → Fibre → Fibre) (v : Nat → Nat → Option Word)
    (p : Nat → Nat → Option Bool) (rs : List (Nat × Req))
    (hc : ∀ k x, f k x = { x with regs := (f k x).regs, preds := (f k x).preds })
    (hw : ∀ k x, (f k x).regs.length = x.regs.length)
    (hr : ∀ k x r, r < x.regs.length → (f k x).regN r = (v k r).getD (x.regN r))
    (hp : ∀ k x n, n < 12 → (f k x).pred n = (p k n).getD (x.pred n)) :
    Wrote s { s.updFibres ks f with issue := { s.issue with reqs := s.issue.reqs ++ rs } } ks v p rs := by
  have at' : ∀ k, k < s.fibres.length → ({ s.updFibres ks f with issue := { s.issue with reqs := s.issue.reqs ++ rs } } : State).fibre k
      = if k ∈ ks then f k (s.fibre k) else s.fibre k := fun k hk => State.fibre_updFibres s ks f k hk
  have far : ∀ k, s.fibres.length ≤ k → ({ s.updFibres ks f with issue := { s.issue with reqs := s.issue.reqs ++ rs } } : State).fibre k
      = s.fibre k := fun k hk => State.fibre_updFibres_beyond s ks f k hk
  refine ⟨rfl, State.updFibres_length s ks f, fun k => ?_, fun k => ?_, fun k r hk hl => ?_, fun k n hk hn => ?_⟩
  · rcases Nat.lt_or_ge k s.fibres.length with hk | hk
    · rw [at' k hk]; split
      · exact hc k _
      · rfl
    · rw [far k hk]
  · rcases Nat.lt_or_ge k s.fibres.length with hk | hk
    · rw [at' k hk]; split
      · exact hw k _
      · rfl
    · rw [far k hk]
  · rw [at' k hk]; split
    · exact hr k _ r hl
    · rfl
  · rw [at' k hk]; split
    · exact hp k _ n hn
    · rfl

/-- A word of fixed latency that writes one register. -/
theorem alu_regWord (i : Instr) (h : Head) (d : BitVec 6) (v : Fibre → Word)
    (e : ∀ s, exec i s = alu i h s (fun r x => x.setReg d (v r))) : RegWord i h d v := by
  intro s hs
  refine ⟨_, (e s).trans (word_of_clear _ hs), ?_⟩
  have w := wrote_of_updFibres s (s.on h) (fun k x => x.setReg d (v (s.srcOf k)))
    (fun k r => if r = d.toNat then some (v (s.srcOf k)) else none) (fun _ _ => none) []
    (fun _ _ => rfl) (fun _ x => x.setRegN_length _ _)
    (fun k x r hr => by rw [Fibre.setReg, Fibre.regN_setRegN x d.toNat r _ hr]; split <;> rfl) (fun _ _ _ _ => rfl)
  rw [List.append_nil] at w
  exact w

/-- The two halves of a pair as numbers. -/
theorem lo_half (v : DWord) : v.extractLsb' 0 32 = BitVec.ofNat 32 v.toNat := by
  apply BitVec.eq_of_toNat_eq
  simp
theorem hi_half (v : DWord) : v.extractLsb' 32 32 = BitVec.ofNat 32 (v.toNat / 2 ^ 32) := by
  apply BitVec.eq_of_toNat_eq
  simp [Nat.shiftRight_eq_div_pow]

/-- A word of fixed latency that writes one pair. -/
theorem alu_pairWord (i : Instr) (h : Head) (d : BitVec 6) (v : Fibre → DWord)
    (e : ∀ s, exec i s = alu i h s (fun r x => x.setPair d (v r))) : PairWord i h d v := by
  intro s hs
  refine ⟨_, (e s).trans (word_of_clear _ hs), ?_⟩
  have w := wrote_of_updFibres s (s.on h) (fun k x => x.setPair d (v (s.srcOf k)))
    (fun k r => if r = 2 * d.toNat then some (BitVec.ofNat 32 (v (s.srcOf k)).toNat)
      else if r = 2 * d.toNat + 1 then some (BitVec.ofNat 32 ((v (s.srcOf k)).toNat / 2 ^ 32)) else none) (fun _ _ => none) []
    (fun _ _ => rfl) (fun _ x => by simp [Fibre.setPair])
    (fun k x r hr => by
      have hr' : r < (x.setRegN (2 * d.toNat) ((v (s.srcOf k)).extractLsb' 0 32)).regs.length := by simpa using hr
      rw [Fibre.setPair, Fibre.regN_setRegN _ _ r _ hr', Fibre.regN_setRegN _ _ r _ hr, lo_half, hi_half]
      by_cases h1 : r = 2 * d.toNat
      · have : r ≠ 2 * d.toNat + 1 := by omega
        simp [h1]
      · simp only [if_neg h1]; split <;> rfl) (fun _ _ _ _ => rfl)
  rw [List.append_nil] at w
  exact w

/-- A word of fixed latency that writes one predicate pair. -/
theorem alu_predWord (i : Instr) (h : Head) (p : BitVec 3) (v : Fibre → Bool)
    (e : ∀ s, exec i s = alu i h s (fun r x => x.setPredCond p (v r))) : PredWord i h p v := by
  intro s hs
  refine ⟨_, (e s).trans (word_of_clear _ hs), ?_⟩
  have w := wrote_of_updFibres s (s.on h) (fun k x => x.setPredCond p (v (s.srcOf k))) (fun _ _ => none)
    (fun k n => if n = 2 * p.toNat then some (v (s.srcOf k)) else if n = 2 * p.toNat + 1 then some (!v (s.srcOf k)) else none) []
    (fun _ _ => rfl) (fun _ _ => rfl) (fun _ _ _ _ => rfl)
    (fun k x n hn => by
      show (setPredPair x.preds p.toNat _ _).getLsbD n = _
      rw [setPredPair_bit _ _ _ _ _ hn]
      split
      · rfl
      · split <;> rfl)
  rw [List.append_nil] at w
  exact w

/-- A floating-point word of the ALU pipe. -/
theorem aluFlags_floatWord (i : Instr) (h : Head) (d : BitVec 6) (v : Fibre → Nat × Flags)
    (e : ∀ s, exec i s = aluFlags i h s v d) : FloatWord i h d v := by
  intro s hs
  refine ⟨_, (e s).trans (word_of_clear _ hs), ?_⟩
  exact wrote_of_updFibres s (s.on h) (fun k x => x.setReg d (BitVec.ofNat 32 (v (s.srcOf k)).1))
    (fun k r => if r = d.toNat then some (BitVec.ofNat 32 (v (s.srcOf k)).1) else none) (fun _ _ => none) _
    (fun _ _ => rfl) (fun _ x => x.setRegN_length _ _)
    (fun k x r hr => by rw [Fibre.setReg, Fibre.regN_setRegN x d.toNat r _ hr]; split <;> rfl) (fun _ _ _ _ => rfl)

/-! ### Results and accesses under way -/

/-- Results added one by one are the list of them. -/
theorem foldl_addResult (s : State) (ks : List Nat) (r : Nat → Result) :
    ks.foldl (fun s k => s.addResult (r k)) s = { s with
      nextId := s.nextId + ks.length
      results := s.results ++ (List.range ks.length).map (fun j => { r (ks.getD j 0) with id := s.nextId + j }) } := by
  induction ks generalizing s with
  | nil => simp
  | cons k t ih =>
    rw [List.foldl_cons, ih]
    simp [State.addResult, State.bump, List.range_succ_eq_map, Function.comp_def, Nat.add_comm, Nat.add_left_comm]

theorem sendResults_eq (s : State) (xu : Bool) (ks : List Nat)
    (g : Nat → List (Nat × Word) × List (Nat × Bool × Bool) × Flags) :
    s.sendResults xu ks g = { s with
      nextId := s.nextId + ks.length
      results := s.results ++ (List.range ks.length).map (fun j =>
        let k := ks.getD j 0
        { id := s.nextId + j, fibre := k, pc := s.wordPc, xu := xu, mem := false, writes := (g k).1, preds := (g k).2.1
          flags := (g k).2.2, trap := none, batch := s.nextId, lanes := ks }) } := by
  have inv : ∀ (qs : List Nat) (u : State), u.issue = s.issue →
      qs.foldl (fun u k => u.addResult { id := 0, fibre := k, pc := u.wordPc, xu := xu, mem := false, writes := (g k).1
                                         preds := (g k).2.1, flags := (g k).2.2, trap := none, batch := s.nextId, lanes := ks }) u
      = qs.foldl (fun u k => u.addResult { id := 0, fibre := k, pc := s.wordPc, xu := xu, mem := false, writes := (g k).1
                                           preds := (g k).2.1, flags := (g k).2.2, trap := none, batch := s.nextId, lanes := ks }) u := by
    intro qs
    induction qs with
    | nil => intro u _; rfl
    | cons k t ih =>
      intro u hu
      have e1 : u.wordPc = s.wordPc := by simp [State.wordPc, hu]
      simp only [List.foldl_cons, e1]
      exact ih _ hu
  simp only [State.sendResults, inv _ _ rfl, foldl_addResult]

/-- A word whose result comes later. -/
theorem later_sendWord (i : Instr) (h : Head) (xu : Bool) (r : Fibre → List (Nat × Word) × List (Nat × Bool × Bool) × Flags)
    (e : ∀ s, exec i s = later i h s xu r) : SendWord i h xu r := by
  intro s hs
  refine ⟨_, (e s).trans (word_of_clear _ hs), ?_⟩
  rw [sendResults_eq]
  simp only [Sent, List.append_nil]

/-- Results sent are under way, and requests made after them are made. -/
theorem sendResults_sent (s : State) (ks : List Nat) (g : Nat → List (Nat × Word) × List (Nat × Bool × Bool) × Flags)
    (qs : List Nat) (q : Nat → Req) :
    Sent s ((s.sendResults false ks g).request qs q) ks false g (qs.map (fun k => (k, q k))) := by
  rw [sendResults_eq]
  rfl

theorem sendResults_sent_only (s : State) (ks : List Nat) (g : Nat → List (Nat × Word) × List (Nat × Bool × Bool) × Flags) :
    Sent s (s.sendResults false ks g) ks false g [] := by
  rw [sendResults_eq]
  simp [Sent]

theorem post_eq (s : State) (i : Instr) (ks : List Nat) (g : Fibre → Post) :
    s.post i ks g = { s with
      nextId := s.nextId + ks.length
      accesses := s.accesses ++ (List.range ks.length).map (fun j =>
        let k := ks.getD j 0
        let f := s.srcOf k
        { id := s.nextId + j, batch := s.nextId, fibre := k, gang := f.gang, core := s.issue.core, pc := s.wordPc
          word := (encode i).headD 0, dst := (g f).dst, addr := (g f).addr, op := (g f).op, policy := (g f).policy
          budget := f.ctl.budget.toNat, arrived := none, phase := .issued, released := false, sys := f.ctl.v }) } := by
  have inv : ∀ (ks : List Nat) (u : State) (b : Nat), u.issue = s.issue →
      ks.foldl (fun s k =>
        let f := s.srcOf k
        let p := g f
        let a : Access :=
          { id := s.nextId, batch := b, fibre := k, gang := f.gang, core := s.issue.core, pc := s.wordPc
            word := (encode i).headD 0, dst := p.dst, addr := p.addr, op := p.op, policy := p.policy
            budget := f.ctl.budget.toNat, arrived := none, phase := .issued, released := false, sys := f.ctl.v }
        ({ s with accesses := s.accesses ++ [a] } : State).bump) u
      = { u with
        nextId := u.nextId + ks.length
        accesses := u.accesses ++ (List.range ks.length).map (fun j =>
          let k := ks.getD j 0
          let f := s.srcOf k
          { id := u.nextId + j, batch := b, fibre := k, gang := f.gang, core := s.issue.core, pc := s.wordPc
            word := (encode i).headD 0, dst := (g f).dst, addr := (g f).addr, op := (g f).op, policy := (g f).policy
            budget := f.ctl.budget.toNat, arrived := none, phase := .issued, released := false, sys := f.ctl.v }) } := by
    intro ks
    induction ks with
    | nil => intro u b _; simp
    | cons k t ih =>
      intro u b hu
      have e1 : u.wordPc = s.wordPc := by simp [State.wordPc, hu]
      have e2 : u.srcOf k = s.srcOf k := by simp [State.srcOf, hu]
      rw [List.foldl_cons, ih _ _ (by exact hu)]
      simp [State.bump, e1, e2, hu, List.range_succ_eq_map, Function.comp_def, Nat.add_comm, Nat.add_left_comm]
  exact inv ks s s.nextId rfl

/-- Accesses posted are under way, and requests made after them are made. -/
theorem post_posted (s : State) (i : Instr) (ks : List Nat) (g : Fibre → Post) (qs : List Nat) (q : Nat → Req) :
    Posted s ((s.post i ks g).request qs q) i ks g (qs.map (fun k => (k, q k))) := by
  rw [post_eq]
  rfl

/-- A word whose effect is one access a lane. -/
theorem posts_postWord (i : Instr) (h : Head) (g : Fibre → Post) (e : ∀ s, exec i s = posts i h s g) : PostWord i h g := by
  intro s hs
  refine ⟨_, (e s).trans (word_of_clear _ hs), ?_⟩
  rw [post_eq]
  simp [Posted]

/-- A word whose effect is one request a lane. -/
theorem request_askWord (i : Instr) (h : Head) (r : State → Nat → Req)
    (e : ∀ s, exec i s = word i h s (fun s ks => s.request ks (r s))) : AskWord i h r :=
  fun s hs => (e s).trans (word_of_clear _ hs)

end Sys2Proof.Machine
end

