-- ==== Sys2Proof/Tests/Slice0.lean ====
section
/-! SUPPORT. Sys2Proof/Tests/Slice0.lean: ill-formed terms that the check refuses; words printed in the manual and what they
decode to; worked examples of the manual; and, for each statement with hypotheses, states that meet them. -/
set_option Elab.async false
set_option maxRecDepth 20000

namespace Sys2Proof.Tests

open Sys2Proof Sys2Proof.Machine

/-! ### Ill-formed terms -/

/-- An unguarded head: C 0, S 0, G 12. -/
def hd : Head := ⟨false, false, 12⟩

/-- One ill-formed term for each check: reserved guard (R12), literal of LDT (R30), condition and predicate pair (R28), pair field
past 31 and odd even-pair (R19), Q of a load, a store and an atomic (R30), VOTE mode and pair, RED operation, FENCE kind and scope,
CVT equal and odd pair types, CARVE 0, privileged index and event of nothing (R31). -/
theorem test_ill_formed_terms : ∀ i ∈ [Instr.nop ⟨false, false, 13⟩, .ldt hd 0 3 2 0 64, .stt hd 0 3 2 0 0xFFFFFFFF,
    .icmpS hd 6 0 1 2, .icmpN hd 0 6 1 2, .fcmp hd 7 7 1 2, .ladd hd 32 0 0, .ladd hd 0 32 0, .lshl hd 0 63 0, .lcmpS hd 0 0 32 0,
    .dcmp hd 6 6 0 0, .ldw hd 3 1 2 0 none, .stw hd 1 1 2 0 none, .atomf hd 4 1 2 0 none, .ldd hd 0 32 2 0 none,
    .ldq hd 0 3 2 0 none, .stq hd 0 33 2 0 none, .cas hd 32 2 0 none, .casd hd 1 2 0 none, .brx hd 32, .vote hd 1 2 3,
    .vote hd 33 2 2, .red hd 1 2 11, .scan hd 1 2 15 0, .fence hd 0 3 0, .fence hd 0 0 5, .layadv hd 1 32 0,
    .cvt hd 1 2 0 0, .cvt hd 33 2 0 5, .carve hd 0], i.wf = false := by decide +kernel

/-! ### Words of the manual -/

/-- The word of a T- or X-format opcode with D 3, A 1, B 2, as R101 lays it out, written from the fields. -/
theorem test_decode_integer : decodeAt [0x30003042] = .ok (.iadd hd 3 1 2) ∧ decodeAt [0x3100C105] = .ok (.iaddi hd 3 1 5) ∧
    decodeAt [0x31B0C1FD] = .ok (.imuli hd 3 1 0xFD) ∧ decodeAt [0x31A0C1F8] = .ok (.laddi hd 3 1 0xF8) ∧
    decodeAt [0x317A81FF] = .ok (.icmpiS hd 5 2 1 0xFF) ∧ decodeAt [0x30511042] = .ok (.icmpS hd 2 1 1 2) ∧
    decodeAt [0x30891042] = .ok (.lcmpS hd 2 1 1 2) ∧ decodeAt [0x30A83042] = .ok (.lea8 hd 3 1 2) := by decide +kernel

theorem test_decode_float : decodeAt [0x30BC3042] = .ok (.fnmac hd 3 1 2) ∧ decodeAt [0x30C91042] = .ok (.fcmp hd 2 1 1 2) ∧
    decodeAt [0x30F43042] = .ok (.dfmac hd 3 1 2) ∧ decodeAt [0x33A83040] = .ok (.fexp2 hd 3 1) := by decide +kernel

theorem test_decode_moves : decodeAt [0x33C03060] = .ok (.cvt hd 3 1 4 0) ∧ decodeAt [0x33C03065] = .ok (.cvt hd 3 1 4 5) ∧
    decodeAt [0x306480C0] = .ok (.mov hd 8 3) ∧ decodeAt [0x319140FD] = .ok (.movi hd 5 0xFD) ∧
    decodeAt [0x33344000, 0x40200000] = .ok (.movl hd 4 0x40200000) ∧ decodeAt [0x332C3001] = .ok (.rds hd 3 1) ∧
    decodeAt [0x3330000D] = .ok (.wrs hd 0 0x0D) := by decide +kernel

theorem test_decode_memory : decodeAt [0xB2202454, 0x40] = .ok (.ldw ⟨true, false, 12⟩ 0 9 2 2 (some 0x40)) ∧
    decodeAt [0x32600C44, 8] = .ok (.ldt hd 0 3 2 0 8) ∧ decodeAt [0x326C0C44, 8] = .ok (.stt hd 4 3 2 0 8) := by decide +kernel

theorem test_decode_control : decodeAt [0x33080140] = .ok (.brx hd 5) ∧ decodeAt [0x331827C5] = .ok (.fork hd 2 31 5) ∧
    decodeAt [0x33D40007] = .ok (.carve hd 7) ∧ decodeAt [0x33280000] = .ok (.rett hd) := by decide +kernel

/-- What R33 refuses: a reserved opcode, a reserved guard, a nonzero must-be-zero field, a literal owner in slot 2. -/
theorem test_illegal_words : decodeAt [0x30FC3042] = .error .reservedOpcode ∧ decodeAt [0x34003042] = .error .reservedGuard ∧
    decodeAt [0x30583041] = .error .mustBeZero ∧ decodeAt [0x33344000] = .error .literalSlot2 ∧
    decodeAt [0x33D40000] = .error .subcode := by decide +kernel

/-! ### A small state: one fibre of one gang, its group in progress -/

/-- A fibre with 64 registers: w2 points at its own scratch, g6 holds an E4M3 descriptor, the others 0. -/
def guest (h v : Bool) : Fibre :=
  { gang := 0, idx := 0, wg := 0, live := true, used := true
    regs := [0, 0, 0, 0, 0, 0xFE000000, 0x78E80] ++ List.replicate 57 0, preds := 0
    ctl := { Ctl.created 0 0 0 0 with h := h, v := v, saving := v } }

/-- Its gang: forkable, 256 bytes of scratch, one accumulator bank, a handler. -/
def band0 : Gang :=
  { State.guestGang .reset with scratch := 256, accum := 1, forkable := true, handler := 0x1200, signCount := 1
                                banks := [List.replicate 4096 0], bankBusy := [0], signs := [SignReg.zero] }

/-- A group of that fibre at slot 0 of packet 0, with these words, in a tenant program or a handler. -/
def busy (h v : Bool) (ws : List Word) : State :=
  { State.reset with
    nextId := 10, fibres := [guest h v], gangs := [band0], contexts := [State.guestContext .reset], launches := [State.guestLaunch .reset]
    bands := [{ bid := 1, gang := 0, crew := 0, members := [0], park := .none }]
    issue := { Issue.idle with lanes := [0], words := ws, src := [(0, guest h v)] } }

/-- The channel ports let an event go. -/
def served (i : Instr) (s : State) : Bool :=
  match exec i s with
  | .refused (.portBusy _) => false
  | _ => true
theorem served_iff (i : Instr) (s : State) (h : served i s = true) : s.portsServe i := by
  intro n e
  simp [served, e] at h

/-! ### The words trap in no lane there (the hypotheses of the completion statements) -/

theorem hyp_words_clear : ∀ i ∈ [Instr.iadd hd 3 1 2, .isub hd 3 1 2, .imul hd 3 1 2, .imulhS hd 3 1 2, .imulhN hd 3 1 2, .imac hd 3 1 2,
    .iminS hd 3 1 2, .iminN hd 3 1 2, .imaxS hd 3 1 2, .imaxN hd 63 63 63, .and hd 3 1 2, .or hd 3 1 2, .xor hd 3 1 2, .andn hd 3 1 2,
    .shl hd 3 1 2, .shr hd 3 1 2, .sar hd 3 1 2, .rol hd 3 1 2, .bfx hd 3 1 2, .bfi hd 3 1 2, .popc hd 3 1, .clz hd 3 1, .brev hd 3 1,
    .icmpS hd 5 5 1 2, .icmpN hd 0 0 1 2, .mov hd 8 3, .ladd hd 31 31 31, .lsub hd 3 1 2, .lmul hd 3 1 2, .lmulhS hd 3 1 2,
    .lmulhN hd 3 1 2, .lshl hd 3 1 63, .lshr hd 3 1 2, .lsar hd 3 1 2, .lcmpS hd 2 1 1 2, .lcmpN hd 2 1 1 2, .land hd 3 1 2,
    .lor hd 3 1 2, .lxor hd 3 1 2, .lea1 hd 3 1 2, .lea2 hd 3 1 2, .lea4 hd 3 1 2, .lea8 hd 3 1 2, .iaddi hd 3 1 0x80, .andi hd 3 1 0xF0,
    .ori hd 3 1 0x80, .xori hd 3 1 0xFF, .shli hd 3 1 4, .shri hd 3 1 31, .sari hd 3 1 8, .icmpiS hd 5 2 1 0xFF, .icmpiN hd 2 1 1 0xC8,
    .movi hd 5 0xFD, .laddi hd 3 1 0xF8, .imuli hd 3 1 0xFD, .movl hd 4 0x40200000] , (busy false false [0, 0, 0]).clear i := by unfold State.clear; decide +kernel

theorem hyp_float_clear : ∀ i ∈ [Instr.fadd hd 3 1 2, .fsub hd 3 1 2, .fmul hd 3 1 2, .fmac hd 3 1 2, .fnmac hd 3 1 2, .fmin hd 3 1 2,
    .fmax hd 3 1 2, .fcmp hd 7 5 1 2, .fneg hd 3 1, .fabs hd 3 1, .hadd2 hd 3 1 2, .hmul2 hd 3 1 2, .hfmac2 hd 3 1 2, .badd2 hd 3 1 2,
    .bmul2 hd 3 1 2, .bfmac2 hd 3 1 2, .dadd hd 3 1 2, .dmul hd 3 1 2, .dfmac hd 3 1 2, .dcmp hd 2 1 1 2, .idivS hd 3 1 2, .idivN hd 3 1 2,
    .iremS hd 3 1 2, .iremN hd 3 1 2, .fdiv hd 3 1 2, .fsqrt hd 3 1, .frcp hd 3 1, .frsq hd 3 1, .fexp2 hd 3 1, .flog2 hd 3 1,
    .fsinp hd 3 1, .fcosp hd 3 1, .ddiv hd 3 1 2, .dsqrt hd 3 1, .cvt hd 3 1 0 1, .cvt hd 31 31 5 6, .narrow hd 3 1 6, .widen hd 3 1 6,
    .fclass hd 3 1], (busy false false [0, 0, 0]).clear i := by unfold State.clear; decide +kernel

theorem hyp_memory_clear : ∀ i ∈ [Instr.ldb hd 0 3 2 0 (some 255), .ldbs hd 1 3 2 0 none, .ldh hd 2 3 2 0 none, .ldhs hd 0 3 2 1 none,
    .ldw hd 0 3 2 2 (some 252), .ldd hd 0 3 2 0 none, .ldq hd 0 2 2 0 none, .stb hd 3 3 2 0 none, .sth hd 4 3 2 0 none,
    .stw hd 5 3 2 0 none, .std hd 0 3 2 0 none, .stq hd 0 30 2 0 none, .ldt hd 2 3 2 0 63, .stt hd 5 3 2 0 8, .atom hd 7 3 2 0 none,
    .atomn hd 0 3 2 0 none, .atomd hd 0 3 2 0 none, .atomdn hd 0 3 2 0 none, .atomf hd 2 3 2 0 none, .atomfn hd 0 3 2 0 none,
    .xchg hd 3 2 0 none, .cas hd 3 2 0 none, .casd hd 2 2 0 none, .tagr hd 3 2 0 none, .tags hd 3 2 0 none, .pref hd 2 0 (some 3),
    .bari hd 2 1, .barv hd 3 2, .barw hd 3 2 4, .fence hd 1 2 4, .layq hd 3 1, .layadv hd 3 1 2, .laypin hd 3 1 2, .layacq hd 1,
    .layrel hd 1, .sign hd 0, .marm hd 2 1 3, .cpyq hd 1, .tgpost hd 3 1, .lnkq hd 1, .icinv hd 4], (busy false false [0, 0, 0]).clear i := by unfold State.clear; decide +kernel

theorem hyp_control_clear : (∀ i ∈ [Instr.bra hd 3, .brx hd 5, .ret hd, .endF hd, .yield hd, .trap hd 0xFFF, .nop hd, .call hd 5,
      .loop hd 7 0xFFD, .endJ hd 2, .fork hd 2 0 1, .fork hd 2 31 5, .shfl hd 5 3 63, .bcast hd 5 127, .vote hd 31 5 2, .matchL hd 31 5,
      .red hd 5 1 10, .scan hd 5 1 10 1, .rds hd 3 1, .wrs hd 0 29], (busy false false [0, 0, 0]).clear i) ∧
    (busy true false [0, 0, 0]).clear (.rett hd) ∧
    ∀ i ∈ [Instr.carve hd 7, .tlbinv hd 1 2, .rdfs hd 3 1 2, .wrfs hd 3 1 2, .saved hd, .rds hd 3 32], (busy true true [0, 0, 0]).clear i := by
  unfold State.clear; decide +kernel

/-! ### States that meet the hypotheses of the other statements -/

theorem hyp_encoding : (Instr.casd hd 30 31 3 (some 0xFFFFFFFF)).isWord = true ∧ (Instr.casd hd 30 31 3 (some 0xFFFFFFFF)).wf = true ∧
    decodeAt [0x33344000, 0x40200000] = .ok (.movl hd 4 0x40200000) ∧ 12 < (0x34003042 : Word).toNat / 2 ^ 26 % 16 := by decide +kernel

theorem hyp_step : (busy false false [0x33200000, 0, 0]).issue.lanes ≠ [] ∧
    decodeAt ((busy false false [0x33200000, 0, 0]).issue.words.drop (busy false false [0x33200000, 0, 0]).issue.slot) = .ok (.nop hd) ∧
    decodeTableWord 32 0x33200000 = some (.nop hd) ∧ (busy false false [0x33200000, 0, 0]).breakTrap = none ∧
    (busy false false [0x33200000, 0, 0]).groupBad = [] := by decide +kernel

theorem hyp_invariant : State.reset.Inv ∧ ∃ t, step State.reset = .next t := ⟨by unfold State.Inv; decide, _, rfl⟩

/-- WordsLeaveMemory and WordsLeaveOtherRegisters. -/
theorem hyp_frames : (Instr.iadd hd 3 1 2).isWord = true ∧ (Instr.iadd hd 3 1 2).head? = some hd ∧
    (∃ t, exec (.iadd hd 3 1 2) (busy false false [0x30003042, 0, 0]) = .next t) ∧
    (∀ k ∈ (busy false false [0x30003042, 0, 0]).issue.lanes, ((busy false false [0x30003042, 0, 0]).fibre k).ctl.after = .next) ∧
    (∀ r ∈ (busy false false [0x30003042, 0, 0]).issue.reqs, ∀ pc to', r.2 ≠ .rett pc to') ∧
    0 ∈ (busy false false [0x30003042, 0, 0]).on hd ∧ 4 ∉ (Instr.iadd hd 3 1 2).dests ∧ (Instr.iadd hd 3 1 2).predDests = [] :=
  ⟨by decide, by decide, ⟨_, rfl⟩, by decide, fun r hr => (List.not_mem_nil hr).elim, by decide, by decide, by decide⟩

/-- The classes of operands of SpecialValuesOfArithmetic: quiet and signalling NaN, infinities of both signs, zero, one, minus one. -/
theorem hyp_special_values : (unpack .f32 0x7FC00000).isNan = true ∧ (unpack .f32 0x7F800001).isSnan = true ∧
    unpack .f32 0x7F800000 = .inf false ∧ unpack .f32 0xFF800000 = .inf (!false) ∧ unpack .f32 0 = .fin false 0 (-149) ∧
    unpack .f32 0x3F800000 = .fin false (0x7FFFFF + 1) (-23) ∧ unpack .f32 0xBF800000 = .fin true (0x7FFFFF + 1) (-23) := by decide +kernel

/-- RoundingIsNearest: 2^24 + 1 is a tie and rounds to 2^24, inexact (R60). -/
theorem hyp_rounding : unpack .f32 (roundTo .f32 .rne false 16777217 0 false).1 = .fin false 0x800000 1 ∧
    (roundTo .f32 .rne false 16777217 0 false).2.getLsbD 4 = true := by decide +kernel

theorem hyp_reductions : (List.replicate 64 (0xFFFFFFFF : Word)).length = 64 := by decide +kernel

/-- SystemWordsComplete: one lane, whose selector names itself, or core 0 of its gang with bit 31. -/
theorem hyp_system_words : (busy true true [0, 0, 0]).on hd = [0] ∧
    (busy true true [0, 0, 0]).saveTarget ((busy true true [0, 0, 0]).srcOf 0).gang (((busy true true [0, 0, 0]).srcOf 0).reg 1) = some (.fib 0) ∧
    (busy true true [0, 0, 0]).saveTarget ((busy true true [0, 0, 0]).srcOf 0).gang 0x80000000 = some (.core 0) := by decide +kernel

/-- IssueTrapsNamed: a privileged word in a tenant program; register 63 beyond a window of 16; an own-scratch address past the gang's
256 bytes, and one inside that is misaligned. -/
theorem hyp_issue_traps : (Instr.saved hd).head? = some hd ∧ (Instr.saved hd).isPrivileged = true ∧ (Instr.saved hd).wf = true ∧
    ((busy false false [0, 0, 0]).srcOf 0).ctl.saving = false ∧ ((busy false false [0, 0, 0]).srcOf 0).guard hd.g = true ∧
    ((busy false false [0, 0, 0]).srcOf 0).ctl.v = false ∧ ((busy true true [0, 0, 0]).srcOf 0).ctl.v = true ∧
    63 ∈ (Instr.mov hd 63 1).regsNamed ∧ ({ guest false false with regs := List.replicate 16 0 } : Fibre).regs.length ≤ 63 ∧
    (busy false false [0, 0, 0]).lateCause (.mov hd 63 1) (guest false false) true = none ∧
    (∀ r ∈ (Instr.ldw hd 0 3 2 0 (some 1)).regsNamed, r < (guest false false).regs.length) ∧
    (busy false false [0, 0, 0]).scratchOf (guest false false) (memAddr (guest false false) 2 (some 255)) = .ok (some (scratchKey 0 255)) ∧
    (memAddr (guest false false) 2 (some 255)).toNat % 4 ≠ 0 ∧
    (busy false false [0, 0, 0]).scratchOf (guest false false) (memAddr (guest false false) 2 (some 256)) = .error 1 := by decide +kernel

/-- TrapEntry, BandTakesTrap, TrapReturns: a fibre in no handler, one in a tenant handler, one in a system handler, with and without
a tenant handler, and a trap of each kind. -/
theorem hyp_traps : (guest false false).ctl.v = false ∧ (guest true false).ctl.h = true ∧ (guest true true).ctl.v = true ∧
    ((busy false false [0, 0, 0]).handlers 0).tenant ≠ 0 ∧ (State.reset.handlers 0).tenant = 0 ∧
    (∀ x ∈ [(0, ({ cls := 6, cause := 5, pc := 0, addr := 5, flags := 0 } : Trap), (0 : DWord))], x.1 < (busy false false [0, 0, 0]).fibres.length) ∧
    ((busy true true [0, 0, 0]).fibre 0).gang = 0 ∧ ((busy true true [0, 0, 0]).gang 0).isSome = true ∧
    ((busy true true [0, 0, 0]).context 0).isSome = true ∧ (guest true true).ctl.shadow.regs.length = 8 ∧
    8 ≤ (guest true true).regs.length := by decide +kernel

/-- GroupEndAdvances: the middle of a packet with C 1, and the last word of a group; MarkerParksBand with a result under way. -/
theorem hyp_group_end : let s := busy false false [0, 0, 0]
    s.issue.lanes ≠ [] ∧ s.issue.slot + 1 < 3 ∧ s.gang s.issue.gang = some band0 ∧ s.issue.marker = false ∧ s.issue.reqs = [] ∧
    (∀ k ∈ s.issue.lanes, k < s.fibres.length ∧ (s.fibre k).ctl.after = .next) ∧
    (∃ k ∈ s.issue.lanes, (s.addResult { id := 0, fibre := 0, pc := 0, xu := true, mem := false, writes := [], preds := [], flags := 0, trap := none }).outstanding k = true) := by decide +kernel

/-- LoneFibreEnds: END and TRAP in a tenant program, RETT in its handler, with the gang resident and %TRESUME at the code base. -/
theorem hyp_lone : (busy false false [0, 0, 0]).Lone hd 0 band0 ∧ (busy true false [0, 0, 0]).Lone hd 0 band0 ∧ band0.handler ≠ 0 ∧
    band0.codeBase.toNat ≤ (guest true false).ctl.tresume.toNat ∧ band0.phase = .resident ∧
    ((guest true false).ctl.tresume.toNat - band0.codeBase.toNat) % 4 = 0 := by unfold State.Lone; decide +kernel

/-! ### A module in use: partition 0 owns everything, its device memory mapped one to one -/

/-- Partition 0: enabled, a share of 1,000 W, one range entry for guest addresses below 2^40, pool and save areas. -/
def owner : Part :=
  { Part.initial with
    enabled := true, mshare := 1000, ranges := ⟨0, 0x10000000000, 0, 0xF⟩ :: List.replicate 47 .zero
    saveBase := 0x100000, saveSize := 0x100000, saveBlk := 0x1000, syscode := 0x200000, sysEntry := 1, saveEntry := 2, restoreEntry := 3
    evAllow := 1, evTrap := 4 }

/-- Tables at 0x10000, 0x12000 and 0x14000: a 64 MiB leaf that maps virtual addresses from 0 to guest addresses from 0. -/
def tables : Memory := (((⟨[], []⟩ : Memory).write 0x10000 8 0x12001).write 0x12000 8 0x14001).write 0x14000 8 0x723

def ctx0 : Context := { State.guestContext .reset with root := 0x10000 }

/-- A line of memory that its slice holds whole and clean. -/
def heldLine (a : Nat) : L2Line :=
  { line := a / 64, slice := 0, valid := List.replicate 64 true, dirty := List.replicate 64 false, retain := false }

/-- READY, every slot, slice, link and cluster with partition 0; the slices hold the lines that the events below use. -/
def up : State :=
  { State.reset with
    time := 1000000, nextId := 10, mem := tables, fibres := [guest false false], gangs := [band0], contexts := [ctx0]
    launches := [State.guestLaunch .reset], parts := owner :: List.replicate 15 .initial
    bands := [{ bid := 1, gang := 0, crew := 0, members := [0], park := .none }]
    l2 := [0, 0x10000, 0x12000, 0x14000, 0x20000, 0x30000, 0x30040, 0x31000, 0x38000, 0x39000, 0x3A000, 0x40000, 0x50000, 0x60000,
      0x70000, 0x100000, 0x10FFC0, 0x4000000, 0x4000040, 0x4000080, 0x40000C0].map heldLine
    pf := { Pf.initial with
      ready := true, step := 5, netmap := List.replicate 64 0x10, netLive := List.replicate 64 0x10, bridgemap := List.replicate 64 0x10
      bridgeLive := List.replicate 64 0x10, sgown := List.replicate 16 0x80, linkown := List.replicate 16 0x80
      clown := List.replicate 48 0x80 } }

/-- ObservationEventsComplete: a core of partition 0, an event its maps allow, one that traps and one that does neither, a value of
each limit, and a sample that is due. -/
theorem hyp_observation : up.pf.ready = true ∧ up.clusterOwner (191 / 4) = some 0 ∧ (191 : Nat) < up.cores.length ∧ (up.part 0).evAllow.getLsbD 0 = true ∧
    (up.part 0).evAllow.getLsbD 255 = false ∧ (up.part 0).evTrap.getLsbD 255 = false ∧ (0xFFFFFF01 : DWord).toNat < 2 ^ 32 ∧
    (0xFFFFFF01 : DWord).toNat / 4 % 64 = 0 ∧
    (let s := up.updCore 0 (fun c => { c with trctl := 0x10002, sinceSample := 256 })
     (s.core 0).trctl.getLsbD 1 = true ∧ (s.core 0).trctl.toNat / 256 % 2 ^ 24 ≤ (s.core 0).sinceSample) := by decide +kernel

/-- RegisterWritesComplete: maps committed and due, limits at 600 and 1,800 W, a share that fits, a partition of each kind. -/
theorem hyp_registers :
    (let base : DWord := 0x10000
     let limit : DWord := 0x20000
     base.toNat % 65536 = 0 ∧ limit.toNat % 65536 = 0 ∧ base.toNat < limit.toNat ∧ (0xF : DWord).toNat < 64 ∧ (0xF : DWord).toNat / 16 ≠ 3 ∧
        up.inPartition 0 ((base + 0).toNat % 2 ^ 52) (limit.toNat - base.toNat) = true ∧ ¬ limit.toNat < limit.toNat) ∧
    (let s := { up with pf := { up.pf with commit := true, commitAt := State.pealRound up.time } }
     s.pf.commit = true ∧ s.pf.commitAt ≤ State.pealRound s.time ∧
      ∀ p < 16, (s.part p).enabled = true → s.slotsOk p s.pf.netmap s.pf.bridgemap = true) ∧
    up.sharesOk 1150 = true ∧ up.sharesOk 1800 = true ∧ up.sharesOk 1149 = false ∧
    (up.updPart 15 (fun x => { x with mshare := 4095 })).sharesOk up.pf.mplim = true ∧
    (up.updPart 0 (fun x => { x with mshare := 1650 })).sharesOk up.pf.mplim = true ∧
    (up.updPart 0 (fun x => { x with mshare := 4095 })).sharesOk up.pf.mplim = false ∧
    ({ up with pf := { up.pf with sgown := List.replicate 16 0 } } : State).inPartition 0 0 0x10000000000 = false ∧
    up.slotsOk 0 up.pf.netLive up.pf.bridgeLive = true ∧ (up.updPart 0 (fun x => { x with enabled := true })).sharesOk up.pf.mplim = true ∧
    (up.part 15).enabled = false ∧ (4097 : DWord).toNat % 4096 ≠ 0 ∧ (up.part 0).enabled = true := by decide +kernel

/-- BandEventsComplete, first part: a band in the system handler that may fetch; one parked at a marker; one after YIELD. -/
theorem hyp_bands : (let s := { up with fibres := [guest true true] }
      let b : Band := { bid := 1, gang := 0, crew := 0, members := [0], park := .none }
      s.band 1 = some b ∧ s.gang 0 = some band0 ∧ band0.phase = .resident ∧ s.holdsIssue b = false ∧ s.bandCopy b = none ∧
      (s.fibre 0).ctl.v = true ∧ s.bandCore b < s.cores.length ∧ s.coreTurns 0 (s.bandCore b) (List.range 12) = true ∧
      served (.instructionFetch 1) s = true ∧ ∀ k ∈ List.range 12, s.lostAt k = none) ∧
    up.outstanding 0 = false ∧ (up.fibre 0).ctl.after = .next ∧ (up.fibre 0).ctl.due = [] ∧ 0 ≤ up.cycle 0 := by decide +kernel

/-- BandEventsComplete: the packet of a tenant band whose page is mapped for execution; a band after YIELD whose 64 cycles have run
out, and one whose other bands are gone. -/
theorem hyp_fetch : let b : Band := { bid := 1, gang := 0, crew := 0, members := [0], park := .none }
    (match up.packetKeys b with
      | .ok (ks, t) => ks == List.range 12 && !t && ks.all (fun k => up.lostAt k == none) && up.coreTurns 0 0 ks
      | .error _ => false) = true ∧ served (.instructionFetch 1) up = true ∧
    (0 ≤ up.cycle (up.bandCore b) ∧ ∀ y ∈ up.bands, y.bid ∉ [2]) := by decide +kernel

/-- BandEventsComplete, second part: two fibres of one crew parked at meetings of different packets, in tenant programs with a handler. -/
theorem hyp_mismatch : let s := ({ up with
      fibres := [guest false false, { guest false false with idx := 1, ctl := Ctl.created 12 0 0 0 }]
      bands := [{ bid := 1, gang := 0, crew := 0, members := [0], park := .meeting },
        { bid := 2, gang := 0, crew := 0, members := [1], park := .meeting }] } : State).updCore 0 (fun c => { c with
      fetch := [⟨0, false, 0, [0, 0, 0]⟩, ⟨0, false, 12, [0, 0, 0]⟩] })
    s.crewMeetings 0 0 = some [(0, 0), (1, 12)] ∧ ((0, 0) : Nat × DWord).2 ≠ ((1, 12) : Nat × DWord).2 ∧ s.mismatch 0 0 = true ∧
      ∀ k ∈ [0, 1], s.outstanding k = false ∧ (s.fibre k).ctl.due = [] ∧ (s.fibre k).ctl.pendTrap = false ∧ (s.fibre k).ctl.v = false ∧
        (s.fibre k).ctl.h = false ∧ (s.handlers 0).tenant ≠ 0 := by decide +kernel

/-- PlacesReadAndWrite: the empty memory, at its lowest byte and across two words. -/
theorem hyp_places : (⟨[], []⟩ : Memory).wf = true ∧ 0 < 8 ∧ tables.wf = true := by decide +kernel

/-- A store of fibre 0 to its own scratch, or to an address of the context. -/
def access0 (addr : DWord) (op : AOp) : Access :=
  { id := 5, batch := 5, fibre := 0, gang := 0, core := 0, pc := 0, word := 0, dst := 3, addr := addr, op := op, policy := 0
    budget := 0x1000000, arrived := none, phase := .issued, released := false }

/-- PlacedAccessesComplete at a bank: a plain store to the last bytes of own scratch; a consuming load of a word that is empty; an
address past the gang's scratch. -/
theorem hyp_bank : (∀ a ∈ [access0 0xFE000000000000F8 (.store 8 .plain 7), access0 0xFE000000000000F8 (.load 8 false .consuming),
        access0 0xFE00000000000100 (.store 8 .plain 7)],
      let s := { up with accesses := [a], mem := { tables with empty := [scratchKey 0 0xF8 / 8] } }
      s.access 5 = some a ∧ s.gang a.gang = some band0 ∧ s.context band0.ctx = some ctx0 ∧ s.ready a = true ∧ a.arrived = none ∧
      s.groupOf a = [a] ∧ s.sram = [] ∧ served (.bankAccess 5) s = true ∧ served (.homeRequest 5) s = true ∧ a.inScratch = true ∧ a.op ≠ .cpyq ∧ a.op ≠ .lnkq ∧ s.inBudget { a with arrived := some s.time } = true ∧
      s.bankLast.getD 0 (0, 0) = (0, 0) ∧ a.op.size = some 8) ∧
    (let s := { up with mem := { tables with empty := [scratchKey 0 0xF8 / 8] } }
     s.scratchOf (s.fibre 0) 0xFE000000000000F8 = .ok (some (scratchKey 0 0xF8)) ∧
     s.scratchOf (s.fibre 0) 0xFE00000000000100 = .error 1 ∧ (Loc.ofBytes (scratchKey 0 0xF8) 8 0).scratch = true ∧
     (AOp.store 8 .plain 7).ready s.mem (Loc.ofBytes (scratchKey 0 0xF8) 8 0) = true ∧
     (AOp.load 8 false .consuming).ready s.mem (Loc.ofBytes (scratchKey 0 0xF8) 8 0) = false) := by decide +kernel

/-- PlacedAccessesComplete at a home: a store to address 0x20000 finds its place; one to a tensor page traps. -/
theorem hyp_home_place : ({ up with accesses := [access0 0x20000 (.store 8 .plain 7)] } : State).find ctx0
    (access0 0x20000 (.store 8 .plain 7)) = .place (Loc.ofBytes 0x20000 8 0) (some ⟨0, 0, 0, 0, 0x4000000, 0, 7, 0, false⟩) :=
  State.find_of_walk _ ctx0 (access0 0x20000 (.store 8 .plain 7)) ⟨0, 0, 0, 0, 0x4000000, 0, 7, 0, false⟩ 0x20000 0 0 0 false
    (by decide) (by decide) (by decide) (by decide) (by decide)

theorem hyp_home_trap : ({ up with mem := tables.write 0x14000 8 0xF23 } : State).find ctx0 (access0 0x20000 (.store 8 .plain 7)) =
    .trap 0x13 0 0x20000 := by rfl

/-- And its slice may take it in its turn. -/
theorem hyp_home : let a := access0 0x20000 (.store 8 .plain 7)
    let s := { up with accesses := [a] }
    let l := Loc.ofBytes 0x20000 8 0
    band0.det = false ∧ a.op.size.isSome = true ∧ a.inScratch = false ∧ s.sideLog = [] ∧ s.hitsL1 a = false ∧ l.elem = none ∧
    l.scratch = false ∧ s.coreTurnAt 0 a.core (s.sliceOf 0 l) = true ∧ a.op.needsData = false ∧ a.op.storeClass = true ∧
    served (.homeRequest 5) s = true ∧ s.lossCause a l = none ∧ s.inBudget { a with arrived := some s.time } = true ∧ a.op.ready s.mem l = true ∧ s.ready a = true ∧
    s.groupOf a = [a] := by decide +kernel

/-- Nobody waits where every access is issued. -/
theorem hyp_calm : ∀ a ∈ [access0 0xFE000000000000F8 (.store 8 .plain 7), access0 0x20000 (.store 8 .plain 7)],
    ({ up with accesses := [a] } : State).calm := by
  intro a ha
  simp only [List.mem_cons, List.not_mem_nil, or_false] at ha
  rcases ha with rfl | rfl <;> exact State.calm_of_all (by decide)

/-- AccessEventsComplete, waits and acknowledgements: a waiting load of an empty word refused by its slice; a store performed at 7; a
line of L1 whose lease has run out; a filling store whose fibre has nothing before it; a fence; a waiting load out of its budget. -/
theorem hyp_access_events :
    (let a := { access0 0x20000 (.load 8 false .waiting) with phase := .refused, loc := some (Loc.ofBytes 0x20000 8 0), arrived := some 1000000 }
     let s := { up with accesses := [a], mem := { tables with empty := [0x4000] } }
     (Loc.ofBytes 0x20000 8 0).scratch = false ∧ s.access 5 = some a ∧ s.isDet a.gang = false ∧ s.lossCause a (Loc.ofBytes 0x20000 8 0) = none ∧
       s.inBudget a = true ∧ a.op.ready s.mem (Loc.ofBytes 0x20000 8 0) = false ∧ s.missing (State.placeKeys (Loc.ofBytes 0x20000 8 0)) = none ∧
       served (.waitRepresent 5) s = true ∧ served (.waitRepresent 5) { s with mem := tables } = true ∧
       s.onChip (s.sliceOf (s.partOf a.gang) (Loc.ofBytes 0x20000 8 0)) < 8 ∧
       s.coreTurnAt (s.partOf a.gang) a.core (s.sliceOf (s.partOf a.gang) (Loc.ofBytes 0x20000 8 0)) = true) ∧
    (let a := { access0 0x20000 (.store 8 .plain 7) with phase := .performed 7 }
     let s := { up with accesses := [a] }
     s.access 5 = some a ∧ s.owns 0 a = true ∧ (s.fibre 0).live = true) ∧
    (let x : L1Line := ⟨0, 0x800, 0, [], [], 1000000⟩
     x ∈ ({ up with l1 := [x] } : State).l1 ∧ x.expiry ≤ up.time) ∧
    (let a := access0 0x20000 (.store 8 .filling 7)
     let s := { up with accesses := [a] }
     a.released = false ∧ s.mayPresent a = true ∧ s.releaseMet a = true ∧ served (.releaseConditionMet 5) s = true) ∧
    (let a := access0 0 (.fence true 2 4)
     ({ up with accesses := [a] } : State).fenceMet a true 2 4 = some 0 ∧ served (.releaseConditionMet 5) { up with accesses := [a] } = true) ∧
    (let a := { access0 0x20000 (.load 8 false .consuming) with arrived := some 0, budget := 1000000, phase := .waiting 0 false }
     a.op.waits = true ∧ a.budget ≠ 0 ∧ 0 + a.budget ≤ up.time ∧ a.unperformed = true ∧ served (.feTimeout 5) { up with accesses := [a] } = true) := by decide +kernel

/-- SIDE_LOG_REPLAY: an answered store whose page is mapped, one whose page is not, one that has become a tensor page; and a result of
the XU pipe. -/
theorem hyp_replay :
    (let e : LogEntry := { acc := access0 0x20000 (.store 8 .plain 7), ctx := 0, asid := 0, answered := true }
     let s := { up with sideLog := [e] }
     let b := { e.acc with phase := .issued, released := true }
     s.sideLog.find? (fun x => x.acc.id == e.acc.id) = some e ∧ s.logTurn e = true ∧ s.context e.ctx = some ctx0 ∧
       s.isDet b.gang = false ∧ s.coreTurnAt 0 b.core (s.sliceOf 0 (Loc.ofBytes 0x20000 8 0)) = true ∧
       s.lineFirst b (Loc.ofBytes 0x20000 8 0) = none ∧
       served (.sideLogReplay 5) s = true ∧ s.logGroup e = [e] ∧ s.roundHolds b = false ∧ s.lossCause b (Loc.ofBytes 0x20000 8 0) = none ∧ b.op.logs = true) ∧
    (up.find ctx0 (access0 0x20000 (.store 8 .plain 7)) matches .place _ _) = true ∧
    (up.find ctx0 (access0 0x4000000 (.store 8 .plain 7)) matches .fault 0 _ _) = true ∧
    (({ up with mem := tables.write 0x14000 8 0xF23 } : State).find ctx0 (access0 0x20000 (.store 8 .plain 7)) matches .trap 0x13 0 _) = true ∧
    (let r : Result :=
       { id := 7, fibre := 0, pc := 0, xu := true, mem := false, writes := [(3, 1)], preds := [], flags := 1, trap := none, batch := 7, lanes := [0] }
     let s := { up with results := [r] }
     s.results.find? (fun x => x.id == r.id) = some r ∧ served (.variableResultReturn 7) s = true ∧
       ∀ x ∈ s.results, x.xu = true → x.batch < r.batch → ∀ k ∈ x.lanes, k ∉ r.lanes) := by decide +kernel

/-- FAULT_ANSWER: no such context, no such request, a mapped and a failed one. -/
theorem hyp_fault_answer : up.serving 0 = true ∧
    up.contexts.find? (fun c => c.part == 0 && c.live && c.ctxidWord == (5 : DWord).extractLsb' 0 32) = none ∧
    up.contexts.find? (fun c => c.part == 0 && c.live && c.ctxidWord == (0 : DWord).extractLsb' 0 32) = some ctx0 ∧
    (let c := { ctx0 with requests := [⟨3, 2, 0⟩] }
     let s := { up with contexts := [c] }
     served (.faultAnswer 0 0x300000000 0 0) s = true ∧ served (.faultAnswer 0 0x300000000 1 0) s = true ∧
       served (.faultAnswer 0 5 0 0) up = true ∧ served (.faultAnswer 0 0x100000000 0 0) up = true ∧
     s.contexts.find? (fun c => c.part == 0 && c.live && c.ctxidWord == (0x300000000 : DWord).extractLsb' 0 32) = some c ∧
       ⟨3, 2, 0⟩ ∈ c.requests ∧ (0x300000000 : DWord).toNat / 2 ^ 32 = 3) ∧ ∀ w ∈ (up.part 0).swaps, w.stallRange = none := by decide +kernel

/-- A node of partition 0. -/
def node0 (kind : Nat) (phase : NodePhase) : Node :=
  { kind := kind, prio := 5, tag := 0, payload := 0x30000, caddr := 0, succ := [], cq := false, queue := none, ctx := 0, phase := phase
    readyAt := 0, waitSince := 0, aged := 0, ctime := 0, det := 0 }
/-- The module with that node at number n. -/
def withNode (n : Nat) (d : Node) : State := up.setNode 0 n d

/-- NodeEventsComplete, queues: the highest index of a ring of 16 that is on, one past it, and a ring that is off with sizes 4 and 15. -/
theorem hyp_queues : State.reset.pf.ready = false ∧ (0 : Nat) < State.reset.parts.length ∧ up.pf.ready = true ∧
    (let s := up.setQueue 0 7 { Queue.zero with size := 0x80000404 }
     (s.queueOf 0 7).size.getLsbD 31 = true ∧ (15 : DWord).toNat < 2 ^ ((s.queueOf 0 7).size.toNat % 16) ∧
       ¬ (16 : DWord).toNat < 2 ^ ((s.queueOf 0 7).size.toNat % 16) ∧ (0x404 : DWord).getLsbD 31 = false) ∧
    (up.queueOf 0 0).size.getLsbD 31 = false ∧ (0x80000F04 : DWord) = BitVec.ofNat 64 (4 + 256 * 15 + 2 ^ 31) ∧
    (up.gpKeys 0 (up.queueOf 0 0).base.toNat 1 64).isSome = true ∧
    (let s := (up.setQueue 0 0 { Queue.zero with size := 0x80000404, base := 0x40000, ctx := 0x50000, sqtail := 1 })
     s.serving 0 = true ∧ (s.queueOf 0 0).sqhead ≠ (s.queueOf 0 0).sqtail ∧ (s.gpRead 0 0x40000 64).isSome = true ∧
       (s.gpRead 0 0x50000 32).isSome = true) := by decide +kernel

/-- NODE_POST: a record of zeros at SQHEAD and a context record at 0x50000 that names context 0; with a counter of 0, and of 1. -/
theorem hyp_node_post :
    let s := { up.setQueue 0 0 { Queue.zero with size := 0x80000404, base := 0x40000, ctx := 0x50000, sqtail := 1 } with
      mem := (tables.write 0x50014 4 4).write 0x40002 1 0 }
    served (.nodePost 0 0) s = true ∧ s.serving 0 = true ∧ (s.queueOf 0 0).size.getLsbD 31 = true ∧ s.gpRead 0 0x40000 64 = some (List.replicate 64 0) ∧
      s.gpRead 0 0x50000 32 = some (List.replicate 20 0 ++ [4] ++ List.replicate 11 0) ∧
      (s.openContext 0 (List.replicate 20 0 ++ [4] ++ List.replicate 11 0)).isSome = true ∧ (nodeRec (List.replicate 64 0)).bad = false ∧
      s.node 0 (nodeRec (List.replicate 64 0)).id = none ∧ s.liveContext 0 = true ∧
      (nodeRec ([0, 0, 1] ++ List.replicate 61 0)).deps = 1 ∧ (nodeRec ([0, 0, 1] ++ List.replicate 61 0)).bad = false := by decide +kernel

/-- A copy card: 16 bytes from 0x38000 to 0x39000. -/
def card0 : List Byte :=
  bytesOfNat 8 0x800 ++ bytesOfNat 8 0x38000 ++ bytesOfNat 8 0x39000 ++ bytesOfNat 4 0xF0000000 ++ bytesOfNat 4 0xF0000000
    ++ bytesOfNat 4 16 ++ [1, 0, 1, 0, 1, 0, 1, 0] ++ List.replicate 84 0

/-- Ready nodes of kinds 1, 6 and 15, and a launch node that has waited its millisecond. -/
theorem hyp_nodes :
    (let s := { withNode 4095 (node0 1 .ready) with mem := tables.writeBytes 0x30000 card0 }
     served (.nodeCopy 0 4095) s = true ∧ s.nodeReady 0 4095 (node0 1 .ready) ∧ (node0 1 .ready).payload.toNat % 128 = 0 ∧ (node0 1 .ready).payload.toNat / 2 ^ 56 = 0 ∧
       (s.frontRead 0 0x30000 128).toOption = some card0 ∧ s.ccardBad none 0 0 card0 = false ∧
       (s.copyData none 0 0 card0).1.meets (s.copyData none 0 0 card0).2 = false ∧ s.leastLoaded 0 = some 0 ∧ s.copyLoad 0 < 32) ∧
    served (.nodeMarker 0 0) (withNode 0 (node0 6 .ready)) = true ∧ served (.nodeReservedKind 0 0) (withNode 0 (node0 15 .ready)) = true ∧
    (withNode 0 (node0 6 .ready)).nodeReady 0 0 (node0 6 .ready) ∧ (withNode 0 (node0 15 .ready)).nodeReady 0 0 (node0 15 .ready) ∧
    (let d := node0 0 .dispatched
     (withNode 3 d).node 0 3 = some d ∧ d.waitSince + 1000000 * (d.aged + 1) ≤ up.time ∧ d.prio + d.aged < 255) := by
  unfold State.nodeReady; decide +kernel

/-- NODE_COMPLETE: a node that ended with and without a status address, with one successor, and a launch whose one gang is done. -/
theorem hyp_node_complete :
    (let d := { node0 6 (.ended 6 9) with succ := [7] }
     let s := withNode 3 d
     s.node 0 3 = some d ∧ d.ctime ≤ s.time ∧ d.cq = false ∧ s.hostSeen 0 3 = true ∧ served (.nodeComplete 0 3) s = true ∧ (7 : Nat) ≠ 3) ∧
    (let d := { node0 6 (.ended 0 9) with caddr := 0x30008 }
     let s := withNode 3 d
     served (.nodeComplete 0 3) s = true ∧ s.liveContext d.ctx = true ∧ (s.forceFill 0 d.ctx d.caddr.toNat 32).isOk = true) ∧
    (let l := { State.guestLaunch .reset with next := 1, node := 3 }
     let s := { withNode 3 (node0 0 .dispatched) with launches := [l], fibres := [] }
     s.launches.find? (fun x => x.part == 0 && x.node == 3) = some l ∧ s.launchDone l = true ∧ l.ctime ≤ s.time ∧
       s.hostSeen 0 3 = true ∧ served (.nodeComplete 0 3) s = true) := by decide +kernel

/-- A launch of two gangs, one of them waiting, with its node dispatched. -/
def launch0 : Launch :=
  { State.guestLaunch .reset with
    id := 2, node := 3, gangCount := 2, next := 0, proto := { band0 with id := 0, launch := 2, phase := .waiting, forkable := false } }
def launching : State := { withNode 3 (node0 0 .dispatched) with launches := [launch0], fibres := [], gangs := [] }

/-- LaunchesPlaceGangs: a launch record at an address that is no multiple of 16; a gang that waits; a saved gang that waits. -/
theorem hyp_launches :
    (let d := { node0 0 .ready with payload := 0x30008 }
     (withNode 3 d).nodeReady 0 3 d ∧ ((withNode 3 d).readLaunch 0 3 d matches .error) = true ∧
       served (.nodeLaunch 0 3) (withNode 3 d) = true) ∧
    (launching.serving 0 = true ∧ (match launching.nextPlacement 0 with
      | some (w, k, b) => w.gang.phase == .waiting && k == 0 && b == 0
      | none => false) = true) ∧
    (let g := { band0 with id := 4, launch := 2, phase := .saved, saveBlock := some 0, savedLive := [0] }
     let s := { launching with launches := [{ launch0 with next := 1 }], gangs := [g], fibres := [{ guest false false with gang := 4, live := false }] }
     s.gang 4 = some g ∧ (match s.nextPlacement 0 with
       | some (w, k, b) => w.gang == g && k == 0 && b == 0
       | none => false) = true ∧ (s.fibre 0).gang = 4 ∧ g.savedLive.contains (s.fibre 0).idx = true ∧
       (let s' := { s with fibres := [] }
        (match s'.nextPlacement 0 with
          | some (w, k, b) => w.gang == g && k == 0 && b == 0
          | none => false) = true ∧ s'.liveOf 4 = [])) := by
  unfold State.nodeReady; decide +kernel

/-- PreemptionTakesVictims: every cluster holds a gang of priority 0 with all the scratch of its core, and a launch of priority 200
waits; a victim that issues no more; one that has drained, with and without a live fibre. -/
theorem hyp_preemption :
    (let small : Part → Part := fun p => { p with saveSize := 0x2000 }
     let big : Gang → Gang := fun g => { g with size := 4, scratch := 262144 }
     let l := { launch0 with proto := big launch0.proto }
     let g := { big band0 with launch := 1, scratchBase := [0, 0, 0, 0] }
     let s := ({ withNode 3 { node0 0 .dispatched with prio := 200 } with launches := [l], gangs := [g] } : State).updPart 0 small
     let t := { s with pf := { s.pf with clown := 0x80 :: List.replicate 47 0 } }
     t.serving 0 = true ∧ (match t.decision 0 with
       | some (w, v) => w.node == 3 && v.map (·.id) == [0] && decide (v.length ≤ (t.freeBlocks 0 v.length).length)
       | none => false) = true) ∧
    (let g := { band0 with phase := .preempting, saveBlock := some 1 }
     let s := { up with gangs := [g], issue := { Issue.idle with gang := 9 } }
     s.gang 0 = some g ∧ s.issueStopped g = true) ∧
    (let g := { band0 with phase := .draining, saveBlock := some 1 }
     let s := { up with gangs := [g], issue := { Issue.idle with gang := 9 } }
     s.gang 0 = some g ∧ s.drained g = true ∧ s.liveOf 0 = [0] ∧ (s.fibre 0).ctl.v = false ∧
       ({ s with fibres := [] } : State).liveOf 0 = [] ∧ ({ s with fibres := [] } : State).drained g = true) := by decide +kernel

/-- CoreAndRoundEventsComplete: a pending scratch size that fits; a deque of one entry and a free slot; a deque of another core of the
gang; a round of a deterministic gang whose cores have had their turn; a finished gang of a deterministic launch with one staged store. -/
theorem hyp_core_events :
    (let s := up.updCore 0 (fun c => { c with pendCarve := some 1 })
     (s.core 0).pendCarve = some 1 ∧ ∀ x ∈ State.onCore ((s.occupying (4096, 0)).filter (fun y => y.phase != .saved)) 0,
       x.1.scratch = 0 ∨ x.1.scratchBase.getD x.2 0 + x.1.scratch ≤ 65536 * 1) ∧
    (let s := { up.updCore 0 (fun c => { c with dq := [⟨12, 7, 8⟩], dqCount := 1 }) with
       fibres := [guest false false, { guest false false with idx := 1, live := false, used := false }] }
     s.forkGang 0 = some (band0, 0) ∧ (s.core 0).dqCount ≠ 0 ∧ s.freeSlot band0 0 = some 1 ∧ 4 ≤ band0.regs) ∧
    (let g := { band0 with size := 2, scratchBase := [0, 0] }
     let s := { up.updCore 1 (fun c => { c with dq := [⟨12, 7, 8⟩], dqCount := 1 }) with
       gangs := [g], fibres := [{ guest false false with live := false, used := false }] }
     s.forkGang 0 = some (g, 0) ∧ g.det = false ∧ (s.core 0).dqCount = 0 ∧ s.freeSlot g 0 = some 0 ∧
       (let others := ((List.range g.size).map g.core).filter (fun x => x != 0)
        (others.filter (fun x : Nat => decide ((s.core 0).stole < x)) ++ others.filter (fun x : Nat => decide (x ≤ (s.core 0).stole))).find?
          (fun x => (s.core x).dqCount != 0) = some 1)) ∧
    (let g := { band0 with det := true, turns := [0] }
     let s := { up with gangs := [g], issue := { Issue.idle with gang := 9 } }
     s.gang 0 = some g ∧ g.phase = .resident ∧ s.roundEnded g = true) ∧
    (let g := { band0 with det := true, forkable := false, staged := [⟨0x20000, .store 8 .plain 7, [], [], 0, 0⟩] }
     let l := { State.guestLaunch .reset with det := true }
     let s := { up with gangs := [g], launches := [l], fibres := [] }
     s.launches.find? (fun x => x.part == 0 && x.node == 0) = some l ∧ l.error = 0 ∧ s.nextRelease l = some g ∧ g.stagedPosts = [] ∧
       s.migrations = [] ∧ served (.carillonRelease 0 0) s = true ∧ ∀ e ∈ g.staged, s.stagedElem g.ctx e = none ∧ s.stagedLoc g.ctx e ≠ none) := by decide +kernel

/-- Tables whose second 64 MiB are tensor pages, and a descriptor of 16 words of f32 there. -/
def tensorTables : Memory := tables.write 0x14008 8 0x4000F23
def desc0 : List Byte :=
  bytesOfNat 8 1 ++ bytesOfNat 8 0x200000 ++ bytesOfNat 4 0x30000000 ++ bytesOfNat 4 16 ++ ([1, 1, 1, 1].map (bytesOfNat 4)).flatten
    ++ bytesOfNat 8 0x4000000 ++ List.replicate 16 0
def region0 : Region := (tensorDesc desc0).region 20 0 0 0 1

/-- RegionEventsComplete: a sound descriptor with its pages mapped; a region that may be destroyed; one with a notice waiting, one whose
window is full, and one with a move under way whose tile is reachable. -/
theorem hyp_regions :
    (let s := { withNode 3 (node0 4 .ready) with mem := tensorTables.writeBytes 0x30000 desc0 }
     served (.regionCreate 0 3) s = true ∧ s.nodeReady 0 3 (node0 4 .ready) ∧ (s.frontRead 0 0x30000 64).toOption = some desc0 ∧ s.context 0 = some ctx0 ∧
       s.freeRegionIndex 0 = some 0 ∧ (tensorDesc desc0).bad = false ∧ (tensorDesc (desc0.set 0 9)).bad = false ∧
       (tensorDesc (desc0.set 0 9)).policy = 1 ∧ s.sideOk 0 (tensorDesc (desc0.set 0 9)) = true ∧ s.sideOk 0 (tensorDesc desc0) = true ∧
       s.tensorPages ctx0 0x4000000 0x200000 = true ∧
       (s.rangeFrames region0 0 (0x200000 / 65536)).toOption = some ((List.range 32).map (fun i => 0x4000000 + 65536 * i))) ∧
    (let d := { node0 5 .ready with payload := region0.handle }
     let s := { withNode 3 d with regions := [region0], mem := tensorTables }
     s.nodeReady 0 3 d ∧ s.regionOf 0 d.payload = some region0 ∧ region0.pooled = false ∧ served (.regionDestroy 0 3) s = true) ∧
    (let r := { region0 with notices := [(0, [5])] }
     ({ up with regions := [r] } : State).region 20 = some r ∧ r.wcount < r.window) ∧
    (let r := { region0 with wcount := region0.window }
     r.window ≤ r.wcount) ∧
    (let r := { region0 with target := some region0.cur, state := .moving }
     let s := { up with regions := [r], mem := tensorTables }
     s.region 20 = some r ∧ s.driftFault r region0.cur 0 = none ∧ served (.driftTile 20) s = true ∧ (r.pooled = true → r.frames ≠ [])) := by
  unfold State.nodeReady; decide +kernel

/-- A matrix job of gang 0 with a card, and a gang with 64 KiB of scratch. -/
def bandM : Gang := { band0 with scratch := 65536 }
def mjob (card : List Byte) (phase : JobPhase) : Job :=
  { id := 6, kind := .matrix, cluster := 0, part := 0, ctx := 0, gang := some 0, node := none, fibre := some 0, wg := 0, prio := 5
    card := card, phase := phase, pos := 0, fetched := 0, stalled := false, sat := 0, flags := 0, error := 0, ctime := 0, since := 0
    raised := none }
/-- An MMA of one group of K over two bf16 tiles at 0 and 0x1000 of own scratch; a DRAIN and a PRIME of bank 0 at 0. -/
def mmaCard : List Byte := bytesOfNat 8 (2 ^ 28) ++ bytesOfNat 8 0xFE00000000000000 ++ bytesOfNat 8 0xFE00000000001000 ++ List.replicate 40 0
def bankCard (op : Nat) : List Byte := bytesOfNat 8 op ++ bytesOfNat 8 0xFE00000000000000 ++ List.replicate 48 0
def tileHead : List Byte := bytesOfNat 4 0x20000000 ++ [64, 0, 16, 0]
def withJob (j : Job) : State :=
  { up with gangs := [bandM], jobs := [j], mem := (tables.writeBytes (scratchKey 0 0) tileHead).writeBytes (scratchKey 0 0x1000) tileHead }

/-- MatrixGrantsComplete: each operation granted with nothing wrong; an MMA whose tile header breaks a rule, and one with a lost word in its
tile; a DRAIN with lines to write. -/
theorem hyp_matrix : (∀ c ∈ [mmaCard, bankCard 1, bankCard 2], let s := withJob (mjob c .queued)
      s.job 6 = some (mjob c .queued) ∧ s.gang 0 = some bandM ∧ (s.granted 0).map (·.id) = some 6 ∧ s.jobCheck (mjob c .queued) = 0) ∧
    (mcard mmaCard).op = 0 ∧ (mcard (bankCard 1)).op = 1 ∧ (mcard (bankCard 2)).op = 2 ∧
    (withJob (mjob (bankCard 1) .queued)).cardScratch (some 0) 0 (mcard (bankCard 1)).a 16384 = some (scratchKey 0 0) ∧
    (let s := { withJob (mjob mmaCard .queued) with mem := tables }
     (s.granted 0).map (·.id) = some 6 ∧ s.jobCheck (mjob mmaCard .queued) = 1) ∧
    (let s := { withJob (mjob mmaCard .queued) with sram := [.scratch (scratchKey 0 32 / 8)] }
     (s.granted 0).map (·.id) = some 6 ∧ s.jobCheck (mjob mmaCard .queued) = 0 ∧ s.passLost (mjob mmaCard .queued) = true) ∧
    (withJob (mjob mmaCard .queued)).passLost (mjob mmaCard .queued) = false ∧
    (let j := { mjob (bankCard 1) .running with pos := 1, stream := [[(0, 7)], [(16, 8)]] }
     State.draining j = true ∧ (withJob j).job 6 = some j ∧ (withJob j).gang 0 = some bandM ∧ (withJob j).accesses = [] ∧
       (withJob j).cardScratch j.gang j.wg (mcard j.card).a 16384 = some (scratchKey 0 0)) := by decide +kernel

/-- EngineEventsComplete: a counted command, one that has waited past 4,096 cycles, a streamed pass with room ahead of it, a copy job that
is first, a job whose work is done, and completions with no action, a global status word, and a barrier in scratch. -/
theorem hyp_engines :
    (let j := mjob mmaCard .counted
     let s := withJob j
     s.job 6 = some j ∧ s.gang 0 = some bandM ∧ bandM.phase = .resident ∧ (s.entries .matrix 0).length < 32 ∧
       ∀ x ∈ s.jobs, x.kind = .matrix → x.gang = j.gang → x.phase = .counted → j.id ≤ x.id) ∧
    (let j := mjob (bankCard 1) .queued
     let s := (withJob j).updCluster 0 (fun c => { c with cycle := 4097 })
     j.raised = none ∧ j.since + 4096 < (s.cluster j.cluster).cycle ∧ s.eligible j = true) := by decide +kernel

theorem hyp_stream : (let r := { region0 with dims := 2, extents := [1, 1, 1, 1, 1], scores := [0, 0], cur := ⟨[0, 1], [0, 1], [0, 0]⟩ }
     let c := bytesOfNat 8 (2 ^ 28 + 256) ++ bytesOfNat 8 0xFE00000000000000 ++ bytesOfNat 8 r.handle.toNat ++ List.replicate 40 0
     let j := mjob c .queued
     let s := { withJob j with
       regions := [r], mem := (tensorTables.writeBytes (scratchKey 0 0) tileHead).writeBytes (scratchKey 0 0x1000) tileHead }
     s.job 6 = some j ∧ served (.streamFetchReturn 6) s = true ∧ (mcard c).bs = true ∧ j ∈ s.entries .matrix 0 ∧ j.fetched < s.passes j ∧ s.edgesClear j = true ∧ s.jobCheck j = 0 ∧
       s.streamRegion j = some r ∧ s.streamFault j 0 = none ∧ (∀ k ∈ s.streamKeys j 0, s.lostKey k = false) ∧
       s.engineTurn j.part j.cluster 5 (s.streamKeys j 0) = true ∧ ({ s with regions := [] } : State).streamRegion j = none ∧ served (.streamFetchReturn 6) { s with regions := [] } = true ∧
       (let u := { s with l2 := up.l2.take 17, badSectors := [((s.streamKeys j 0).headD 0 / 32, 2)] }
        u.streamFault j 0 = none ∧ served (.streamFetchReturn 6) u = true ∧ ∃ k ∈ u.streamKeys j 0, u.lostKey k = true) ∧
       (let u := { s with mem := (tables.writeBytes (scratchKey 0 0) tileHead).writeBytes (scratchKey 0 0x1000) tileHead }
        u.streamRegion j = some r ∧ u.jobCheck j = 0 ∧ (u.streamFault j 0).map (·.1) = some 0 ∧ served (.streamFetchReturn 6) u = true ∧ ctx0.requests = [])) := by decide +kernel

theorem hyp_copies :
    (let j := { mjob card0 .queued with kind := .copy }
     let s := { withJob j with gangs := [band0] }
     (State.firstRank ((s.entries .copy 0).filter (fun x => x.phase == .queued && s.edgesClear x))).map (·.id) = some 6 ∧
       ((s.entries .copy 0).filter (fun x => x.phase == .running)).length < 4 ∧ (s.cluster 0).present = true) ∧
    (let j := { mjob (bankCard 1) .running with pos := 1 }
     let s := withJob j
     s.job 6 = some j ∧ s.jobDone j = true ∧ j.error = 0 ∧ s.bankFree j ≤ (s.cluster j.cluster).cycle) ∧
    (let j := { mjob (card0.set 0 4) .running with kind := .copy, pos := 17 }
     let s := { withJob j with gangs := [band0] }
     (ccard j.card).dt = true ∧ s.job 6 = some j ∧ s.jobDone j = true ∧ s.accesses = []) ∧
    (let j := { mjob card0 .queued with kind := .copy, error := 6 }
     (withJob j).jobDone j = true) := by decide +kernel

theorem hyp_completions :
    (let j := mjob (bankCard 1) .complete
     let s := withJob j
     s.job 6 = some j ∧ j.ctime ≤ s.time ∧ j.stalled = false ∧ j.node = none ∧ s.context j.ctx = some ctx0 ∧ ctx0.live = true ∧
       (mcard j.card).action = 0 ∧ served (.completionAction 6) s = true) ∧
    (let c := bytesOfNat 8 (512 + 1) ++ bytesOfNat 8 0xFE00000000000000 ++ List.replicate 40 0 ++ bytesOfNat 8 0x20000
     let j := mjob c .complete
     let s := withJob j
     (mcard c).action = 1 ∧ served (.completionAction 6) s = true ∧ (match s.sideLoc j (mcard c).comp (0, 0) 64 .write with
       | .ok l => l.keys == (List.range 8).map (fun i => 0x20000 + i) && s.engineTurn 0 0 5 l.keys
       | .error _ => false) = true ∧ s.migrations = [] ∧ s.isDet 0 = false) ∧
    (let c := bytesOfNat 8 (1024 + 1) ++ bytesOfNat 8 0xFE00000000000000 ++ List.replicate 40 0 ++ bytesOfNat 8 0xFE00000000008000
     let j := mjob c .complete
     let s := withJob j
     (mcard c).action = 2 ∧ served (.completionAction 6) s = true ∧ (s.sideLoc j (mcard c).comp (0, 0) 64 .write).isOk = true) := by decide +kernel

/-- A model of one layer, whose one region is region0: table at 0x60000, region list at 0x70000. -/
def model0 (on : Bool) : ModelRec := { ModelRec.zero with table := 0x60000, layers := 1, enabled := on }
def withModel (on : Bool) : State :=
  { up.updPart 0 (fun p => { p with
      models := model0 on :: List.replicate 63 .zero, poolBase := 0x10000000, poolFree := [0, 1], layers := [⟨0, 0, [], 0, false, [3]⟩] }) with
    regions := [region0]
    mem := (((tables.write 0x60010 8 0x70000).write 0x60018 2 1).write 0x70000 8 region0.handle.toNat).write 0x70010 4 0x30000000 }

/-- ModelEventsComplete, records: a model that is off and can be enabled, one that cannot, one that is on, with and without a hold. -/
theorem hyp_models : up.pf.ready = true ∧
    ((withModel false).modelRec 0 0).enabled = false ∧ (withModel false).modelCtx 0 0 = some ctx0 ∧ (withModel false).enableOk 0 0 = true ∧
    served (.modelEnable 0 0) (withModel false) = true ∧ served (.modelEnable 0 63) up = true ∧ served (.modelDisable 0 0) (withModel true) = true ∧
    served (.modelDisable 0 0) { withModel true with mem := (withModel true).mem.write 0x60008 4 1 } = true ∧
    (let w : Swap := { id := 8, model := 0, layer := 0, nodes := [], stage := 0, frames := [], ctime := 0, cause := 0 }
     served (.modelDisable 0 0) ((withModel true).updPart 0 (fun p => { p with swaps := [w] })) = true) ∧
    up.enableOk 0 63 = false ∧ (up.modelRec 0 63).enabled = false ∧ ((withModel true).modelRec 0 0).enabled = true ∧
    (63 : Nat) < (up.part 0).models.length ∧ (∀ w ∈ ((withModel true).part 0).swaps, w.model ≠ 0) ∧
    (∀ l < ((withModel true).modelRec 0 0).layers, (withModel true).holdCount 0 0 l = 0) ∧
    (∃ l < ((withModel true).modelRec 0 0).layers,
      ({ withModel true with mem := (withModel true).mem.write 0x60008 4 1 } : State).holdCount 0 0 l ≠ 0) := by decide +kernel

/-- ModelEventsComplete, swaps: nodes of each kind and layer state, a swap-in that may take its frames, one that is written, one that
failed, and an evicted layer that nothing uses. -/
theorem hyp_swaps :
    (let d := node0 2 .ready
     let s := ({ withModel true with mem := (withModel true).mem.setFull (0x60000 / 8) false } : State).setNode 0 3 d
     s.nodeReady 0 3 d ∧ (s.frontRead 0 0x30000 16).toOption = some (List.replicate 16 0) ∧ s.refValid 0 0 0 = true ∧
       State.swapRec (List.replicate 16 0) = some (0, false) ∧ State.swapRec (List.replicate 8 0 ++ [1] ++ List.replicate 7 0) = some (0, true) ∧
       s.resident 0 0 0 = false ∧ (s.residency 0 0 0).getLsbD 40 = false ∧ (withModel true).resident 0 0 0 = true ∧ s.holdCount 0 0 0 = 0 ∧
       served (.nodeSwapIn 0 3) s = true ∧ served (.nodeSwapEvict 0 3) s = true ∧
       (let u : State := { s with mem := s.mem.write 0x60000 8 (2 ^ 40) }
        u.resident 0 0 0 = false ∧ (u.residency 0 0 0).getLsbD 40 = true ∧ served (.nodeSwapIn 0 3) u = true) ∧
       (let u : State := { s with mem := s.mem.setFull (0x60000 / 8) true }
        served (.nodeSwapIn 0 3) u = true ∧
        served (.nodeSwapEvict 0 3) { u with mem := u.mem.write 0x30008 1 1 } = true)) ∧
    (∀ w ∈ [({ id := 8, model := 0, layer := 0, nodes := [], stage := 0, frames := [], ctime := 0, cause := 0 } : Swap),
        { id := 8, model := 0, layer := 0, nodes := [], stage := 2, frames := [0], ctime := 0, cause := 0 },
        { id := 8, model := 0, layer := 0, nodes := [], stage := 3, frames := [0], ctime := 0, cause := 2 }],
      let s := (withModel true).updPart 0 (fun p => { p with swaps := [w] })
      s.swapOf 8 = some (0, w) ∧ s.serving 0 = true ∧ s.swapActive 0 w = true ∧ s.firstForFrames 0 w = true ∧
        served (.swapInFrames 8) s = true ∧ served (.swapInComplete 8) s = true ∧ served (.swapInFailure 8) s = true ∧
        (s.modelRec 0 0).disabling = false ∧ s.layerNeeds 0 0 0 ≤ (s.freeFrames 0).length ∧ w.ctime ≤ s.time ∧ w.nodes = [] ∧ ∀ a ∈ s.accesses, a.phase ≠ .refused) ∧
    ((withModel true).layerSt 0 0 0 = some ⟨0, 0, [], 0, false, [3]⟩ ∧ (withModel true).framesBusy 0 [3] = false) := by
  unfold State.nodeReady; decide +kernel

/-- PortsAndSparesComplete: a request of each kind not yet performed, and performed; sectors clean, with one symbol and with two. -/
def port0 (k : PortKind) (done : Bool) (st : Nat × Nat) : PortReq :=
  { ch := 255, tag := 3, kind := k, sector := 50331647, mask := [], ctx := some 0, done := done, status := st }
theorem hyp_ports :
    (∀ k ∈ [PortKind.readSector, .readLine, .writeSector, .writeLine, .partialWrite], let s := { up with ports := [port0 k false (0, 0)] }
      s.portReq 255 3 = some (port0 k false (0, 0)) ∧ s.portTurn (port0 k false (0, 0)) = true) ∧
    up.symbols 255 50331647 = 0 ∧
    ({ up with badSectors := [(sectorAddr 255 50331647 / 32, 1)] } : State).symbols 255 50331647 = 1 ∧
    ({ up with badSectors := [(sectorAddr 255 50331647 / 32, 2)] } : State).symbols 255 50331647 = 2 ∧
    (let r := port0 .readSector true (1, 0)
     ({ up with ports := [r] } : State).portReq 255 3 = some r ∧ ({ up with ports := [r] } : State).olderWrite r = false ∧ r.status.1 ≠ 2 ∧ 63 / 32 = sectorAddr r.ch r.sector % 64 / 32) ∧
    (port0 .readLine true (2, 2)).status = (2, 2) ∧
    (let r := port0 .partialWrite true (2, 0)
     ({ up with ports := [r] } : State).portReq 255 3 = some r ∧ r.status.1 = 2 ∧ r.ctx = some 0) ∧
    (let a := sectorAddr 255 50331647
     let x : L2Line := { line := a / 64, slice := 63, valid := List.replicate 64 false, dirty := List.replicate 64 false, retain := false }
     let s := { up with l2 := [x], ports := [port0 .readLine true (0, 0)] }
     s.l2Line a = some x ∧ served (.readData 255 3) s = true ∧ served (.readData 255 3) { s with l2 := [] } = true) ∧
    up.portWait = false ∧ up.portAhead 255 50331647 = false ∧ up.freeTag 255 = some 0 ∧
    (0x6000000000000000 : DWord).toNat / 2 ^ 60 = 6 ∧ (0xF000000000000000 : DWord).toNat / 2 ^ 60 = 15 := by decide +kernel

/-- Spares: a row with 16 corrections (SPARE_ROW_COPY also needs a spare row left, which the manual's number of spare rows decides); a
channel of a stack whose spare is free; clusters with nothing on them, with and without spares left. -/
theorem hyp_spares :
    (let s := { up with rowFixes := [(255 * 2 ^ 32 + 7, 16)] }
     16 ≤ (s.rowFixes.lookup (255 * 2 ^ 32 + 7)).getD 0 ∧ (255 : Nat) < s.pf.rowsUsed.length) ∧
    up.clusterOwner 47 ≠ none ∧
    up.pf.spareChannel.getD (255 / 32) true = false ∧ (255 / 32 : Nat) < up.pf.spareChannel.length ∧
    up.gangsOn 47 = [] ∧ (∀ j ∈ up.jobs, j.cluster ≠ 47) ∧ up.sparesUsed (47 / 24) < 2 ∧
    2 ≤ ({ up with pf := { up.pf with spares := (2, 2) } } : State).sparesUsed (47 / 24) ∧ (47 : Nat) < up.pf.clown.length := by decide +kernel

/-- A channel whose spare rows are spent. -/
theorem hyp_spare_channel : Config.spareRows ≤ ({ up.pf with rowsUsed := List.replicate 256 Config.spareRows } : Pf).rowsUsed.getD 255 0 :=
  Nat.le_refl _

/-- PortsWaitOnlyForTags: a channel with every tag in use, one with tag 0 in use, and slices with nothing dirty. -/
theorem hyp_tags : (let s := { up with ports := (List.range 512).map (fun t => { port0 .readLine false (0, 0) with tag := t }) }
      s.freeTag 255 = none) ∧ ({ up with ports := [{ port0 .scrub false (0, 0) with tag := 0 }] } : State).freeTag 255 = some 1 ∧
    up.ports = [] ∧ up.portWait = false ∧ ∀ x ∈ up.l2, (∀ d ∈ x.dirty, d = false) ∧ ∀ d ∈ x.feDirty, d = false := by decide +kernel

/-- PowerAndResetsComplete: a trip in its first second and after it; a partition over, under and at its share. -/
theorem hyp_power :
    (let s := { up with pf := { up.pf with tripAt := some 0 } }
     s.pf.tripAt = some 0 ∧ s.time < 0 + 1000000000) ∧
    (let s := { up with time := 1000000000, pf := { up.pf with tripAt := some 0 } }
     s.pf.tripAt = some 0 ∧ 0 + 1000000000 ≤ s.time) ∧
    (up.part 0).mshare < 1001 ∧ 100 * 949 < 95 * (up.part 0).mshare ∧ ¬ 100 * 950 < 95 * (up.part 0).mshare ∧ up.pf.powered = true ∧
    up.clusterOwner 47 = some 0 := by decide +kernel

/-- HostAndMigrationComplete: the last bytes of a line of device memory and of host memory; a frame of 64 KiB to move, rounds with no line
marked and at the last round, a freeze and a forwarding. -/
theorem hyp_host : up.lostKey 63 = false ∧ ({ up with badSectors := [(1, 2)], l2 := [] } : State).lostKey 63 = true ∧
    served (.hostCxlRead 63 1) up = true ∧ served (.hostCxlRead 63 1) { up with badSectors := [(1, 2)], l2 := [] } = true ∧ served (.hostCxlWrite 63 [7]) up = true ∧ up.pf.hostLink = true ∧ up.mem.wf = true ∧ up.pf.ready = true ∧ isDevMem 63 = true ∧ 63 % 64 + 1 ≤ 64 ∧
    up.migrations = [] ∧ (∃ a ∈ [2 ^ 51, 2 ^ 48, 0x60000000000], isHostMem a = true) ∧
    up.serving 0 = true ∧ up.inGroups 0 0x100000 0x10000 = true ∧ up.inGroups 0 0x200000 (0x10000 / 512) = true ∧
    up.inPartition 0 0x100000 0x10000 = true ∧ up.inPartition 0 0x110000 0x10000 = true ∧ isDevMem 0x110000 = true ∧ up.accesses = [] ∧
    (∀ ph ∈ [MigPhase.round 63, .round 0, .forwarding],
      let m : Migration := { id := 4, part := 0, old := 0x100000, new := 0x110000, size := 0x10000, bitmap := 0x200000, checkpoint := false, phase := ph }
      ({ up with migrations := [m] } : State).migration 4 = some m ∧ ({ up with migrations := [m] } : State).markedLines m = []) := by decide +kernel

/-- A session of partition 0 on link 0. -/
def session0 : Session :=
  { n := 5, link := 0, peer := 1, base := 0x100000, len := 65536, peerLen := 65536, isOpen := true, txKey := 1, rxKey := 2
    txCount := 0, rxCount := 0, txSalt := 0, rxSalt := 0, newTx := none, newRx := some 3, attempts := 0 }
def linked : State := up.updPart 0 (fun p => { p with sessions := [session0] })

/-- HostAndMigrationComplete: a checkpoint to session 5 of a peer. -/
theorem hyp_checkpoint : let new := 2 ^ 64 + 5 * 2 ^ 58
    2 ^ 64 ≤ new ∧ linked.session 0 (new / 2 ^ 58 % 64) = some session0 ∧ new % 2 ^ 58 + 0x10000 ≤ session0.peerLen := by decide +kernel

/-- SessionEventsComplete (whether a handshake succeeds is outside the part). -/
theorem hyp_sessions : up.linkOwner 0 = some 0 ∧ up.session 0 5 = none ∧ (up.link 0).up = true ∧
    (∀ i < 65536 / 65536, ((up.part 0).stage2 (0x100000 + 65536 * i) 1).isOk = true) ∧
    linked.session 0 5 = some session0 ∧
    (let s := { linked.updLink 0 (fun l => { l with up := false, downSince := 0 }) with time := 1000000001 }
     (s.link 0).up = false ∧ (s.link 0).downSince + 1000000000 < s.time ∧ s.sessionsOn 0 ≠ []) ∧
    (let x := { session0 with txCount := 2 ^ 32 - 2 ^ 20 }
     let s := up.updPart 0 (fun p => { p with sessions := [x] })
     s.session 0 5 = some x ∧ 2 ^ 32 - 2 ^ 20 ≤ x.txCount ∧ x.txCount < 2 ^ 32 ∧ (s.link 0).replay.length < 256) ∧
    (let x := { session0 with rxCount := 2 ^ 32 - 2 ^ 20, newRx := none }
     let s := up.updPart 0 (fun p => { p with sessions := [x] })
     s.session 0 5 = some x ∧ 2 ^ 32 - 2 ^ 20 ≤ x.rxCount ∧ x.txCount < 2 ^ 32 - 2 ^ 20) := by decide +kernel

/-- A flit of a kind with sequence 0 and a right CRC, whatever the CRC's polynomial. -/
def flitOf (body : List Byte) : List Byte := List.replicate 4 0 ++ bytesOfNat 4 (Config.crc32 (body ++ List.replicate 4 0)) ++ body
def flit0 (kind : Nat) : List Byte := flitOf (bytesOfNat 16 (kind * 2 ^ 58 + 5 * 2 ^ 42) ++ List.replicate 232 0)
theorem flitOf_crc (body : List Byte) : flitCrcOk (flitOf body) = true := by
  unfold flitCrcOk flitOf
  simp [cardN, natOfBytes, bytesOfNat]
  omega

/-- FlitEventsComplete: a good flit of each kind, and one out of sequence; a NAK of a flit in the replay buffer; 16 resends; a link that
retrains. What a payload opens to is outside the part. -/
theorem hyp_flits :
    (∀ k, flitCrcOk (flit0 k) = true) ∧ (∀ k ∈ [0, 1, 2, 3, 4, 15], flitSeq (flit0 k) = (linked.link 0).rxSeq ∧ flitKind (flit0 k) = k ∧
      (flit0 k).length = 256 ∧ flitSession (flit0 k) = 5) ∧
    linked.linkOwner 0 = some 0 ∧ linked.session 0 5 = some session0 ∧ session0.link = 0 ∧ linked.linkServes 0 = true ∧ linked.portWait = false ∧
    (linked.updPart 0 (fun p => { p with enabled := false })).linkServes 0 = false ∧ linked.pf.bridgeSpares = [] ∧ up.session 0 5 = none ∧
    (∀ k ∈ [0, 1, 2, 3, 4], flitSeq (flit0 k) ≠ ((linked.updLink 0 (fun l => { l with rxSeq := 1 })).link 0).rxSeq) ∧
    ([(7, ([] : List Byte))].findIdx? (fun x => x.1 == (7 : BitVec 16).toNat)) = some 0 ∧
    State.reset.linkOwner 0 = none := by
  exact ⟨fun _ => flitOf_crc _, by decide⟩

/-- A put card of 16 bytes from 0x30000 to offset 0 of the peer's window, result at 0x38000; a get; a reduce of two members. -/
def putCard (kind : Nat) : List Byte :=
  bytesOfNat 8 (kind + 5 * 256) ++ bytesOfNat 8 0x30000 ++ bytesOfNat 8 0 ++ bytesOfNat 4 16 ++ bytesOfNat 4 0 ++ bytesOfNat 8 0
    ++ bytesOfNat 8 0x38000 ++ List.replicate 32 0 ++ bytesOfNat 8 (if kind == 0 then noFlag else 0) ++ List.replicate 40 0
def ljob (k : LinkKind) (card : List Byte) (stage : Nat) : LinkJob :=
  { id := 4, part := 0, ctx := 0, gang := none, fibre := none, node := none, kind := k, session := 5, card := card, members := []
    deadline := 0, stage := stage, arrived := [], excluded := [], error := 0, sat := 0, mask := 0, ctime := 0 }

/-- LinkJobsComplete: a link node with a sound card, and with one that names no open session. -/
theorem hyp_link_nodes :
    (let s := { linked.setNode 0 3 (node0 3 .ready) with mem := tables.writeBytes 0x30000 (putCard 0) }
     served (.nodeLink 0 3) s = true ∧ s.nodeReady 0 3 (node0 3 .ready) ∧ (s.frontRead 0 0x30000 128).toOption = some (putCard 0) ∧
       (lcard (putCard 0)).kind ≠ 2 ∧ s.lcardBad 0 none 0 (putCard 0) [] = false ∧ s.linkLoad 0 < 64) ∧
    (let s := { up.setNode 0 3 (node0 3 .ready) with mem := tables.writeBytes 0x30000 (putCard 0) }
     s.nodeReady 0 3 (node0 3 .ready) ∧ s.lcardBad 0 none 0 (putCard 0) [] = true ∧ served (.nodeLink 0 3) s = true) := by
  unfold State.nodeReady; decide +kernel

/-- A peer's put whose flag is the last word of the window, one that breached it, and one whose link is down. -/
theorem hyp_remote_puts :
    let w : RemotePut := { id := 4, part := 0, session := 5, job := 1, flag := some 65528, n := 16, ctime := 0, got := 16 }
    let s := { linked with remotePuts := [w] }
    let t := { linked with remotePuts := [{ w with breach := true }] }
    let u := s.updLink 0 (fun l => { l with up := false })
    s.linkServes 0 = true ∧ w.filled = false ∧ w.breach = false ∧ s.remotePuts.find? (fun y => y.id == w.id) = some w ∧ w.n ≤ w.got ∧
      (s.link 0).up = true ∧ (s.link 0).replay.length < 256 ∧ 65528 + 8 ≤ session0.len ∧
      (s.gpKeys 0 (session0.base + 65528) 2 8).isSome = true ∧ s.migrations = [] ∧ (u.link 0).up = false ∧
      served (.putFlagFill 4) s = true ∧ served (.putFlagFill 4) t = true ∧ served (.putFlagFill 4) u = true := by decide +kernel

theorem hyp_puts_gets :
    (let j := ljob .put (putCard 0) 0
     let s := { linked with linkJobs := [j] }
     s.linkServes 0 = true ∧ (0 : Nat) < s.links.length ∧ s.linkJob 4 = some j ∧ s.linkFirst j = true ∧ served (.linkPut 4) s = true ∧
       (s.linkRead j ((lcard j.card).loc + j.pos) 16 matches .ok _) = true) ∧
    (let j := ljob .get (putCard 1) 0
     let s := { linked with linkJobs := [j] }
     s.linkJob 4 = some j ∧ s.linkFirst j = true ∧ (lcard j.card).remote + (lcard j.card).n ≤ session0.peerLen ∧ served (.linkGet 4) s = true ∧
       (s.linkWrite j (lcard j.card).loc (List.replicate 16 0) matches .ok _) = true ∧ 8 < (lcard j.card).remote + (lcard j.card).n) := by
  decide +kernel

/-- A reduce of one element between this module, rank 0, and the peer of session 5. -/
def sumCard : List Byte :=
  bytesOfNat 8 2 ++ bytesOfNat 8 0x30000 ++ bytesOfNat 8 0 ++ bytesOfNat 4 1 ++ List.replicate 12 0 ++ bytesOfNat 8 0x38000
    ++ bytesOfNat 8 3 ++ bytesOfNat 8 0 ++ bytesOfNat 8 0x39000 ++ List.replicate 56 0
def sumJob (stage : Nat) (arrived : List Nat) (sent : List (Nat × Nat)) (deadline : Nat) : LinkJob :=
  { ljob .reduce sumCard stage with arrived := arrived, members := [0xFE, 5], sent := sent, deadline := deadline }

/-- Its start; its flit to the peer; its end with both contributions, and at its deadline; a contribution wanted before it. -/
theorem hyp_reduces :
    (let j := sumJob 0 [] [] 2000000
     let s := { linked with linkJobs := [j] }
     s.linkJob 4 = some j ∧ (s.linkRead j (lcard sumCard).loc 4 matches .ok _) = true ∧ (lcard sumCard).scales = 0 ∧
       (s.linkWrite j (slotAddr (lcard sumCard) 0) (List.replicate 4 0) matches .ok _) = true ∧ served (.linkReduce 4) s = true) ∧
    (let j := sumJob 1 [0] [] 2000000
     let s := { linked with linkJobs := [j] }
     s.linkJob 4 = some j ∧ s.takeEarly j = none ∧ State.sentTo j 1 = 0 ∧ 216 * 0 < slotStride (lcard sumCard) ∧ selfRank j.members = 0 ∧
       (s.linkRead j (slotAddr (lcard sumCard) 0) (slotStride (lcard sumCard)) matches .ok _) = true ∧
       s.session 0 (memberOf j.members 1) = some session0 ∧ served (.linkReduce 4) s = true ∧
       State.wantedRank j 0 5 = some 1 ∧ s.time < j.deadline) ∧
    (let j := sumJob 1 [0, 1] [(1, 1)] 0
     let s := { linked with linkJobs := [j] }
     s.linkJob 4 = some j ∧ (ranksOf (lcard sumCard).mask).filter (fun r => j.arrived.contains r) = [0, 1] ∧
       ranksOf (lcard sumCard).mask = [0, 1] ∧ (s.linkRead j (slotAddr (lcard sumCard) 1) (slotStride (lcard sumCard)) matches .ok _) = true ∧
       (s.linkWrite j (lcard sumCard).loc (List.replicate 4 0) matches .ok _) = true ∧ j.deadline ≤ s.time ∧ s.takeEarly j = none ∧
       s.earlyLeft j = false ∧ State.reduceSent j = true ∧ served (.linkReduce 4) s = true ∧ served (.reduceDeadline 4) s = true) := by
  decide +kernel

theorem hyp_link_ends : ∀ n ∈ [2, 3], let j := ljob .put (putCard 0) n
    let s := { linked with linkJobs := [j] }
    s.linkJob 4 = some j ∧ j.ctime ≤ s.time ∧ s.liveContext 0 = true ∧ j.node = none ∧ served (.linkJobEnd 4) s = true ∧
      (s.linkWrite j ((lcard j.card).result + 8) (List.replicate 8 0) matches .ok _) = true ∧
      (s.linkWrite j (lcard j.card).result (List.replicate 8 0) matches .ok _) = true ∧
      (s.jobKeys j.asJob (lcard j.card).result .write 8).isOk = true := by decide +kernel

/-- LinkJobsComplete: a link node whose card is a reduce of two members, and a checkpoint's puts. -/
def reduceCard : List Byte :=
  [2, 0, 0, 0, 0, 0, 0, 0] ++ bytesOfNat 8 0x30000 ++ List.replicate 8 0 ++ bytesOfNat 4 16 ++ List.replicate 12 0 ++ bytesOfNat 8 0x38000
    ++ bytesOfNat 8 3 ++ bytesOfNat 8 0x3A000 ++ bytesOfNat 8 0x39000 ++ bytesOfNat 4 1 ++ List.replicate 52 0
def members0 : List Byte := [0xFE, 5] ++ List.replicate 62 0xFF
def reducing : State := { linked.setNode 0 3 (node0 3 .ready) with mem := (tables.writeBytes 0x30000 reduceCard).writeBytes 0x3A000 members0 }
theorem hyp_link_reduce_card : (reducing.frontRead 0 0x30000 128).toOption = some reduceCard := by decide +kernel
theorem hyp_link_reduce_members : (reducing.frontRead 0 0x3A000 64).toOption = some members0 := by decide +kernel
theorem hyp_link_reduce_node : reducing.nodeReady 0 3 (node0 3 .ready) ∧ (lcard reduceCard).kind = 2 ∧ (lcard reduceCard).members % 8 = 0 ∧
    (lcard reduceCard).members / 2 ^ 56 % 256 = 0 := by unfold State.nodeReady; decide +kernel
theorem hyp_link_reduce_ok : reducing.lcardBad 0 none 0 reduceCard members0 = false := by decide +kernel
theorem hyp_link_checkpoint : let j := { ljob .put (putCard 0) 0 with checkpoint := true, lines := [(0, List.replicate 64 0)] }
    let s := { linked with linkJobs := [j] }
    s.linkJob 4 = some j ∧ s.linkFirst j = true ∧ s.session j.part j.session = some session0 ∧ s.linkOwner session0.link = some j.part ∧
      s.openLinks 0 ≠ [] := by decide +kernel

/-- A launch record of one gang of one fibre, its kernel at 0x31000. -/
def launchBytes : List Byte :=
  bytesOfNat 8 0 ++ [1, 0, 1, 0] ++ bytesOfNat 4 1 ++ bytesOfNat 8 0x31000 ++ bytesOfNat 8 0x32000 ++ List.replicate 48 0
def kernelBytes : List Byte := bytesOfNat 4 0 ++ bytesOfNat 4 1 ++ bytesOfNat 4 256 ++ [64, 1, 0, 0] ++ [1] ++ List.replicate 23 0
def launchNode : State :=
  { withNode 3 (node0 0 .ready) with mem := (tables.writeBytes 0x30000 launchBytes).writeBytes 0x31000 kernelBytes, gangs := [], fibres := [] }

/-- LaunchesPlaceGangs: a launch record that passes every check, where the partition's signature policy, which is outside the part, admits
its kernel. -/
theorem hyp_launch_ok (h : Config.signaturePolicy 0 0x31000 = true) : ∃ l, launchNode.readLaunch 0 3 (node0 0 .ready) = .ok l := by
  have e : (node0 0 .ready).payload.toNat = 0x30000 := by decide +kernel
  have c : (node0 0 .ready).ctx = 0 := by decide +kernel
  have h1 : launchNode.frontRead 0 0x30000 80 = .ok launchBytes := by decide +kernel
  have h2 : launchNode.frontRead 0 0x31000 40 = .ok kernelBytes := by decide +kernel
  have h3 : launchNode.frontRead 0 (0x31000 + 40) (8 * (kernelDesc kernelBytes).groupCount) = .ok [] := by decide +kernel
  have h4 : launchNode.frontRead 0 (launchRec launchBytes).safePoints (16 * (kernelDesc kernelBytes).safeCount) = .ok [] := by decide +kernel
  have k1 : (launchRec launchBytes).kernel = 0x31000 := by decide +kernel
  have k2 : (kernelDesc kernelBytes).bad = false := by decide +kernel
  have k3 : (launchRec launchBytes).bad (kernelDesc kernelBytes) = false := by decide +kernel
  have k4 : groupsBad [] (kernelDesc kernelBytes).groupCount (kernelDesc kernelBytes).gang (launchRec launchBytes).slots = false := by decide +kernel
  have k5 : launchNode.safeBad 0 [] (kernelDesc kernelBytes).safeCount (launchRec launchBytes).code (kernelDesc kernelBytes).entry
      (kernelDesc kernelBytes).packets = .ok false := by decide +kernel
  have h' : Config.signaturePolicy 0 (BitVec.ofNat 64 0x31000) = true := h
  have a2 : (0x31000 % 8 != 0) = false := by decide +kernel
  unfold State.readLaunch
  simp only [e, c, h1, k1, a2, h2, k2, k3, h', h3, h4, k4, k5, Bool.false_or, Bool.not_true, Bool.false_eq_true, if_false]
  rw [if_neg]
  · exact ⟨_, rfl⟩
  · decide

/-! ### Worked examples of the manual, one word each -/

/-- The small state with g1, g2 and g3 as given. -/
def regsAre (x y z : Word) : State :=
  { busy false false [0, 0, 0] with fibres := [{ guest false false with regs := [0, x, y, z] ++ List.replicate 60 0 }]
                                    issue := { Issue.idle with lanes := [0], words := [0, 0, 0]
                                                               src := [(0, { guest false false with regs := [0, x, y, z] ++ List.replicate 60 0 })] } }
/-- g3 after a word of fixed latency. -/
def g3After (i : Instr) (x y z : Word) : Option Word :=
  match exec i (regsAre x y z) with
  | .next t => some ((t.fibre 0).reg 3)
  | _ => none
/-- What is on its way after a word of the XU pipe. -/
def xuAfter (i : Instr) (x y z : Word) : Option (List (Nat × Word) × Flags) :=
  match exec i (regsAre x y z) with
  | .next t => t.results.head?.map (fun r => (r.writes, r.flags))
  | _ => none
/-- p2 and p3 after a compare. -/
def pairAfter (i : Instr) (x y : Word) : Option (Bool × Bool) :=
  match exec i (regsAre x y 0) with
  | .next t => some ((t.fibre 0).preds.getLsbD 2, (t.fibre 0).preds.getLsbD 3)
  | _ => none
/-- g3 and the sticky flags after a word that rounds. -/
def roundAfter (i : Instr) (x y z : Word) : Option (Word × Flags) :=
  match exec i (regsAre x y z) with
  | .next t => some ((t.fibre 0).reg 3, (t.fibre 0).ctl.exc)
  | _ => none

/-- R105, R107, R109. -/
theorem test_integer_examples :
    g3After (.imulhS hd 3 1 2) 0xFFFFFFFF 2 0 = some 0xFFFFFFFF ∧ g3After (.imulhN hd 3 1 2) 0xFFFFFFFF 2 0 = some 1 ∧
    g3After (.bfx hd 3 1 2) 0x12345678 0x804 0 = some 0x67 ∧ g3After (.bfi hd 3 1 2) 0xAB 0x804 0xFFFFFFFF = some 0xFFFFFABF ∧
    pairAfter (.icmpS hd 2 1 1 2) 0xFFFFFFFF 1 = some (true, false) ∧ pairAfter (.icmpN hd 2 1 1 2) 0xFFFFFFFF 1 = some (false, true) := by
  decide +kernel

/-- R114, the table: 7 by -2, -7 by 2, 7 by 0, -7 by 0, the most negative number by -1. -/
theorem test_division_signed :
    (xuAfter (.idivS hd 3 1 2) 7 0xFFFFFFFE 0).map (·.1) = some [(3, 0xFFFFFFFD)] ∧
    (xuAfter (.idivS hd 3 1 2) 0xFFFFFFF9 2 0).map (·.1) = some [(3, 0xFFFFFFFD)] ∧
    (xuAfter (.idivS hd 3 1 2) 7 0 0).map (·.1) = some [(3, 0xFFFFFFFF)] ∧
    (xuAfter (.idivS hd 3 1 2) 0xFFFFFFF9 0 0).map (·.1) = some [(3, 1)] ∧
    (xuAfter (.idivS hd 3 1 2) 0x80000000 0xFFFFFFFF 0).map (·.1) = some [(3, 0x80000000)] ∧
    (xuAfter (.iremS hd 3 1 2) 7 0xFFFFFFFE 0).map (·.1) = some [(3, 1)] ∧
    (xuAfter (.iremS hd 3 1 2) 0xFFFFFFF9 2 0).map (·.1) = some [(3, 0xFFFFFFFF)] ∧
    (xuAfter (.iremS hd 3 1 2) 0xFFFFFFF9 0 0).map (·.1) = some [(3, 0xFFFFFFF9)] ∧
    (xuAfter (.iremS hd 3 1 2) 0x80000000 0xFFFFFFFF 0).map (·.1) = some [(3, 0)] := by decide +kernel

theorem test_division_unsigned :
    (xuAfter (.idivN hd 3 1 2) 0xFFFFFFF9 2 0).map (·.1) = some [(3, 0x7FFFFFFC)] ∧
    (xuAfter (.idivN hd 3 1 2) 7 0 0).map (·.1) = some [(3, 0xFFFFFFFF)] ∧
    (xuAfter (.idivN hd 3 1 2) 0x80000000 0xFFFFFFFF 0).map (·.1) = some [(3, 0)] ∧
    (xuAfter (.iremN hd 3 1 2) 0xFFFFFFF9 2 0).map (·.1) = some [(3, 1)] ∧
    (xuAfter (.iremN hd 3 1 2) 0xFFFFFFF9 0 0).map (·.1) = some [(3, 0xFFFFFFF9)] ∧
    (xuAfter (.iremN hd 3 1 2) 0x80000000 0xFFFFFFFF 0).map (·.1) = some [(3, 0x80000000)] := by decide +kernel

/-- R116, R117, R119, R120. -/
theorem test_float_examples :
    g3After (.fmin hd 3 1 2) 0 0x80000000 0 = some 0x80000000 ∧ g3After (.fmin hd 3 1 2) 0x80000000 0 0 = some 0x80000000 ∧
    pairAfter (.fcmp hd 2 1 1 2) 0x7FC00000 0 = some (false, true) ∧ pairAfter (.fcmp hd 1 1 1 2) 0x7FC00000 0 = some (true, false) ∧
    g3After (.fclass hd 3 1) 0x80000001 0 0 = some 4 ∧ g3After (.fclass hd 3 1) 0x7F800001 0 0 = some 0x100 ∧
    roundAfter (.hadd2 hd 3 1 2) 0x3C007BFF 0x3C004C00 0 = some (0x40007C00, 0x14) ∧
    roundAfter (.fneg hd 3 1) 0x7F800001 0 0 = some (0x7FC00000, 1) := by decide +kernel

/-- R130, its table; a CVT word takes the source from its first type field. -/
theorem test_convert_examples :
    cvt .rne 4 0 0x40200000 = (2, 0x10) ∧ cvt .rna 4 0 0xC0200000 = (0xFFFFFFFD, 0x10) ∧ cvt .rne 4 0 0x4F32D05E = (0x7FFFFFFF, 1) ∧
    cvt .rne 4 0 0x7FC00000 = (0, 1) ∧ cvt .rtz 4 1 0xBF400000 = (0, 0x10) ∧ cvt .rne 4 1 0xBFC00000 = (0, 1) ∧
    cvt .rne 0 4 16777217 = (0x4B800000, 0x10) ∧ cvt .rne 1 2 70000 = (0x7C00, 0x14) ∧ cvt .rtz 1 2 70000 = (0x7BFF, 0x14) ∧
    cvt .rne 6 0 0x100000000 = (0x7FFFFFFF, 1) ∧ cvt .rne 0 6 0xFFFFFFFF = (0xFFFFFFFFFFFFFFFF, 0) ∧
    roundAfter (.cvt hd 3 1 4 0) 0x40200000 0 0 = some (2, 0x10) := by decide +kernel

/-- R131, R132. -/
theorem test_narrow_examples :
    roundAfter (.narrow hd 3 1 2) 0x40200000 0x14600 0 = some (4, 0x10) ∧ roundAfter (.narrow hd 3 1 2) 0x43FA0000 0x78F00 0 = some (0x7E, 0x14) ∧
    roundAfter (.widen hd 3 1 2) 0xFFFFFFF7 0x14600 0 = some (0x40C00000, 0) := by decide +kernel

/-- R60: four lanes of 64, the others at the identity; the tree gives 1.0 and SCAN's order 0.0. -/
theorem test_reduction_example :
    redOp 8 0x3F800000 0x4B800000 = (0x4B800000, 0x10) ∧ redOp 8 0x3F800000 0xCB800000 = (0xCB7FFFFF, 0) ∧
    redOp 8 0x4B800000 0xCB7FFFFF = (0x3F800000, 0) ∧ redOp 8 0x3F800000 0x80000000 = (0x3F800000, 0) := by decide +kernel

/-- R61, R62: one element through a pass. -/
theorem test_matrix_example :
    let d : Narrow := .ofWord 0x78F00
    let a := [0x3C, 0xB0].map d.value ++ List.replicate 14 (d.value 0)
    let b := [0x44, 0x40].map d.value ++ List.replicate 14 (d.value 0)
    denseElem 0x3F800000 [((a, 0x80), (b, 0x7E))] = (0x40900000, 0) ∧
    outlierElem 0x40900000 (unpack .f16 0x3400) (d.value 0x40) 0x7E = (0x40980000, 0) := by decide +kernel

/-- R198: element 37 of row 5 of a bf16 tile with K = 64. -/
theorem test_tile_example : tileOff 16 64 5 37 = (4362, 0) := by decide +kernel

/-- R260, R261: an f32 region of 64 by 32 by 6 in the declared order. -/
theorem test_layout_example :
    let r0 := { region0 with dims := 3, extents := [64, 32, 6, 1, 1] }
    let r := { r0 with cur := r0.layoutOf (declaredOrder 3) (declaredOrder 3) }
    r.record = 0x00001F8280757E0A ∧ r.slot r.cur [37, 20, 5] = 9637 := by decide +kernel

/-- R371's neighbour: a reduction's step adds 448.0 to 1.0 exactly. -/
theorem test_fabric_reduction : fAdd .f32 .rne 0x3F800000 0x43E00000 = (0x43E08000, 0) := by decide +kernel

end Sys2Proof.Tests
end

/-! ## Byte-addressed places

A place of n bytes behaves as `Memory.read`, `Memory.write` and `Memory.setFulls` of its run of bytes and words (R3, R141, R142). -/

namespace Sys2Proof.Machine

/-- Only the low n bytes of a value are written. -/
theorem bytesOfNat_mod (n v : Nat) : bytesOfNat n (v % 2 ^ (8 * n)) = bytesOfNat n v := by
  induction n generalizing v with
  | zero => rfl
  | succ n ih =>
    have hpow : 2 ^ (8 * (n + 1)) = 256 * 2 ^ (8 * n) := by rw [Nat.mul_succ, Nat.pow_add, Nat.mul_comm]
    have hlow : BitVec.ofNat 8 (v % (256 * 2 ^ (8 * n))) = BitVec.ofNat 8 v :=
      BitVec.eq_of_toNat_eq (Nat.mod_mul_right_mod v 256 (2 ^ (8 * n)))
    rw [hpow, bytesOfNat, bytesOfNat, hlow, Nat.mod_mul_right_div_self, ih]

namespace Memory

theorem read_lt (m : Memory) (a n : Nat) : m.read a n < 2 ^ (8 * n) := by
  simpa only [read, readBytes_length] using natOfBytes_lt (m.readBytes a n)

/-- The bytes of a written value, lowest first, and no other byte changes (R3). -/
theorem byte_write {m : Memory} (h : m.wf = true) (a n v x : Nat) :
    (m.write a n v).byte x = if a ≤ x ∧ x < a + n then BitVec.ofNat 8 (v / 2 ^ (8 * (x - a))) else m.byte x := by
  rw [write, byte_writeBytes h, bytesOfNat_length]
  split
  next hx => exact bytesOfNat_getD n v (x - a) (by omega)
  next => rfl

@[simp] theorem full_write (m : Memory) (a n v w : Nat) : (m.write a n v).full w = m.full w := full_writeBytes m a _ w

end Memory

namespace Loc

@[simp] theorem bytes_ofBytes (m : Memory) (key n attr : Nat) : bytes m (ofBytes key n attr) = m.read key n :=
  congrArg natOfBytes (map_run_byte m key n)

@[simp] theorem value_ofBytes (m : Memory) (key n attr : Nat) : (ofBytes key n attr).value m = m.read key n :=
  calc (ofBytes key n attr).value m
    _ = bytes m (ofBytes key n attr) / 2 ^ 0 % 2 ^ (8 * n) := rfl
    _ = m.read key n := by rw [bytes_ofBytes, Nat.pow_zero, Nat.div_one, Nat.mod_eq_of_lt (m.read_lt key n)]

/-- The place has no bits outside its value, so a store there replaces all its bytes. -/
theorem store_ofBytes {m : Memory} (h : m.wf = true) (key n attr v : Nat) :
    (ofBytes key n attr).store m v = m.write key n v := by
  have hhi : m.read key n / 2 ^ (8 * n) = 0 := Nat.div_eq_of_lt (m.read_lt key n)
  have hrun := foldl_run_writeBytes h key (bytesOfNat n v)
  rw [bytesOfNat_length] at hrun
  rw [store, bytes_ofBytes]
  simpa [ofBytes, hhi, Nat.mod_one, bytesOfNat_mod, Memory.write] using hrun

/-- Setting the bit of a place sets the bits of its run of words. -/
theorem setFull_ofBytes {m : Memory} (h : m.wf = true) (key n attr : Nat) (f : Bool) :
    (ofBytes key n attr).setFull m f = m.setFulls (key / 8) f ((key + n - 1) / 8 - key / 8 + 1) :=
  foldl_run_setFull h _ _ f

/-- The words a place of at least one byte covers (R142). -/
theorem mem_words_ofBytes {n : Nat} (hn : 0 < n) (key attr w : Nat) :
    w ∈ (ofBytes key n attr).words ↔ key / 8 ≤ w ∧ w ≤ (key + n - 1) / 8 := by
  simp only [ofBytes, List.mem_map, List.mem_range]
  constructor
  · rintro ⟨i, hi, rfl⟩
    omega
  · rintro ⟨hlo, hhi⟩
    exact ⟨w - key / 8, by omega, by omega⟩

theorem full_setFull_ofBytes {m : Memory} (h : m.wf = true) {n : Nat} (hn : 0 < n) (key attr : Nat) (f : Bool) (w : Nat) :
    ((ofBytes key n attr).setFull m f).full w = if key / 8 ≤ w ∧ w ≤ (key + n - 1) / 8 then f else m.full w := by
  rw [setFull_ofBytes h, Memory.full_setFulls h]
  exact if_congr (by omega) rfl rfl

theorem full_ofBytes_iff (m : Memory) {n : Nat} (hn : 0 < n) (key attr : Nat) :
    (ofBytes key n attr).full m = true ↔ ∀ w, key / 8 ≤ w → w ≤ (key + n - 1) / 8 → m.full w = true := by
  have hall : (ofBytes key n attr).full m = (ofBytes key n attr).words.all m.full := rfl
  simp only [hall, List.all_eq_true, mem_words_ofBytes hn, and_imp]

end Loc

/-- Settles O43: a place of n bytes is the run of bytes and words that `Memory.read`, `Memory.write` and `Memory.setFulls` speak of. -/
theorem placesReadAndWrite : Obligations.PlacesReadAndWrite := by
  unfold Obligations.PlacesReadAndWrite
  intro m key n attr v f hm hn l
  have hstore : l.store m v = m.write key n v := Loc.store_ofBytes hm key n attr v
  have hset : l.setFull m f = m.setFulls (key / 8) f ((key + n - 1) / 8 - key / 8 + 1) := Loc.setFull_ofBytes hm key n attr f
  refine ⟨Loc.value_ofBytes m key n attr, Loc.store_wf hm l v, Loc.setFull_wf hm l f, fun a => ?_, fun w => ?_, fun a => ?_,
    Loc.full_setFull_ofBytes hm hn key attr f, Loc.full_ofBytes_iff m hn key attr⟩
  · rw [hstore, Memory.byte_write hm]
  · rw [hstore, Memory.full_write]
  · rw [hset, Memory.byte_setFulls]

end Sys2Proof.Machine

/-! ## The step and reset

Which instruction a step runs (R9, R20, R97), and what reset leaves (R9, R133, R353, R356, R359). -/

namespace Sys2Proof.Machine

/-- A word of a group in progress runs in the state that the check of the group leaves (R20, R97). -/
theorem step_of_wordNow {s : State} {i : Instr} (hl : s.issue.lanes ≠ []) (hw : s.wordNow = .ok i) : step s = exec i s.ready1 := by
  have hne : s.issue.lanes.isEmpty = false := by simpa using hl
  rw [step, hne, hw]
  rfl

theorem decodeAt_packetOf {nbits w : Nat} {i : Instr} (h : decodeTableWord nbits w = some i) :
    decodeAt (State.packetOf w) = .ok i := by
  unfold decodeTableWord at h
  split at h
  next heq => rw [Option.some.inj h] at heq; exact heq
  next => contradiction

namespace State

theorem ready1_eq (s : State) : s.ready1 = if s.issue.slot = s.issue.first then s.screen else s := by
  simp [ready1]

/-- A group that meets no breakpoint and in which no lane traps is counted as issued, and nothing else (R186). -/
theorem screen_of_no_trap {s : State} (hb : s.breakTrap = none) (hg : s.groupBad = []) : s.screen = s.count s.issue.core 0x11 1 := by
  simp only [screen, hb, hg]

theorem withFetchWord_lanes (s : State) (nbits w : Nat) : (s.withFetchWord nbits w).issue.lanes ≠ [] := by
  cases h : s.issue.lanes <;> simp [withFetchWord, h]

theorem withFetchWord_words (s : State) (nbits w : Nat) : (s.withFetchWord nbits w).issue.words = packetOf w := by
  cases h : s.issue.lanes <;> simp [withFetchWord, h]

theorem withFetchWord_slot (s : State) (nbits w : Nat) : (s.withFetchWord nbits w).issue.slot = 0 := by
  cases h : s.issue.lanes <;> simp [withFetchWord, h]

theorem withFetchWord_first (s : State) (nbits w : Nat) : (s.withFetchWord nbits w).issue.first = 0 := by
  cases h : s.issue.lanes <;> simp [withFetchWord, h]

/-- A packet placed from outside has its instruction at the current slot. -/
theorem wordNow_withFetchWord {nbits w : Nat} {i : Instr} (s : State) (h : decodeTableWord nbits w = some i) :
    (s.withFetchWord nbits w).wordNow = .ok i := by
  rw [wordNow, withFetchWord_words, withFetchWord_slot, List.drop_zero]
  exact decodeAt_packetOf h

/-- A packet placed from outside stands before its first word. -/
theorem ready1_withFetchWord (s : State) (nbits w : Nat) : (s.withFetchWord nbits w).ready1 = (s.withFetchWord nbits w).screen := by
  rw [ready1_eq, withFetchWord_slot, withFetchWord_first, if_pos rfl]

/-- Every core has scratch size 4 at reset, like all it holds (R133). -/
theorem reset_core (c : Nat) : reset.core c = .initial := by
  simp only [core, reset, List.getD_eq_getElem?_getD, List.getElem?_replicate]
  split <;> rfl

theorem reset_part (p : Nat) : reset.part p = .initial := by
  simp only [part, reset, List.getD_eq_getElem?_getD, List.getElem?_replicate]
  split <;> rfl

end State

/-- Settles O4: the word at the current slot, behind the check of the group at its first word. -/
theorem stepRunsDecodedWord : Obligations.StepRunsDecodedWord := by
  unfold Obligations.StepRunsDecodedWord
  refine ⟨fun s i hl hd => ?_, fun s nbits w i hd => ?_, fun s hb hg => State.screen_of_no_trap hb hg⟩
  · rw [step_of_wordNow hl hd, State.ready1_eq]
  · rw [step_of_wordNow (s.withFetchWord_lanes nbits w) (s.wordNow_withFetchWord hd), State.ready1_withFetchWord]

/-- Settles O7: reset's fields, and that every core and every partition stands at its initial values. -/
theorem resetValues : Obligations.ResetValues := by
  unfold Obligations.ResetValues
  refine ⟨⟨rfl, rfl, rfl, rfl, List.length_replicate, fun c _ => ?_, List.length_replicate, fun p _ => ?_, rfl⟩,
    reset_mem_wf, fun _ => rfl, fun _ => rfl⟩
  · rw [State.reset_core]; rfl
  · rw [State.reset_part]; rfl

end Sys2Proof.Machine

/-! ## The host and migration

The host's accesses at the homes (R11, R293), and the turns of a migration (R246, R376). -/

namespace Sys2Proof.Machine

/-- An event that sends requests takes place where the channel ports let it go (R343). -/
theorem evPort_some {name : String} {t : State} (h : ∀ n, evPort name (some t) ≠ .refused (.portBusy n)) :
    evPort name (some t) = .next t := by
  unfold evPort at h ⊢
  dsimp only at h ⊢
  split
  next hw => exact absurd (if_pos hw) (h name)
  next => rfl

theorem exec_of_portsServe {s t : State} {i : Instr} {name : String} (h : exec i s = evPort name (some t)) (hp : s.portsServe i) :
    exec i s = .next t := by
  unfold State.portsServe at hp
  rw [h] at hp ⊢
  exact evPort_some hp

@[simp] theorem Memory.empty_writeBytes (m : Memory) (a : Nat) (l : List Byte) : (m.writeBytes a l).empty = m.empty := by
  induction l generalizing m a with
  | nil => rfl
  | cons b t ih => exact ih (m.setByte a b) (a + 1)

/-! ### Reads and writes at the homes -/

/-- The bytes that a host read has returned are no part of what reads at the homes touch. -/
theorem upToHomes_hostReply {s t : State} (h : UpToHomes s t) (r : List Byte) :
    UpToHomes { s with hostReply := r } { t with hostReply := r } := by
  unfold UpToHomes at h
  exact congrArg (fun x : State => { x with hostReply := r }) h

theorem upToHomes_migrations {s t : State} (h : UpToHomes s t) : t.migrations = s.migrations := by rw [h]
theorem upToHomes_hostAcks {s t : State} (h : UpToHomes s t) : t.hostAcks = s.hostAcks := by rw [h]
theorem upToHomes_calm {s t : State} (h : UpToHomes s t) (hc : s.calm) : t.calm := by
  unfold State.calm
  rw [upToHomes_accesses h]
  exact hc

namespace State

/-- Writing bytes at a run of keys is one write of the run. -/
theorem bytesAt_run {m : Memory} (h : m.wf = true) (a : Nat) (data : List Byte) :
    bytesAt m ((List.range data.length).map (a + ·)) data = m.writeBytes a data :=
  foldl_run_writeBytes h a data

theorem forward_of_no_migrations {s : State} (h : s.migrations = []) (a : Nat) : s.forward a = a := by
  simp [forward, h]

theorem markBitmap_of_no_migrations {s : State} (h : s.migrations = []) (keys : List Nat) : s.markBitmap keys = s := by
  simp [markBitmap, h]

/-- With no migration running, a write does nothing beside the write itself but what reads at the homes do. -/
theorem homeWrote_homes {s : State} (h : s.migrations = []) (u : HomeUse) (keys words : List Nat) :
    UpToHomes s (s.homeWrote u keys words) := by
  unfold homeWrote
  dsimp only
  generalize ((keys ++ words.map (8 * ·)).filter fun k => !isScratch k) = ks
  have hlines : UpToHomes s ((ks.map lineOf).dedup.foldl (fun s ln => s.writeLine u keys words ln) s) :=
    upToHomes_foldl _ (fun s ln => writeLine_homes s u keys words ln) _ s
  rw [markBitmap_of_no_migrations (by rw [upToHomes_migrations hlines, h])]
  exact upToHomes_trans hlines (touchLines_homes ..)

/-- The same for a write of the front, with nobody waiting. -/
theorem frontWrote_homes {s : State} (h : s.migrations = []) (hc : s.calm) (u : HomeUse) (keys words : List Nat) :
    UpToHomes s (s.frontWrote u keys words) := by
  have hhomes : UpToHomes s ((s.homeWrote u keys words).frontTook u.part keys) :=
    upToHomes_trans (homeWrote_homes h u keys words) (frontTook_homes ..)
  rw [frontWrote, scanKeys_calm (upToHomes_calm hhomes hc)]
  exact hhomes

/-- Bytes put at a run of keys, with no migration running and nobody waiting. -/
theorem putBytes_run_homes {s : State} (hm : s.mem.wf = true) (h : s.migrations = []) (hc : s.calm) (u : HomeUse) (a : Nat)
    (data : List Byte) :
    UpToHomes { s with mem := s.mem.writeBytes a data } (s.putBytes u ((List.range data.length).map (a + ·)) data) := by
  rw [putBytes, bytesAt_run hm]
  exact frontWrote_homes (s := { s with mem := s.mem.writeBytes a data }) h hc u _ []

/-! ### The host's accesses -/

/-- What a host read does at the homes (R293). -/
theorem hostRead_homes (s : State) (u : HomeUse) (keys : List Nat) (lost : Bool) :
    UpToHomes s ((if lost then s.countLost else s).frontReads u keys) := by
  cases lost with
  | false => exact frontReads_homes s u keys
  | true => exact upToHomes_trans (countLost_homes s) (frontReads_homes s.countLost u keys)

/-- A byte of the range is lost. -/
theorem any_lostKey_run (s : State) (a n : Nat) :
    ((List.range n).map (a + ·)).any s.lostKey = true ↔ ∃ i < n, s.lostKey (a + i) = true := by
  simp

end State

theorem hostLinkLoss_noted (s : State) : exec .hostLinkLoss s = .next { s with pf := { s.pf with hostLink := false } } := rfl

/-- A host read of device memory answers with the bytes at the home, and with none where data are lost (R293). -/
theorem hostCxlRead_answers {s : State} {a n : Nat} (hready : s.pf.ready = true) (hlink : s.pf.hostLink = true)
    (hdev : isDevMem a = true) (hn : 0 < n) (hfit : a % 64 + n ≤ 64) (hp : s.portsServe (.hostCxlRead a n)) :
    ∃ t, exec (.hostCxlRead a n) s = .next t ∧ UpToHomes { s with hostReply := t.hostReply } t ∧
      ((¬ ∃ i < n, s.lostKey (s.forward a + i) = true) →
        t.hostReply = (List.range n).map (fun i => s.mem.byte (s.forward a + i))) ∧
      ((∃ i < n, s.lostKey (s.forward a + i) = true) → t.hostReply = []) := by
  have hgo : (s.pf.ready && s.pf.hostLink && isDevMem a && decide (0 < n) && decide (a % 64 + n ≤ 64)) = true := by
    simp [hready, hlink, hdev, hn, hfit]
  have he : exec (.hostCxlRead a n) s = evPort "HOST_CXL_READ" (some _) := congrArg (evPort "HOST_CXL_READ") (if_pos hgo)
  refine ⟨_, exec_of_portsServe he hp, upToHomes_hostReply (State.hostRead_homes s _ _ _) _, fun hok => ?_, fun hlost => ?_⟩
  · rw [← State.any_lostKey_run] at hok
    dsimp only
    rw [if_neg hok, List.map_map]
    rfl
  · exact if_pos ((s.any_lostKey_run _ n).2 hlost)

/-- A host write of device memory takes its place at the home, changes the bytes it names, and is acknowledged when the leases on its
line have passed (R293). -/
theorem hostCxlWrite_performed {s : State} {a : Nat} {data : List Byte} (hm : s.mem.wf = true) (hready : s.pf.ready = true)
    (hlink : s.pf.hostLink = true) (hdev : isDevMem a = true) (hdata : data ≠ []) (hfit : a % 64 + data.length ≤ 64)
    (hmig : s.migrations = []) (hc : s.calm) (hp : s.portsServe (.hostCxlWrite a data)) :
    ∃ t, exec (.hostCxlWrite a data) s = .next t ∧ t.fibres = s.fibres ∧ t.hostAcks = s.hostAcks ++ [max s.time (s.leaseOf a)] ∧
      t.mem = s.mem.writeBytes a data := by
  have hgo : ¬ (!(s.pf.ready && s.pf.hostLink && isDevMem a && !data.isEmpty && decide (a % 64 + data.length ≤ 64))) = true := by
    simp [hready, hlink, hdev, hdata, hfit]
  have he : exec (.hostCxlWrite a data) s = evPort "HOST_CXL_WRITE" (some _) := congrArg (evPort "HOST_CXL_WRITE") (if_neg hgo)
  have hput := State.putBytes_run_homes hm hmig hc (s.hostUse a) a data
  rw [State.forward_of_no_migrations hmig] at he
  have hfibres := upToHomes_fibres hput
  have hacks := upToHomes_hostAcks hput
  have hmem := upToHomes_mem hput
  exact ⟨_, exec_of_portsServe he hp, hfibres, congrArg (· ++ _) hacks, hmem⟩

/-- A snoop of the host writes its line, and the slice gives its copy up (R293). -/
theorem cxlCacheSnoop_performed {s : State} {a : Nat} {data : List Byte} (hlink : s.pf.hostLink = true) (hhost : isHostMem a = true)
    (hfit : a % 64 + data.length ≤ 64) (hc : s.calm) :
    ∃ t, exec (.cxlCacheSnoop a data) s = .next t ∧ t.fibres = s.fibres ∧ (∀ x ∈ t.l2, x.line ≠ a / 64) ∧
      t.mem = s.mem.writeBytes a data := by
  have hgo : ¬ (!(s.pf.hostLink && isHostMem a && decide (a % 64 + data.length ≤ 64))) = true := by
    simp [hlink, hhost, hfit]
  have he : exec (.cxlCacheSnoop a data) s = ev "CXL_CACHE_SNOOP" (some _) := congrArg (ev "CXL_CACHE_SNOOP") (if_neg hgo)
  rw [State.scanKeys_calm] at he
  · exact ⟨_, he, rfl, fun x hx => by simpa using (List.mem_filter.1 hx).2, rfl⟩
  · exact hc

/-! ### The turns of a migration -/

namespace State

variable (s : State) (m : Migration) (p : Nat → Bool)

/-- Lines to a peer change nothing but the link jobs and the identifiers given (R376). -/
theorem putLines_rest : s.putLines m p = { s with linkJobs := (s.putLines m p).linkJobs, nextId := (s.putLines m p).nextId } := by
  unfold putLines
  dsimp only
  split <;> rfl

theorem copyFrame_of_peer (h : localTarget m = false) : s.copyFrame m p = s.putLines m p := by
  simp only [copyFrame, h]
  rfl

/-- Copying lines changes the target frame, what the slices and the errors say of it, and, for a peer, the link jobs. -/
theorem copyFrame_rest : s.copyFrame m p =
    { s with mem := (s.copyFrame m p).mem, l2 := (s.copyFrame m p).l2, badSectors := (s.copyFrame m p).badSectors
             linkJobs := (s.copyFrame m p).linkJobs, nextId := (s.copyFrame m p).nextId } := by
  cases h : localTarget m with
  | true => simp only [copyFrame, h]; rfl
  | false => rw [copyFrame_of_peer s m p h, putLines_rest]

@[simp] theorem copyFrame_fibres : (s.copyFrame m p).fibres = s.fibres := by rw [copyFrame_rest]
@[simp] theorem copyFrame_migrations : (s.copyFrame m p).migrations = s.migrations := by rw [copyFrame_rest]
@[simp] theorem copyFrame_accesses : (s.copyFrame m p).accesses = s.accesses := by rw [copyFrame_rest]

/-- The lines stand in a frame of the module or its host; those to a peer are on their way. -/
theorem copyFrame_mem : (s.copyFrame m p).mem =
    if localTarget m = true then s.mem.copyLines m.old m.new m.size p else s.mem := by
  cases h : localTarget m with
  | true => simp only [copyFrame, h]; rfl
  | false => rw [copyFrame_of_peer s m p h, putLines_rest]; rfl

/-- All lines of a frame leave for a peer in one job (R376). -/
theorem putLines_all (h : 64 ≤ m.size) : ∃ j, (s.putLines m (fun _ => true)).linkJobs = s.linkJobs ++ [j] ∧ j.kind = .put ∧
    j.session = m.new / 2 ^ 58 % 64 ∧
    j.lines = (List.range (m.size / 64)).map (fun i =>
      (m.new % 2 ^ 58 + 64 * i, (List.range 64).map (fun b => s.mem.byte (m.old + 64 * i + b)))) := by
  have hall : (List.range (m.size / 64)).filter (fun _ => true) = List.range (m.size / 64) := by simp
  have hsome : ¬ ((List.range (m.size / 64)).map (fun i =>
      (m.new % 2 ^ 58 + 64 * i, (List.range 64).map (fun b => s.mem.byte (m.old + 64 * i + b))))).isEmpty = true := by
    simp only [List.isEmpty_map, List.isEmpty_iff, List.range_eq_nil]
    omega
  unfold putLines
  dsimp only
  rw [hall, if_neg hsome]
  exact ⟨_, rfl, rfl, rfl, rfl⟩

/-- The copying of a round, or of the freeze: the marked lines go, their bits cleared first (R246). -/
def copyMarked (s : State) (m : Migration) : State := (s.clearBitmap m).copyFrame m (fun i => (s.markedLines m).contains i)

@[simp] theorem copyMarked_fibres : (s.copyMarked m).fibres = s.fibres := copyFrame_fibres ..
@[simp] theorem copyMarked_migrations : (s.copyMarked m).migrations = s.migrations := copyFrame_migrations ..
@[simp] theorem copyMarked_accesses : (s.copyMarked m).accesses = s.accesses := copyFrame_accesses ..
theorem copyMarked_mem : (s.copyMarked m).mem = if localTarget m = true
    then (s.clearBitmap m).mem.copyLines m.old m.new m.size (fun i => (s.markedLines m).contains i) else (s.clearBitmap m).mem :=
  copyFrame_mem ..

theorem freezeDue_iff (k : Nat) : s.freezeDue m k = true ↔ (s.markedLines m).length ≤ Config.migrateLines ∨ 64 ≤ k + 1 := by
  simp [freezeDue]

/-- Where a migration may lead: an aligned frame of the partition, for a checkpoint any of device or host memory, or a window of a
peer that holds it (R246, R376). -/
def FrameTarget (s : State) (part new size : Nat) (checkpoint : Bool) : Prop :=
  (new < 2 ^ 64 ∧ new % size = 0 ∧
    (s.inPartition part new size = true ∨ checkpoint = true ∧ (isDevMem new = true ∨ isHostMem new = true))) ∨
  (2 ^ 64 ≤ new ∧ checkpoint = true ∧ ∃ x, s.session part (new / 2 ^ 58 % 64) = some x ∧ new % 2 ^ 58 + size ≤ x.peerLen)

/-- The state with a migration that starts: on the list, its identifier taken (R246). -/
def startMigration (s : State) (m : Migration) : State := State.bump { s with migrations := s.migrations ++ [m] }

end State

theorem migrationStart_copies {s : State} {part old new size bitmap : Nat} {checkpoint : Bool} {m : Migration}
    (hm : m = { id := s.nextId, part := part, old := old, new := new, size := size, bitmap := bitmap, checkpoint := checkpoint
                phase := .round 0 })
    (hserv : s.serving part = true) (hsize : size ∈ [0x10000, 0x200000, 0x4000000, 0x80000000]) (hold : old % size = 0)
    (hfree : ∀ x ∈ s.migrations, x.old + x.size ≤ old ∨ old + size ≤ x.old) (hin : s.inPartition part old size = true)
    (hbits : s.inGroups part bitmap (size / 512) = true) (htarget : s.FrameTarget part new size checkpoint) :
    exec (.migrationStart part old new size bitmap checkpoint) s =
      .next (((s.startMigration m).clearBitmap m).copyFrame m (fun _ => true)) := by
  have hbusy : s.migrations.any (fun x => decide (old < x.old + x.size) && decide (x.old < old + size)) = false := by
    simp only [List.any_eq_false, Bool.and_eq_true, decide_eq_true_eq]
    intro x hx
    have := hfree x hx
    omega
  change execMigrationStart part old new size bitmap checkpoint s = _
  unfold execMigrationStart
  dsimp only
  rw [← hm, if_neg]
  · rfl
  · rcases htarget with ⟨hlocal, halign, hplace⟩ | ⟨hpeer, hcheck, x, hx, hlen⟩
    · have hto : State.localTarget m = true := by rw [hm]; exact decide_eq_true hlocal
      have hplaceB : (s.inPartition part new size || (checkpoint && (isDevMem new || isHostMem new))) = true := by simpa using hplace
      simp [hto, halign, hserv, hsize, hold, hbusy, hin, hbits, hplaceB]
    · have hto : State.localTarget m = false := by rw [hm]; exact decide_eq_false (Nat.not_lt.2 hpeer)
      simp [-Nat.reducePow, hto, hcheck, hx, hlen, hserv, hsize, hold, hbusy, hin, hbits]

section Turns

variable {s : State} {m : Migration}

theorem migrationRound_copies {k : Nat} (hm : s.migration m.id = some m) (hk : m.phase = .round k) (hdue : s.freezeDue m k = false) :
    exec (.migrationRound m.id) s = .next ((s.copyMarked m).setMigration { m with phase := .round (k + 1) }) := by
  change execMigrationRound m.id s = _
  simp only [execMigrationRound, hm, hk, hdue]
  rfl

theorem migrationFreeze_ends_checkpoint {k : Nat} (hm : s.migration m.id = some m) (hk : m.phase = .round k)
    (hdue : s.freezeDue m k = true) (hc : m.checkpoint = true) :
    exec (.migrationFreeze m.id) s =
      .next { s.copyMarked m with migrations := (s.copyMarked m).migrations.filter (fun x => x.id != m.id) } := by
  change execMigrationFreeze m.id s = _
  simp only [execMigrationFreeze, hm, hk, hdue, hc]
  rfl

theorem migrationFreeze_moves {k : Nat} (hm : s.migration m.id = some m) (hk : m.phase = .round k)
    (hdue : s.freezeDue m k = true) (hc : m.checkpoint = false) :
    exec (.migrationFreeze m.id) s = .next (((s.copyMarked m).carry m).setMigration { m with phase := .forwarding }) := by
  change execMigrationFreeze m.id s = _
  simp only [execMigrationFreeze, hm, hk, hdue, hc]
  rfl

theorem migrationEndForwarding_ends (hm : s.migration m.id = some m) (hf : m.phase = .forwarding) :
    exec (.migrationEndForwarding m.id) s = .next { s with migrations := s.migrations.filter (fun x => x.id != m.id) } := by
  change execMigrationEndForwarding m.id s = _
  simp only [execMigrationEndForwarding, hm, hf]
  rfl

end Turns

/-- Settles O56: the host's accesses by what a write at its home leaves with nobody waiting and no migration running; a migration turn by
turn, each by what copying the lines of a frame leaves. -/
theorem hostAndMigrationComplete : Obligations.HostAndMigrationComplete := by
  unfold Obligations.HostAndMigrationComplete
  refine ⟨fun s a data hlink hwf => ⟨hostLinkLoss_noted s, ?read, ?write, ?snoop⟩, fun s m => ⟨?start, ?turns, ?ended⟩⟩
  case read =>
    intro n hready hdev hn hfit hp
    exact hostCxlRead_answers hready hlink hdev hn hfit hp
  case write =>
    intro hready hdev hdata hfit hmig hc hp
    obtain ⟨t, he, hfibres, hacks, hmem⟩ := hostCxlWrite_performed hwf hready hlink hdev hdata hfit hmig hc hp
    exact ⟨t, he, hfibres, hacks, by rw [hmem, Memory.empty_writeBytes], fun x => by rw [hmem, Memory.byte_writeBytes hwf]⟩
  case snoop =>
    intro hhost hfit hc
    obtain ⟨t, he, hfibres, hl2, hmem⟩ := cxlCacheSnoop_performed hlink hhost hfit hc
    exact ⟨t, he, hfibres, hl2, by rw [hmem, Memory.empty_writeBytes], fun x => by rw [hmem, Memory.byte_writeBytes hwf]⟩
  case start =>
    intro p old new size bits c hserv hsize hold hfree hin hbits m0 cleared
    refine ⟨fun hlocal halign hplace => ?_, fun x hpeer hc hx hlen => ?_⟩
    · have hto : State.localTarget m0 = true := decide_eq_true hlocal
      exact ⟨_, migrationStart_copies rfl hserv hsize hold hfree hin hbits (.inl ⟨hlocal, halign, hplace⟩),
        State.copyFrame_fibres .., State.copyFrame_migrations .., (State.copyFrame_mem ..).trans (if_pos hto)⟩
    · have hto : State.localTarget m0 = false := decide_eq_false (Nat.not_lt.2 hpeer)
      have hlines : 64 ≤ m0.size := by
        change 64 ≤ size
        simp only [List.mem_cons, List.not_mem_nil, or_false] at hsize
        omega
      obtain ⟨j, hj, hkind, hsession, hdata⟩ := State.putLines_all ((s.startMigration m0).clearBitmap m0) m0 hlines
      exact ⟨_, j, migrationStart_copies rfl hserv hsize hold hfree hin hbits (.inr ⟨hpeer, hc, x, hx, hlen⟩),
        State.copyFrame_fibres .., State.copyFrame_migrations ..,
        (State.copyFrame_mem ..).trans (if_neg (Bool.eq_false_iff.1 hto)),
        (congrArg State.linkJobs (State.copyFrame_of_peer _ m0 _ hto)).trans hj, hkind, hsession, hdata⟩
  case turns =>
    intro k hm hk copied moved
    have hmoved : (s.copyMarked m).mem = moved := s.copyMarked_mem m
    refine ⟨fun hmany hrounds => ?_, fun hdue => ?_⟩
    · have hnot : s.freezeDue m k = false := by
        rw [Bool.eq_false_iff, ne_eq, State.freezeDue_iff]
        omega
      exact ⟨_, migrationRound_copies hm hk hnot, State.copyMarked_fibres .., hmoved, rfl,
        congrArg (List.map _) (s.copyMarked_migrations m)⟩
    · have hfreeze : s.freezeDue m k = true := (s.freezeDue_iff m k).2 hdue
      by_cases hc : m.checkpoint = true
      · refine ⟨_, migrationFreeze_ends_checkpoint hm hk hfreeze hc, State.copyMarked_fibres .., hmoved, rfl, ?_⟩
        rw [if_pos hc]
        exact ⟨congrArg (List.filter _) (s.copyMarked_migrations m), State.copyMarked_accesses ..⟩
      · refine ⟨_, migrationFreeze_moves hm hk hfreeze (Bool.eq_false_iff.2 hc), State.copyMarked_fibres .., hmoved, rfl, ?_⟩
        rw [if_neg hc]
        exact ⟨congrArg (List.map _) (s.copyMarked_migrations m), congrArg (List.map _) (s.copyMarked_accesses m)⟩
  case ended => exact migrationEndForwarding_ends

end Sys2Proof.Machine

/-! ## The floating-point words of the ALU pipe

What each leaves before the end of its group (R45, R49, R115, R116, R118, R120). -/

namespace Sys2Proof.Machine

/-- Settles O16: each of the fifteen words is `aluFlags` of the value it names. -/
theorem floatWordsComplete : Obligations.FloatWordsComplete := by
  unfold Obligations.FloatWordsComplete
  intro h d a b x y z
  refine ⟨?_, ?_, ?_, ?_, ?_, ?_, ?_, ?_, ?_, ?_, ?_, ?_, ?_, ?_, ?_⟩ <;> exact aluFlags_floatWord _ h d _ fun _ => rfl

end Sys2Proof.Machine

/-! ## Special values of floating-point arithmetic

NaNs, infinities and zeros as operands (R46 to R50, R115, R123, R124). -/

namespace Sys2Proof.Machine

namespace FVal

theorem eq_nan_of_isNan {v : FVal} (h : v.isNan = true) : ∃ x, v = .nan x :=
  match v, h with
  | .nan x, _ => ⟨x, rfl⟩

@[simp] theorem isNan_neg (v : FVal) : v.neg.isNan = v.isNan := by cases v <;> rfl
@[simp] theorem isSnan_neg (v : FVal) : v.neg.isSnan = v.isSnan := by cases v <;> rfl

end FVal

/-! ### A NaN operand (R46, R47) -/

/-- What an operation does with a NaN operand, on either side, it does with every pair of operands of which one is a NaN. -/
theorem nan_operand {β : Type} {op r : FVal → FVal → β} (hleft : ∀ x b, op (.nan x) b = r (.nan x) b)
    (hright : ∀ a y, op a (.nan y) = r a (.nan y)) {a b : FVal} (h : a.isNan = true ∨ b.isNan = true) : op a b = r a b := by
  rcases h with h | h
  · obtain ⟨x, rfl⟩ := FVal.eq_nan_of_isNan h
    exact hleft x b
  · obtain ⟨y, rfl⟩ := FVal.eq_nan_of_isNan h
    exact hright a y

section
variable {f : Fmt} {rm : RMode} {a b : FVal}

theorem addVal_of_nan (h : a.isNan = true ∨ b.isNan = true) : addVal f rm a b = nanResult f (a.isSnan || b.isSnan) :=
  nan_operand (op := addVal f rm) (r := fun a b => nanResult f (a.isSnan || b.isSnan)) (fun _ _ => rfl)
    (fun a _ => by cases a <;> rfl) h

theorem mulVal_of_nan (h : a.isNan = true ∨ b.isNan = true) : mulVal a b = (.nan false, a.isSnan || b.isSnan) :=
  nan_operand (op := mulVal) (r := fun a b => (.nan false, a.isSnan || b.isSnan)) (fun _ _ => rfl)
    (fun a _ => by cases a <;> rfl) h

theorem divVal_of_nan (h : a.isNan = true ∨ b.isNan = true) : divVal f rm a b = nanResult f (a.isSnan || b.isSnan) :=
  nan_operand (op := divVal f rm) (r := fun a b => nanResult f (a.isSnan || b.isSnan)) (fun _ _ => rfl)
    (fun a _ => by cases a <;> rfl) h

end

theorem fMul_of_invalid {f : Fmt} {rm : RMode} {a b : Nat} {q inv : Bool} (h : mulVal (unpack f a) (unpack f b) = (.nan q, inv)) :
    fMul f rm a b = nanResult f inv := by
  rw [fMul, h]

/-! ### Infinities and zeros (R49, R115, R123, R124) -/

section
variable (f : Fmt) (rm : RMode) (sa sb : Bool) (m : Nat) (e e' : Int)

theorem addVal_inf_neg_inf : addVal f rm (.inf sa) (.inf (!sa)) = nanResult f true := by cases sa <;> rfl
theorem divVal_inf_inf : divVal f rm (.inf sa) (.inf sb) = nanResult f true := rfl
theorem mulVal_inf_zero : mulVal (.inf sa) (.fin sb 0 e) = (.nan false, true) := rfl
theorem divVal_zero_zero : divVal f rm (.fin sa 0 e) (.fin sb 0 e') = nanResult f true := rfl
theorem divVal_number_zero : divVal f rm (.fin sa (m + 1) e) (.fin sb 0 e') = (f.inf (sa != sb), .divZero) := rfl

end

theorem fSqrt_of_negative {f : Fmt} {rm : RMode} {a m : Nat} {e : Int} (h : unpack f a = .fin true (m + 1) e) :
    fSqrt f rm a = nanResult f true := by
  rw [fSqrt, h]
  rfl

/-- The canonical NaN of binary32, and its invalid flag (R44, R50). -/
theorem nanResult_f32 (inv : Bool) : nanResult .f32 inv = (0x7FC00000, if inv then 1 else 0) := rfl

theorem inf_f32_of_signs (sa sb : Bool) : Fmt.f32.inf (sa != sb) = if sa = sb then 0x7F800000 else 0xFF800000 := by
  cases sa <;> cases sb <;> rfl

/-- Settles O20: one rule per special case, each at the operands' values, whatever the rounding mode. -/
theorem specialValuesOfArithmetic : Obligations.SpecialValuesOfArithmetic := by
  unfold Obligations.SpecialValuesOfArithmetic
  intro rm a b va vb
  refine ⟨fun h => ⟨?add, ?sub, ?mul, ?div⟩, fun sa ha hb => ?infMinusInf, fun sa sb ha hb => ?infByInf,
    fun sa sb e ha hb => ?infTimesZero, fun sa sb e e' ha hb => ?zeroByZero, fun sa sb m e e' ha hb => ?byZero, fun m e ha => ?sqrt⟩
  case add => exact addVal_of_nan h
  case sub =>
    have hneg : va.isNan = true ∨ vb.neg.isNan = true := by rwa [FVal.isNan_neg]
    exact (addVal_of_nan hneg).trans (by rw [FVal.isSnan_neg, nanResult_f32])
  case mul => exact fMul_of_invalid (mulVal_of_nan h)
  case div => exact divVal_of_nan h
  case infMinusInf => exact (congrArg₂ (addVal .f32 rm) ha hb).trans (addVal_inf_neg_inf .f32 rm sa)
  case infByInf => exact (congrArg₂ (divVal .f32 rm) ha hb).trans (divVal_inf_inf .f32 rm sa sb)
  case infTimesZero => exact fMul_of_invalid ((congrArg₂ mulVal ha hb).trans (mulVal_inf_zero sa sb e))
  case zeroByZero => exact (congrArg₂ (divVal .f32 rm) ha hb).trans (divVal_zero_zero .f32 rm sa sb e e')
  case byZero =>
    exact ((congrArg₂ (divVal .f32 rm) ha hb).trans (divVal_number_zero .f32 rm sa sb m e e')).trans
      (congrArg (·, Flags.divZero) (inf_f32_of_signs sa sb))
  case sqrt => exact fSqrt_of_negative ha

end Sys2Proof.Machine

/-! ## Rounding to nearest even in binary32

The nearest number of units of the value's own grid is the nearest binary32 number (R48 to R50). -/

namespace Sys2Proof.Machine

/-! ### Rounding to an integer -/

/-- No integer is nearer to `y` than `r`. -/
def NearestInt (r : Nat) (y : ℚ) : Prop := ∀ j : Int, |(r : ℚ) - y| ≤ |(j : ℚ) - y|

namespace NearestInt
variable {r c : Nat} {y : ℚ}

theorem of_within_half (h : |(r : ℚ) - y| ≤ 1 / 2) : NearestInt r y := by
  intro j
  by_cases hj : j = r
  · rw [hj, Int.cast_natCast]
  · have hone : (1 : ℚ) ≤ |(j : ℚ) - r| := by exact_mod_cast Int.one_le_abs (sub_ne_zero.2 hj)
    have htri : |(j : ℚ) - r| ≤ |(j : ℚ) - y| + |(r : ℚ) - y| := abs_sub_comm (r : ℚ) y ▸ abs_sub_le (j : ℚ) y r
    linarith

/-- The nearest integer stays between integer bounds of the number. -/
theorem le_of_le (h : NearestInt r y) (hy : y ≤ c) : r ≤ c := by
  by_contra hlt
  have hcr : (c : ℚ) < r := by exact_mod_cast not_le.1 hlt
  have hc := h c
  rw [Int.cast_natCast, abs_of_nonneg (by linarith), abs_of_nonneg (by linarith)] at hc
  linarith

theorem ge_of_ge (h : NearestInt r y) (hy : (c : ℚ) ≤ y) : c ≤ r := by
  by_contra hlt
  have hrc : (r : ℚ) < c := by exact_mod_cast not_le.1 hlt
  have hc := h c
  rw [Int.cast_natCast, abs_of_nonpos (by linarith), abs_of_nonpos (by linarith)] at hc
  linarith

end NearestInt

theorem roundShift_rne_of_nonpos (s : Bool) (m : Nat) {sh : Int} (h : sh ≤ 0) :
    roundShift .rne s m sh false = (m * 2 ^ (-sh).toNat, false) := by
  simp [roundShift, h]

/-- Dropping k + 1 bits to nearest even errs by at most half a unit, and is inexact where it errs (R48). -/
theorem roundShift_rne_drop (s : Bool) (m k : Nat) :
    let r := roundShift .rne s m ((k : Int) + 1) false
    m ≤ r.1 * 2 ^ (k + 1) + 2 ^ k ∧ r.1 * 2 ^ (k + 1) ≤ m + 2 ^ k ∧ (r.2 = true ↔ r.1 * 2 ^ (k + 1) ≠ m) := by
  have hpos : ¬ ((k : Int) + 1 ≤ 0) := by omega
  have hk : ((k : Int) + 1).toNat = k + 1 := rfl
  have hhalf : 0 < 2 ^ k := Nat.two_pow_pos k
  have hunit : 2 ^ (k + 1) = 2 * 2 ^ k := by rw [Nat.pow_succ, Nat.mul_comm]
  have hm : m / 2 ^ (k + 1) * 2 ^ (k + 1) + m % 2 ^ (k + 1) = m := by rw [Nat.mul_comm]; exact Nat.div_add_mod ..
  have hrem : m % 2 ^ (k + 1) < 2 ^ (k + 1) := Nat.mod_lt _ (Nat.two_pow_pos _)
  simp only [roundShift, if_neg hpos, hk, Nat.add_sub_cancel, Bool.or_false, Bool.false_or, bne_iff_ne,
    Bool.or_eq_true, decide_eq_true_eq, Bool.and_eq_true, beq_iff_eq]
  generalize m % 2 ^ (k + 1) = rem at *
  split
  next hup =>
    have : 2 ^ k ≤ rem := by omega
    rw [Nat.succ_mul]
    omega
  next hup =>
    have : rem ≤ 2 ^ k := by omega
    omega

/-- Rounding m * 2^e to a whole number of units 2^q takes the nearest one, and is inexact where that errs (R48, R50). -/
theorem roundShift_rne_nearest (s : Bool) (m : Nat) (q e : Int) :
    let r := roundShift .rne s m (q - e) false
    NearestInt r.1 (m * (2 : ℚ) ^ (e - q)) ∧ (r.2 = true ↔ (r.1 : ℚ) ≠ m * (2 : ℚ) ^ (e - q)) := by
  intro r
  rcases le_or_gt (q - e) 0 with h | h
  · have hr : r = _ := roundShift_rne_of_nonpos s m h
    have hexact : (r.1 : ℚ) = m * (2 : ℚ) ^ (e - q) := by
      have hpow : (e - q) = ((-(q - e)).toNat : Int) := by omega
      rw [hr, hpow, zpow_natCast]
      push_cast
      rfl
    exact ⟨.of_within_half (by rw [hexact]; norm_num), iff_of_false (by simp [hr]) (not_not.2 hexact)⟩
  · obtain ⟨k, hk⟩ : ∃ k : Nat, q - e = (k : Int) + 1 := ⟨(q - e - 1).toNat, by omega⟩
    have hr : r = roundShift .rne s m ((k : Int) + 1) false := by rw [← hk]
    obtain ⟨hlow, hhigh, hinexact⟩ := roundShift_rne_drop s m k
    rw [← hr] at hlow hhigh hinexact
    have hu : (0 : ℚ) < 2 ^ k := by positivity
    have hy : (m : ℚ) = m * (2 : ℚ) ^ (e - q) * 2 ^ (k + 1) := by
      have : (2 : ℚ) ^ (e - q) * 2 ^ (k + 1) = 1 := by
        rw [← zpow_natCast, ← zpow_add₀ two_ne_zero]
        have : e - q + ((k + 1 : Nat) : Int) = 0 := by push_cast; omega
        rw [this, zpow_zero]
      rw [mul_assoc, this, mul_one]
    generalize (m : ℚ) * (2 : ℚ) ^ (e - q) = y at hy ⊢
    have hlow' : (m : ℚ) ≤ r.1 * 2 ^ (k + 1) + 2 ^ k := by exact_mod_cast hlow
    have hhigh' : (r.1 : ℚ) * 2 ^ (k + 1) ≤ m + 2 ^ k := by exact_mod_cast hhigh
    rw [hy, pow_succ] at hlow' hhigh'
    refine ⟨.of_within_half (abs_le.2 ⟨?_, ?_⟩), hinexact.trans (not_congr ?_)⟩
    · exact le_of_mul_le_mul_right (by linarith) hu
    · exact le_of_mul_le_mul_right (by linarith) hu
    · rw [← @Nat.cast_inj ℚ, Nat.cast_mul, hy]
      push_cast
      exact mul_left_inj' (by positivity)

/-! ### The length of a number in bits -/

theorem two_pow_le_of_bitLen {m : Nat} (hm : m ≠ 0) : 2 ^ (bitLen m - 1) ≤ m := by
  rw [bitLen, if_neg hm]
  exact Nat.log2_self_le hm

theorem bitLen_pos {m : Nat} (hm : m ≠ 0) : 0 < bitLen m := by
  rw [bitLen, if_neg hm]
  exact Nat.succ_pos _

theorem lt_two_pow_bitLen {m : Nat} (hm : m ≠ 0) : m < 2 ^ bitLen m := by
  rw [bitLen, if_neg hm]
  exact Nat.lt_log2_self

/-! ### Encodings of binary32 -/

namespace Fmt

@[simp] theorem f32_fb : f32.fb = 23 := rfl
@[simp] theorem f32_eb : f32.eb = 8 := rfl
@[simp] theorem f32_qmin : f32.qmin = -149 := rfl
@[simp] theorem f32_signBit : f32.signBit = 2 ^ 31 := rfl
theorem f32_infBits : f32.infBits = 255 * 2 ^ 23 := rfl

theorem f32_signed (s : Bool) (x : Nat) : f32.signed s x = s.toNat * 2 ^ 31 + x := by cases s <;> simp [signed]

end Fmt

/-- The binary32 numbers (R44): below 2^24 units of an exponent from -149 up. -/
theorem unpack_f32_fin {z m : Nat} {s : Bool} {e : Int} (h : unpack .f32 z = .fin s m e) : m < 2 ^ 24 ∧ -149 ≤ e := by
  simp only [unpack, Fmt.f32_qmin, Fmt.f32_fb, Fmt.f32_eb, Fmt.f32_signBit, beq_iff_eq] at h
  have hfr : z % 2 ^ 23 < 2 ^ 23 := Nat.mod_lt _ (by omega)
  split at h
  · split at h <;> cases h
  · split at h
    · cases h
      omega
    · cases h
      omega

/-- A finite magnitude with a sign is read back (R44). -/
theorem unpack_f32_signed (s : Bool) {x : Nat} (hx : x < Fmt.f32.infBits) : unpack .f32 (Fmt.f32.signed s x) =
    if x / 2 ^ 23 = 0 then .fin s (x % 2 ^ 23) (-149) else .fin s (2 ^ 23 + x % 2 ^ 23) (-149 + ((x / 2 ^ 23 : Nat) - 1)) := by
  have hinf := Fmt.f32_infBits
  have hsigned := Fmt.f32_signed s x
  have hs : s.toNat < 2 := s.toNat_lt
  have hsign : (Fmt.f32.signed s x / 2 ^ 31 % 2 == 1) = s := by
    have htop : Fmt.f32.signed s x / 2 ^ 31 % 2 = s.toNat := by omega
    rw [htop]
    cases s <;> rfl
  have hex : Fmt.f32.signed s x / 2 ^ 23 % 2 ^ 8 = x / 2 ^ 23 := by omega
  have hfr : Fmt.f32.signed s x % 2 ^ 23 = x % 2 ^ 23 := by omega
  have hfin : x / 2 ^ 23 ≠ 2 ^ 8 - 1 := by omega
  simp only [unpack, Fmt.f32_qmin, Fmt.f32_fb, Fmt.f32_eb, Fmt.f32_signBit, hsign, hex, hfr, beq_iff_eq, if_neg hfin]

/-- The encoding that rounding builds from r units of 2^(k - 149) reads as that value, also where r has rounded up to 2^24. -/
theorem unpack_f32_units (s : Bool) {k r : Nat} (hr : r ≤ 2 ^ 24) (hk : k = 0 ∨ 2 ^ 23 ≤ r)
    (hfin : k * 2 ^ 23 + r < Fmt.f32.infBits) : ∃ m e, unpack .f32 (Fmt.f32.signed s (k * 2 ^ 23 + r)) = .fin s m e ∧
      (m : ℚ) * 2 ^ e = r * 2 ^ ((k : Int) - 149) := by
  rw [unpack_f32_signed s hfin]
  split
  next hsub =>
    have hk0 : k = 0 := by omega
    have hrm : (k * 2 ^ 23 + r) % 2 ^ 23 = r := by omega
    exact ⟨_, _, rfl, by rw [hrm, hk0]; rfl⟩
  next hnorm =>
    rcases Nat.lt_or_eq_of_le hr with hlt | rfl
    · have hm : 2 ^ 23 + (k * 2 ^ 23 + r) % 2 ^ 23 = r := by omega
      have he : -149 + (((k * 2 ^ 23 + r) / 2 ^ 23 : Nat) - 1) = (k : Int) - 149 := by omega
      exact ⟨_, _, rfl, by rw [hm, he]⟩
    · have hm : 2 ^ 23 + (k * 2 ^ 23 + 2 ^ 24) % 2 ^ 23 = 2 ^ 23 := by omega
      have he : -149 + (((k * 2 ^ 23 + 2 ^ 24) / 2 ^ 23 : Nat) - 1) = (k : Int) - 149 + 1 := by omega
      refine ⟨_, _, rfl, ?_⟩
      rw [hm, he, zpow_add_one₀ two_ne_zero]
      push_cast
      ring

/-! ### Rounding to binary32 -/

/-- The exponent of the unit to which m * 2^e is rounded in binary32: 24 significant bits, and no unit below 2^-149. -/
def unitExp32 (m : Nat) (e : Int) : Int := max (e + bitLen m - 24) (-149)

theorem unpack_f32_inf (s : Bool) : unpack .f32 (Fmt.f32.signed s Fmt.f32.infBits) = .inf s := by
  cases s <;> decide

/-- A finite result raises inexact where it differs from the value, whether or not it is tiny (R50). -/
theorem inexact_of_finite_flags (tiny inexact : Bool) :
    ((if inexact then .inexact else .none : Flags) ||| (if tiny && inexact then .underflow else .none)).getLsbD 4 = inexact := by
  cases tiny <;> cases inexact <;> rfl

/-- A finite result to nearest even puts the rounded number of units under the exponent of the unit; inexact is that of the rounding. -/
theorem roundTo_f32_rne_of_finite {s sr : Bool} {m mr : Nat} {e er : Int} (hm : m ≠ 0)
    (hfin : unpack .f32 (roundTo .f32 .rne s m e false).1 = .fin sr mr er) :
    let r := roundShift .rne s m (unitExp32 m e - e) false
    let x := (unitExp32 m e + 149).toNat * 2 ^ 23 + r.1
    x < Fmt.f32.infBits ∧ (roundTo .f32 .rne s m e false).1 = Fmt.f32.signed s x ∧
      (roundTo .f32 .rne s m e false).2.getLsbD 4 = r.2 := by
  intro r x
  have hm0 : ¬ ((m == 0 && !false) = true) := by simpa using hm
  have hq : max (e + bitLen m - ((Fmt.f32.fb + 1 : Nat) : Int)) Fmt.f32.qmin = unitExp32 m e := rfl
  have hx : (unitExp32 m e - Fmt.f32.qmin).toNat * 2 ^ Fmt.f32.fb + r.1 = x := by
    rw [Fmt.f32_qmin, Fmt.f32_fb, sub_neg_eq_add]
  have hbeyond : ¬ Fmt.f32.infBits ≤ x := by
    intro hover
    rw [roundTo, if_neg hm0] at hfin
    simp only [hq] at hfin
    rw [hx, if_pos hover, if_pos trivial, unpack_f32_inf] at hfin
    cases hfin
  rw [roundTo, if_neg hm0]
  simp only [hq]
  rw [hx, if_neg hbeyond]
  exact ⟨not_le.1 hbeyond, rfl, inexact_of_finite_flags _ _⟩

theorem mul_two_zpow_split (m : ℚ) (e q : Int) : m * 2 ^ e = m * 2 ^ (e - q) * 2 ^ q := by
  rw [mul_assoc, ← zpow_add₀ two_ne_zero, sub_add_cancel]

/-- The number of units: at most 2^24, and 2^23 at least unless the unit is the smallest there is. -/
theorem value_in_units32 {m : Nat} (hm : m ≠ 0) (e : Int) : (m : ℚ) * 2 ^ (e - unitExp32 m e) ≤ (2 ^ 24 : Nat) ∧
    (unitExp32 m e = -149 ∨ ((2 ^ 23 : Nat) : ℚ) ≤ m * 2 ^ (e - unitExp32 m e)) := by
  have hlow : (2 : ℚ) ^ ((bitLen m : Int) - 1) ≤ m := by
    have hsub : (bitLen m : Int) - 1 = ((bitLen m - 1 : Nat) : Int) := by have := bitLen_pos hm; omega
    rw [hsub, zpow_natCast]
    exact_mod_cast two_pow_le_of_bitLen hm
  have hhigh : (m : ℚ) ≤ 2 ^ (bitLen m : Int) := by
    rw [zpow_natCast]
    exact_mod_cast (lt_two_pow_bitLen hm).le
  constructor
  · calc (m : ℚ) * 2 ^ (e - unitExp32 m e)
      _ ≤ 2 ^ (bitLen m : Int) * 2 ^ (e - unitExp32 m e) := by gcongr
      _ = 2 ^ (bitLen m + (e - unitExp32 m e)) := (zpow_add₀ two_ne_zero _ _).symm
      _ ≤ 2 ^ (24 : Int) := zpow_le_zpow_right₀ one_le_two (by unfold unitExp32; omega)
      _ = (2 ^ 24 : Nat) := by norm_num
  · refine (le_or_gt (unitExp32 m e) (-149)).imp (fun h => le_antisymm h (le_max_right _ _)) fun h => ?_
    have hq : unitExp32 m e = e + bitLen m - 24 := by unfold unitExp32 at h ⊢; omega
    calc ((2 ^ 23 : Nat) : ℚ)
      _ = 2 ^ (23 : Int) := by norm_num
      _ = 2 ^ ((bitLen m : Int) - 1 + (e - unitExp32 m e)) := by congr 1; omega
      _ = 2 ^ ((bitLen m : Int) - 1) * 2 ^ (e - unitExp32 m e) := zpow_add₀ two_ne_zero _ _
      _ ≤ m * 2 ^ (e - unitExp32 m e) := by gcongr

/-- No binary32 number is nearer to a value than the nearest multiple of the value's unit (R48). One whose own unit is finer is no
multiple, but it lies below 2^23 units, and so does not reach the value's side of that multiple. -/
theorem NearestInt.nearest_f32 {m r mz : Nat} {e ez : Int} (hm : m ≠ 0) (h : NearestInt r (m * 2 ^ (e - unitExp32 m e)))
    {w : ℚ} (hw : |w| = mz * 2 ^ ez) (hmz : mz < 2 ^ 24) (hez : -149 ≤ ez) :
    |(r : ℚ) * 2 ^ unitExp32 m e - m * 2 ^ e| ≤ |w - m * 2 ^ e| := by
  obtain ⟨-, hlow⟩ := value_in_units32 hm e
  generalize unitExp32 m e = q at *
  have hu : (0 : ℚ) < 2 ^ q := by positivity
  rw [mul_two_zpow_split m e q]
  generalize (m : ℚ) * 2 ^ (e - q) = y at *
  have hgrid : ∀ j : Int, |(r : ℚ) * 2 ^ q - y * 2 ^ q| ≤ |j * 2 ^ q - y * 2 ^ q| := by
    intro j
    rw [← sub_mul, ← sub_mul, abs_mul, abs_mul]
    exact mul_le_mul_of_nonneg_right (h j) (abs_nonneg _)
  rcases le_or_gt q ez with hq | hq
  · obtain ⟨n, rfl⟩ := Int.le.dest hq
    have hmul : |w| = ((mz * 2 ^ n : Int) : ℚ) * 2 ^ q := by
      rw [hw, zpow_add₀ two_ne_zero, zpow_natCast]
      push_cast
      ring
    rcases eq_or_eq_neg_of_abs_eq hmul with rfl | rfl
    · exact hgrid _
    · rw [← neg_mul, ← Int.cast_neg]
      exact hgrid _
  · have hnorm : ((2 ^ 23 : Nat) : ℚ) ≤ y := hlow.resolve_left (by omega)
    have hbelow : |w| ≤ ((2 ^ 23 : Nat) : ℚ) * 2 ^ q :=
      calc |w| = mz * 2 ^ ez := hw
        _ ≤ ((2 ^ 24 : Nat) : ℚ) * 2 ^ (q - 1) := by
          gcongr
          · exact one_le_two
          · omega
        _ = ((2 ^ 23 : Nat) : ℚ) * 2 ^ q := by
          rw [zpow_sub_one₀ two_ne_zero]
          push_cast
          ring
    have hsmallest : ((2 ^ 23 : Nat) : ℚ) * 2 ^ q ≤ y * 2 ^ q := by gcongr
    calc |(r : ℚ) * 2 ^ q - y * 2 ^ q|
      _ ≤ |((2 ^ 23 : Nat) : Int) * 2 ^ q - y * 2 ^ q| := hgrid _
      _ = y * 2 ^ q - ((2 ^ 23 : Nat) : ℚ) * 2 ^ q := by
        rw [Int.cast_natCast, abs_of_nonpos (sub_nonpos.2 hsmallest), neg_sub]
      _ ≤ y * 2 ^ q - w := by linarith [le_abs_self w]
      _ ≤ |w - y * 2 ^ q| := by rw [abs_sub_comm]; exact le_abs_self _

/-- A magnitude with a sign as a number. -/
def signedRat (s : Bool) (x : ℚ) : ℚ := (if s then -1 else 1) * x

theorem abs_signedRat (s : Bool) (x : ℚ) : |signedRat s x| = |x| := by cases s <;> simp [signedRat]
theorem signedRat_inj {s : Bool} {x y : ℚ} : signedRat s x = signedRat s y ↔ x = y := by cases s <;> simp [signedRat]

/-- A distance between numbers stays when both change sign. -/
theorem abs_sub_signedRat (s : Bool) (w x : ℚ) : |w - signedRat s x| = |signedRat s w - x| := by
  cases s
  · simp [signedRat]
  · rw [← abs_neg]
    congr 1
    simp [signedRat]
    ring

theorem signedRat_signedRat (s : Bool) (x : ℚ) : signedRat s (signedRat s x) = x := by cases s <;> simp [signedRat]

/-- The finite result of rounding to nearest even in binary32: the nearest number of units, inexact where that errs (R48, R50). -/
theorem roundTo_f32_rne_value {s sr : Bool} {m mr : Nat} {e er : Int} (hm : m ≠ 0)
    (hfin : unpack .f32 (roundTo .f32 .rne s m e false).1 = .fin sr mr er) :
    ∃ r : Nat, NearestInt r (m * 2 ^ (e - unitExp32 m e)) ∧ sr = s ∧ (mr : ℚ) * 2 ^ er = r * 2 ^ unitExp32 m e ∧
      ((roundTo .f32 .rne s m e false).2.getLsbD 4 = true ↔ (mr : ℚ) * 2 ^ er ≠ m * 2 ^ e) := by
  obtain ⟨hlt, hbits, hflag⟩ := roundTo_f32_rne_of_finite hm hfin
  obtain ⟨hnear, hinexact⟩ := roundShift_rne_nearest s m (unitExp32 m e) e
  obtain ⟨hhigh, hlow⟩ := value_in_units32 hm e
  have hq : -149 ≤ unitExp32 m e := le_max_right _ _
  generalize roundShift .rne s m (unitExp32 m e - e) false = r at *
  have hk : (unitExp32 m e + 149).toNat = 0 ∨ 2 ^ 23 ≤ r.1 := hlow.imp (fun h => by rw [h]; rfl) hnear.ge_of_ge
  obtain ⟨m', e', hread, hval⟩ := unpack_f32_units s (hnear.le_of_le hhigh) hk hlt
  have hexp : (((unitExp32 m e + 149).toNat : Nat) : Int) - 149 = unitExp32 m e := by omega
  rw [hexp] at hval
  rw [hbits, hread] at hfin
  obtain ⟨rfl, rfl, rfl⟩ := FVal.fin.inj hfin
  refine ⟨r.1, hnear, rfl, hval, ?_⟩
  rw [hflag, hinexact, hval, mul_two_zpow_split m e (unitExp32 m e)]
  exact not_congr (mul_left_inj' (zpow_ne_zero _ two_ne_zero)).symm

theorem roundTo_f32_rne_zero (s : Bool) (e : Int) : roundTo .f32 .rne s 0 e false = (Fmt.f32.signed s 0, .none) := rfl

theorem unpack_f32_zero (s : Bool) : unpack .f32 (Fmt.f32.signed s 0) = .fin s 0 (-149) :=
  unpack_f32_signed s (x := 0) (by decide)

/-- Settles O21: a finite result is the nearest number of the value's units, and no other binary32 number is nearer. -/
theorem roundingIsNearest : Obligations.RoundingIsNearest := by
  unfold Obligations.RoundingIsNearest
  intro s m e exact r sr mr er hfin v
  have hexact : exact = signedRat s (m * 2 ^ e) := mul_assoc _ _ _
  have hv : v = signedRat sr (mr * 2 ^ er) := mul_assoc _ _ _
  rcases eq_or_ne m 0 with rfl | hm
  · have hr : r = (Fmt.f32.signed s 0, .none) := roundTo_f32_rne_zero s e
    rw [hr, unpack_f32_zero] at hfin
    obtain ⟨rfl, rfl, rfl⟩ := FVal.fin.inj hfin
    have hsame : v = exact := by simp [hv, hexact]
    have hflag : r.2.getLsbD 4 = false := by rw [hr]; exact BitVec.getLsbD_zero
    refine ⟨iff_of_false (Bool.eq_false_iff.1 hflag) (not_not.2 hsame), fun _ _ _ _ _ => ?_⟩
    rw [hsame, sub_self, abs_zero]
    exact abs_nonneg _
  · obtain ⟨n, hnear, rfl, hval, hflag⟩ := roundTo_f32_rne_value hm hfin
    refine ⟨by rw [hv, hexact, ne_eq, signedRat_inj]; exact hflag, fun z sz mz ez hz => ?_⟩
    obtain ⟨hmz, hez⟩ := unpack_f32_fin hz
    rw [mul_assoc _ (mz : ℚ), hv, hexact, abs_sub_signedRat, abs_sub_signedRat, signedRat_signedRat, hval]
    refine hnear.nearest_f32 hm ?_ hmz hez
    rw [abs_signedRat]
    exact (abs_signedRat sz _).trans (abs_of_nonneg (by positivity))

end Sys2Proof.Machine

/-! ## Integer reductions

The tree of RED and the reduction in lane order (R60, R92). -/

namespace Sys2Proof.Machine

/-- An operation of RED whose results read, through `φ`, as `g` of its operands: `g` does not depend on the grouping, and a fold of it
begins with `e` (R92). -/
structure RedFold {β : Type} (o : Nat) (φ : Word → β) (g : β → β → β) (e : β) : Prop where
  op : ∀ x y, φ (redOp o x y).1 = g (φ x) (φ y)
  assoc : ∀ a b c, g (g a b) c = g a (g b c)
  first : ∀ x, g e (φ x) = φ x

/-- A level of the tree halves the number of values (R60). -/
theorem redLevel_length (o : Nat) {n : Nat} {l : List Word} (hl : l.length = 2 * n) : (redLevel o l).1.length = n := by
  induction n generalizing l with
  | zero => rw [List.length_eq_zero_iff.1 hl]; rfl
  | succ n ih =>
    match l, hl with
    | x :: y :: t, hl => exact congrArg (· + 1) (ih (by simp only [List.length_cons] at hl; omega))

section RedFold
variable {β : Type} {o : Nat} {φ : Word → β} {g : β → β → β} {e : β}

/-- A level of the tree leaves the reduction in lane order as it is. -/
theorem RedFold.foldl_redLevel (h : RedFold o φ g e) (l : List Word) (b : β) :
    (redLevel o l).1.foldl (fun a x => g a (φ x)) b = l.foldl (fun a x => g a (φ x)) b := by
  induction l using List.twoStepInduction generalizing b with
  | nil | singleton x => rfl
  | cons_cons x y t ih _ => simp only [redLevel, List.foldl_cons, ih, h.op, h.assoc]

/-- n levels over 2^n values give the reduction in lane order (R60). -/
theorem RedFold.redTree_eq_foldl (h : RedFold o φ g e) {n : Nat} {l : List Word} (hl : l.length = 2 ^ n) :
    φ (redTree o n l).1 = l.foldl (fun a x => g a (φ x)) e := by
  induction n generalizing l with
  | zero =>
    obtain ⟨x, rfl⟩ := List.length_eq_one_iff.1 hl
    exact (h.first x).symm
  | succ n ih =>
    have hhalf : (redLevel o l).1.length = 2 ^ n := redLevel_length o (by rw [hl, Nat.pow_succ, Nat.mul_comm])
    exact (ih hhalf).trans (h.foldl_redLevel l e)

end RedFold

/-- The integer operations raise no flag (R92). -/
theorem redOp_integer_flags {o : Nat} (ho : o < 8) (x y : Word) : (redOp o x y).2 = 0 := by
  interval_cases o <;> rfl

theorem redLevel_integer_flags {o : Nat} (ho : o < 8) (l : List Word) : (redLevel o l).2 = 0 := by
  induction l using List.twoStepInduction with
  | nil | singleton x => rfl
  | cons_cons x y t ih _ => simp only [redLevel, redOp_integer_flags ho, ih]; rfl

theorem redTree_integer_flags {o : Nat} (ho : o < 8) (n : Nat) (l : List Word) : (redTree o n l).2 = 0 := by
  induction n generalizing l with
  | zero => rfl
  | succ n ih => simp only [redTree, redLevel_integer_flags ho, ih]; rfl

/-! ### The eight integer operations -/

theorem redFold_sum : RedFold 0 id (· + ·) 0 := ⟨fun _ _ => rfl, BitVec.add_assoc, BitVec.zero_add⟩
theorem redFold_and : RedFold 1 id (· &&& ·) 0xFFFFFFFF := ⟨fun _ _ => rfl, BitVec.and_assoc, fun _ => BitVec.allOnes_and⟩
theorem redFold_or : RedFold 2 id (· ||| ·) 0 := ⟨fun _ _ => rfl, BitVec.or_assoc, fun _ => BitVec.zero_or⟩
theorem redFold_xor : RedFold 3 id (· ^^^ ·) 0 := ⟨fun _ _ => rfl, BitVec.xor_assoc, fun _ => BitVec.zero_xor⟩

theorem redFold_minS : RedFold 4 BitVec.toInt min (2 ^ 31 - 1) where
  op x y := by simp only [redOp, BitVec.sle_iff_toInt_le, apply_ite BitVec.toInt, min_def]
  assoc := min_assoc
  first x := min_eq_right (by have := BitVec.toInt_lt (x := x); omega)

theorem redFold_minN : RedFold 5 BitVec.toNat min (2 ^ 32 - 1) where
  op x y := by simp only [redOp, BitVec.ule_iff_toNat_le, apply_ite BitVec.toNat, min_def]
  assoc := min_assoc
  first x := min_eq_right (Nat.le_sub_one_of_lt x.isLt)

theorem redFold_maxS : RedFold 6 BitVec.toInt max (-2 ^ 31) where
  op x y := by simp only [redOp, BitVec.sle_iff_toInt_le, apply_ite BitVec.toInt, max_comm x.toInt, max_def]
  assoc := max_assoc
  first x := max_eq_right (by have := BitVec.le_toInt x; omega)

theorem redFold_maxN : RedFold 7 BitVec.toNat max 0 where
  op x y := by simp only [redOp, BitVec.ule_iff_toNat_le, apply_ite BitVec.toNat, max_comm x.toNat, max_def]
  assoc := max_assoc
  first x := Nat.zero_max _

/-- The sum of words is the sum of their numbers modulo 2^32. -/
theorem ofNat_sum_toNat (l : List Word) : BitVec.ofNat 32 (l.map (·.toNat)).sum = l.foldl (· + ·) 0 := by
  have hfrom : ∀ b : Word, b + BitVec.ofNat 32 (l.map (·.toNat)).sum = l.foldl (· + ·) b := by
    induction l with
    | nil => exact BitVec.add_zero
    | cons x t ih =>
      intro b
      rw [List.map_cons, List.sum_cons, List.foldl_cons, ← ih, BitVec.ofNat_add, BitVec.ofNat_toNat, BitVec.setWidth_eq, BitVec.add_assoc]
  exact (BitVec.zero_add _).symm.trans (hfrom 0)

/-- Settles O28: each operation is a `RedFold`, so its tree of six levels over 64 lanes is the fold. -/
theorem integerReductions : Obligations.IntegerReductions := by
  unfold Obligations.IntegerReductions
  intro l hl
  have hl6 : l.length = 2 ^ 6 := hl
  exact ⟨(redFold_sum.redTree_eq_foldl hl6).trans (ofNat_sum_toNat l).symm, redFold_and.redTree_eq_foldl hl6,
    redFold_or.redTree_eq_foldl hl6, redFold_xor.redTree_eq_foldl hl6, redFold_minS.redTree_eq_foldl hl6,
    redFold_minN.redTree_eq_foldl hl6, redFold_maxS.redTree_eq_foldl hl6, redFold_maxN.redTree_eq_foldl hl6,
    fun o ho => redTree_integer_flags ho 6 l⟩

end Sys2Proof.Machine

/-! ## Special moves

RDS and WRS (R69 to R71, R84). -/

namespace Sys2Proof.Machine

/-- Settles O29: where they trap in no lane, RDS and WRS take in every lane that is on the effect that `execRds` and `execWrs` give them. -/
theorem specialMovesComplete : Obligations.SpecialMovesComplete := by
  unfold Obligations.SpecialMovesComplete
  intro h d i s
  constructor
  · intro hc
    rw [show exec (.rds h d i) s = execRds h d i s from rfl, execRds, word_of_clear _ hc]
    rfl
  · intro hc
    rw [show exec (.wrs h d i) s = execWrs h d i s from rfl, execWrs, word_of_clear _ hc]
    rfl

end Sys2Proof.Machine

/-! ## Meeting words

What a meeting sends (R85, R86): to every fibre at it the writes of its lane, and p10:p11. -/

namespace Sys2Proof.Machine

theorem State.anyOn_eq (s : State) (h : Head) :
    s.anyOn h = decide (∃ j ∈ s.issue.lanes, (s.srcOf j).guard h.g = true) := by
  rw [Bool.eq_iff_iff, decide_eq_true_iff, anyOn, List.any_eq_true]

/-- A word that sends a meeting's results completes: each fibre at it is sent what `w` gives its lane, p10:p11 saying whether any lane
contributed, and the flags `fl` (R86, R93). -/
theorem meeting_sends {i : Instr} {h : Head} {w : State → Nat → List (Nat × Word)} {fl : State → Flags} {s : State} (hs : s.clear i)
    (e : exec i s = word i h s (fun s _ => s.sendMeetingOn (s.anyOn h) (w s) (fl s))) :
    ∃ t, exec i s = .next (t.endWord h (slotsOf i)) ∧
      Sent s t s.issue.lanes false (fun j => (w s (s.srcOf j).lane,
        [(5, decide (∃ j ∈ s.issue.lanes, (s.srcOf j).guard h.g = true),
          !decide (∃ j ∈ s.issue.lanes, (s.srcOf j).guard h.g = true))], fl s)) [] := by
  rw [← State.anyOn_eq]
  exact ⟨_, e.trans (word_of_clear _ hs), sendResults_sent_only ..⟩

/-! ### What each meeting computes -/

/-- SHFL's source: up, down, exclusive or, and exclusive or with the width shifted right (R89). -/
theorem State.fromLane_shflSource (s : State) (h : Head) (d : BitVec 6) (m : BitVec 2) (k i : Nat) :
    s.fromLane h d i (shflSource m.toNat k i) =
      if m = 0 then (if k ≤ i then s.fromLane h d i (some (i - k)) else s.laneValue d i)
      else if m = 1 then s.fromLane h d i (some (i + k))
      else if m = 2 then s.fromLane h d i (some (i ^^^ k)) else s.fromLane h d i (some (i ^^^ (64 >>> k))) := by
  have hm : m = 0 ∨ m = 1 ∨ m = 2 ∨ m = 3 := by revert m; decide
  obtain rfl | rfl | rfl | rfl := hm
  · rw [if_pos rfl]
    show s.fromLane h d i (if k ≤ i then some (i - k) else none) = _
    split <;> rfl
  · rfl
  · rfl
  · rfl

/-- A number as a pair: its low 32 bits and the next 32. -/
theorem pairWrites_ofNat (k n : Nat) :
    pairWrites k (BitVec.ofNat 64 n) = [(2 * k, BitVec.ofNat 32 n), (2 * k + 1, BitVec.ofNat 32 (n / 2 ^ 32))] := by
  have hlo : BitVec.ofNat 32 (n % 2 ^ 64) = BitVec.ofNat 32 n := BitVec.eq_of_toNat_eq (by simp)
  have hhi : BitVec.ofNat 32 (n % 2 ^ 64 / 2 ^ 32) = BitVec.ofNat 32 (n / 2 ^ 32) :=
    BitVec.eq_of_toNat_eq (by simp only [BitVec.toNat_ofNat]; omega)
  rw [pairWrites, lo_half, hi_half, BitVec.toNat_ofNat, hlo, hhi]

/-- Settles O27: each meeting sends what its word computes; SHFL's source by mode and VOTE's ballot as a pair are restated first. -/
theorem meetingWordsComplete : Obligations.MeetingWordsComplete := by
  unfold Obligations.MeetingWordsComplete
  intro h d a m v k l o e met lanes from'
  have hmet : ∀ i w fl, slotsOf i = 1 →
      (∀ s, exec i s = word i h s (fun s _ => s.sendMeetingOn (s.anyOn h) (w s) (fl s))) → met i w fl :=
    fun i w fl hi e s hs => hi ▸ meeting_sends hs (e s)
  clear_value met
  refine ⟨?shfl, ?bcast, ?vote, ?matchL, ?red, ?scan⟩ <;> refine hmet _ _ _ rfl (fun s => ?_)
  case bcast | matchL | red | scan => rfl
  case shfl =>
    rw [show exec (.shfl h d m k) s = execShfl h d m k s from rfl, execShfl]
    simp only [State.fromLane_shflSource]
    rfl
  case vote =>
    rw [show exec (.vote h d a v) s = execVote h d a v s from rfl, execVote]
    simp only [pairWrites_ofNat, List.sum_eq_foldl, List.foldl_map, beq_iff_eq, List.isEmpty_iff, lanes, Bool.and_true]
    rfl

end Sys2Proof.Machine

/-! ## Taking a trap

The class a fibre takes, what it holds then (R94 to R96, R171), and the bands that fibres which trap together form (R76, R381). -/

namespace Sys2Proof.Machine

section TrapClass
variable {hd : Handlers} {t : Trap} {h : Bool}

/-- A tenant class without a tenant handler (R171, R359). -/
theorem trapClass_of_missing (hm : t.cls < 0x40 ∧ hd.tenant = 0) : trapClass hd h t = (0x43, 1, t.cause % 256 * 256 + t.cls) := by
  simp [trapClass, hm]

/-- A tenant class in a handler (R171). -/
theorem trapClass_of_nested (hn : t.cls < 0x40 ∧ hd.tenant ≠ 0 ∧ h = true) :
    trapClass hd h t = (0x43, 0, t.cause % 256 * 256 + t.cls) := by
  obtain ⟨hc, ht, hh⟩ := hn
  rw [trapClass, if_neg (by simpa using fun _ => ht), if_pos (by simpa using ⟨hc, hh⟩)]

/-- Every other trap is taken as it was raised. -/
theorem trapClass_of_own (hm : ¬ (t.cls < 0x40 ∧ hd.tenant = 0)) (hn : ¬ (t.cls < 0x40 ∧ hd.tenant ≠ 0 ∧ h = true)) :
    trapClass hd h t = (t.cls, t.cause, t.orig) := by
  rw [trapClass, if_neg (by simpa using hm), if_neg]
  simp only [Bool.and_eq_true, decide_eq_true_eq]
  exact fun ⟨hc, hh⟩ => hn ⟨hc, fun h0 => hm ⟨hc, h0⟩, hh⟩

theorem system_trapClass_iff : 0x40 ≤ (trapClass hd h t).1 ↔
    0x40 ≤ t.cls ∨ (t.cls < 0x40 ∧ hd.tenant = 0) ∨ (t.cls < 0x40 ∧ hd.tenant ≠ 0 ∧ h = true) := by
  by_cases hm : t.cls < 0x40 ∧ hd.tenant = 0
  · rw [trapClass_of_missing hm]
    exact iff_of_true (show 0x40 ≤ 0x43 by decide) (.inr (.inl hm))
  by_cases hn : t.cls < 0x40 ∧ hd.tenant ≠ 0 ∧ h = true
  · rw [trapClass_of_nested hn]
    exact iff_of_true (show 0x40 ≤ 0x43 by decide) (.inr (.inr hn))
  · rw [trapClass_of_own hm hn]
    exact (or_iff_left (not_or.2 ⟨hm, hn⟩)).symm

/-- Only class 0x40 itself goes to the save routine. -/
theorem save_trapClass_iff : (trapClass hd h t).1 = 0x40 ↔ t.cls = 0x40 := by
  by_cases hm : t.cls < 0x40 ∧ hd.tenant = 0
  · simp [trapClass_of_missing hm, hm.1.ne]
  by_cases hn : t.cls < 0x40 ∧ hd.tenant ≠ 0 ∧ h = true
  · simp [trapClass_of_nested hn, hn.1.ne]
  · simp [trapClass_of_own hm hn]

end TrapClass

namespace Fibre

section Enter
variable (hd : Handlers) (t : Trap) (lane count : Nat) (resume : DWord) (f : Fibre)

theorem enter_shadow : (f.enter hd t lane count resume).ctl.shadow =
    if 0x40 ≤ (trapClass hd f.ctl.h t).1 then f.toShadow else f.ctl.shadow := by simp [enter]

theorem enter_v : (f.enter hd t lane count resume).ctl.v = (f.ctl.v || decide (0x40 ≤ (trapClass hd f.ctl.h t).1)) := rfl

theorem enter_taddr : (f.enter hd t lane count resume).ctl.taddr = if t.cls = 0x40 then hd.saveBlock else t.addr := by simp [enter]

theorem enter_pkt : (f.enter hd t lane count resume).ctl.pkt =
    if (trapClass hd f.ctl.h t).1 = 0x40 then hd.save
    else if 0x40 ≤ (trapClass hd f.ctl.h t).1 then hd.system else hd.tenant := by simp [enter]

theorem enter_tcause {cls cause orig : Nat} (hc : trapClass hd f.ctl.h t = (cls, cause, orig)) :
    (f.enter hd t lane count resume).ctl.tcause = BitVec.ofNat 32 (orig * 2 ^ 16 + cause % 256 * 256 + cls) := by
  simp [enter, hc, tcauseWord]

end Enter

end Fibre

/-- Settles O33: each field of the record by its lemma, the class taken by whether a handler is missing or in progress. -/
theorem trapEntry : Obligations.TrapEntry := by
  unfold Obligations.TrapEntry
  intro hd t lane count resume f hv _ hcause g missing nested system
  have hsystem : 0x40 ≤ (trapClass hd f.ctl.h t).1 ↔ system := system_trapClass_iff
  have hsave : (trapClass hd f.ctl.h t).1 = 0x40 ↔ t.cls = 0x40 := save_trapClass_iff
  have hmod : t.cause % 256 = t.cause := Nat.mod_eq_of_lt hcause
  refine ⟨fun hs => ?_, fun hs => ?_, rfl, rfl, rfl, rfl, fun h40 => ?_, rfl, fun hm hn => ?_, fun hm => ?_, fun hn => ?_,
    fun hs h40 => ?_, fun h40 => ?_, rfl, rfl, rfl⟩
  · exact ⟨(f.enter_shadow ..).trans (if_pos (hsystem.2 hs)), by simp [g, Fibre.enter_v, hv, hsystem, hs]⟩
  · have h40 : t.cls ≠ 0x40 := fun h => hs (.inl h.ge)
    refine ⟨(f.enter_shadow ..).trans (if_neg (mt hsystem.1 hs)), by simp [g, Fibre.enter_v, hv, hsystem, hs], ?_⟩
    rw [Fibre.enter_pkt, if_neg (mt hsave.1 h40), if_neg (mt hsystem.1 hs)]
  · rw [Fibre.enter_taddr, if_neg h40]
  · rw [Fibre.enter_tcause hd t lane count resume f (trapClass_of_own hm hn), hmod]
  · rw [Fibre.enter_tcause hd t lane count resume f (trapClass_of_missing hm), hmod]
  · rw [Fibre.enter_tcause hd t lane count resume f (trapClass_of_nested hn), hmod]
  · rw [Fibre.enter_pkt, if_neg (mt hsave.1 h40), if_pos (hsystem.2 hs)]
  · rw [Fibre.enter_pkt, Fibre.enter_taddr, if_pos (hsave.2 h40), if_pos h40]
    exact ⟨rfl, rfl⟩

/-! ### Bands -/

theorem mem_insertBy {key : Nat → Nat} {k j : Nat} {l : List Nat} : j ∈ insertBy key k l ↔ j = k ∨ j ∈ l := by
  induction l with
  | nil => simp [insertBy]
  | cons x l ih =>
    rw [insertBy]
    split
    · exact List.mem_cons
    · rw [List.mem_cons, ih, List.mem_cons, or_left_comm]

@[simp] theorem mem_sortBy {key : Nat → Nat} {j : Nat} {l : List Nat} : j ∈ sortBy key l ↔ j ∈ l := by
  induction l with
  | nil => rfl
  | cons x l ih => rw [sortBy, mem_insertBy, ih, List.mem_cons]

namespace State

/-- A band none of whose members is taken out stays. -/
theorem mem_unband_of_disjoint {s : State} {ks : List Nat} {b : Band} (hb : b ∈ s.bands) (hne : b.members ≠ [])
    (hd : ∀ k ∈ b.members, k ∉ ks) : b ∈ (s.unband ks).bands := by
  have hself : b.members.filter (fun k => !ks.contains k) = b.members := List.filter_eq_self.2 (by simpa using hd)
  refine List.mem_filter.2 ⟨List.mem_map.2 ⟨b, hb, ?_⟩, by simpa using hne⟩
  rw [hself]

/-- The new band stands behind the others, with the fibres as its members (R76). -/
theorem newBand_bands (s : State) {ks : List Nat} (hne : ks ≠ []) (park : Park) :
    ∃ b, (s.newBand ks park).bands = s.bands ++ [b] ∧ b.park = park ∧ ∀ k, k ∈ b.members ↔ k ∈ ks := by
  obtain ⟨k, l, rfl⟩ := List.exists_cons_of_ne_nil hne
  exact ⟨_, rfl, rfl, fun _ => mem_sortBy⟩

@[simp] theorem newBand_fibres (s : State) (ks : List Nat) (park : Park) : (s.newBand ks park).fibres = s.fibres := by
  cases ks <;> rfl

end State

/-! ### What a trapping band leaves as it was -/

/-- Nothing differs but the fibres, the bands, what the cores hold, and the identifiers given. -/
def UpToBands (s t : State) : Prop :=
  t = { s with fibres := t.fibres, bands := t.bands, cores := t.cores, nextId := t.nextId }

theorem upToBands_trans {s t u : State} (h1 : UpToBands s t) (h2 : UpToBands t u) : UpToBands s u :=
  Eq.trans h2 (by rw [h1])

section UpToBands
variable {s t : State} (h : UpToBands s t)
include h

theorem UpToBands.mem : t.mem = s.mem := by rw [h]
theorem UpToBands.results : t.results = s.results := by rw [h]
theorem UpToBands.accesses : t.accesses = s.accesses := by rw [h]
theorem UpToBands.gangs : t.gangs = s.gangs := by rw [h]
theorem UpToBands.handlers (gid : Nat) : t.handlers gid = s.handlers gid := by rw [h]; rfl

end UpToBands

namespace State

theorem newBand_upToBands (s : State) (ks : List Nat) (park : Park) : UpToBands s (s.newBand ks park) := by
  cases ks <;> rfl

/-- A trace record stands in its core's queue, or is counted lost there (R183). -/
theorem trace_rest (s : State) (c : Nat) (data : List Byte) :
    s.trace c data = { s with cores := (s.trace c data).cores, nextId := (s.trace c data).nextId } := by
  unfold trace
  dsimp only
  split <;> rfl

theorem traceTrap_rest (s : State) (k : Nat) (t : Trap) :
    s.traceTrap k t = { s with cores := (s.traceTrap k t).cores, nextId := (s.traceTrap k t).nextId } := by
  unfold traceTrap
  dsimp only
  split
  · rfl
  · split
    · exact trace_rest ..
    · rfl

theorem traceTrap_upToBands (s : State) (k : Nat) (t : Trap) : UpToBands s (s.traceTrap k t) := by
  unfold UpToBands
  rw [traceTrap_rest]

@[simp] theorem traceTrap_fibres (s : State) (k : Nat) (t : Trap) : (s.traceTrap k t).fibres = s.fibres := by rw [traceTrap_rest]
@[simp] theorem traceTrap_bands (s : State) (k : Nat) (t : Trap) : (s.traceTrap k t).bands = s.bands := by rw [traceTrap_rest]

@[simp] theorem count_fibres (s : State) (c e n : Nat) : (s.count c e n).fibres = s.fibres := rfl
@[simp] theorem count_bands (s : State) (c e n : Nat) : (s.count c e n).bands = s.bands := rfl

end State

/-! ### One trapping band -/

/-- A fibre of one band takes its own trap, with the record's lane and count that all of them share (R96, R171). -/
def bandEnter (hd : Handlers) (ks : List (Nat × Trap × DWord)) (lane count k : Nat) (f : Fibre) : Fibre :=
  match ks.find? (fun x => x.1 == k) with
  | some (_, t, r) => f.enter hd t lane count r
  | none => f

theorem bandEnter_of_mem {ks : List (Nat × Trap × DWord)} (hnd : (ks.map (·.1)).Nodup) {x : Nat × Trap × DWord} (hx : x ∈ ks)
    (hd : Handlers) (lane count : Nat) (f : Fibre) : bandEnter hd ks lane count x.1 f = f.enter hd x.2.1 lane count x.2.2 := by
  have hfind : ks.find? (fun y => y.1 == x.1) = some x := by
    obtain ⟨y, hy⟩ := Option.isSome_iff_exists.1
      ((List.find?_isSome (xs := ks) (p := fun y => y.1 == x.1)).2 ⟨x, hx, beq_self_eq_true _⟩)
    have hxy : y.1 = x.1 := beq_iff_eq.1 (List.find?_some (p := fun y : Nat × Trap × DWord => y.1 == x.1) hy)
    rw [hy, List.inj_on_of_nodup_map hnd (List.mem_of_find?_eq_some hy) hx hxy]
  simp only [bandEnter, hfind]

namespace State

/-- Fibres that are not live take nothing. -/
theorem takeOne_of_dead {s : State} {ks : List (Nat × Trap × DWord)} (h : ∀ x ∈ ks, (s.fibre x.1).live = false) (lane count : Nat) :
    s.takeOne ks lane count = s := by
  have hnone : ks.filter (fun x => (s.fibre x.1).live) = [] := List.filter_eq_nil_iff.2 (fun x hx => by simp [h x hx])
  simp only [takeOne, hnone]

section TakeOne
variable {s : State} {x : Nat × Trap × DWord} {ks : List (Nat × Trap × DWord)} (lane count : Nat)
  (hlive : ∀ y ∈ x :: ks, (s.fibre y.1).live = true)
include hlive

/-- A trap where V is set is fatal to the context (R171). -/
theorem takeOne_of_v {g : Gang} (hv : (s.fibre x.1).ctl.v = true) (hg : s.gang (s.fibre x.1).gang = some g) :
    s.takeOne (x :: ks) lane count = s.endContext g.ctx 1 (x.2.1.cause * 256 + x.2.1.cls) := by
  have hall : (x :: ks).filter (fun y => (s.fibre y.1).live) = x :: ks := List.filter_eq_self.2 hlive
  simp only [takeOne, hall, List.any_cons, hv, Bool.true_or, if_true, hg]

/-- Otherwise its fibres enter the handler, and form one band; a record is traced and the event counted (R171, R183, R186). -/
theorem takeOne_of_not_v (hv : ∀ y ∈ x :: ks, (s.fibre y.1).ctl.v = false) :
    let ids := (x :: ks).map (·.1)
    s.takeOne (x :: ks) lane count =
      ((((s.updFibres ids (bandEnter (s.handlers (s.fibre x.1).gang) (x :: ks) lane count)).unband ids).newBand ids .none).traceTrap
        x.1 x.2.1).count (s.coreOf x.1) 0x16 1 := by
  have hall : (x :: ks).filter (fun y => (s.fibre y.1).live) = x :: ks := List.filter_eq_self.2 hlive
  have hany : (x :: ks).any (fun y => (s.fibre y.1).ctl.v) = false := List.any_eq_false.2 (fun y hy => by simp [hv y hy])
  simp only [takeOne, hall, hany]
  rfl

end TakeOne

end State

/-- What a trapping band `ks` with handlers `hd` leaves (R96, R171): each of its fibres in the handler, the fibres as one band that may
issue, and every other fibre, every band apart from it and the rest of the state as they were. -/
structure TookBand (s t : State) (hd : Handlers) (ks : List (Nat × Trap × DWord)) (lane count : Nat) : Prop where
  rest : UpToBands s t
  length : t.fibres.length = s.fibres.length
  entered : ∀ x ∈ ks, t.fibre x.1 = (s.fibre x.1).enter hd x.2.1 lane count x.2.2
  others : ∀ k, k ∉ ks.map (·.1) → t.fibre k = s.fibre k
  band : ∃ b ∈ t.bands, b.park = .none ∧ ∀ k, k ∈ b.members ↔ k ∈ ks.map (·.1)
  apart : ∀ b ∈ s.bands, b.members ≠ [] → (∀ k ∈ b.members, k ∉ ks.map (·.1)) → b ∈ t.bands

/-- A band of one gang with V clear in each of its fibres takes its trap. -/
theorem State.takeOne_tookBand {s : State} {ks : List (Nat × Trap × DWord)} {gid : Nat} (hne : ks ≠ []) (hnd : (ks.map (·.1)).Nodup)
    (hin : ∀ x ∈ ks, x.1 < s.fibres.length) (hlive : ∀ x ∈ ks, (s.fibre x.1).live = true)
    (hgang : ∀ x ∈ ks, (s.fibre x.1).gang = gid) (hv : ∀ x ∈ ks, (s.fibre x.1).ctl.v = false) (lane count : Nat) :
    TookBand s (s.takeOne ks lane count) (s.handlers gid) ks lane count := by
  obtain ⟨x, l, rfl⟩ := List.exists_cons_of_ne_nil hne
  rw [takeOne_of_not_v lane count hlive hv, hgang x List.mem_cons_self]
  generalize hks : x :: l = ks at *
  set s1 := s.updFibres (ks.map (·.1)) (bandEnter (s.handlers gid) ks lane count)
  obtain ⟨b, hbands, hpark, hmem⟩ := newBand_bands (s1.unband (ks.map (·.1))) (ks := ks.map (·.1)) (by simpa using hne) .none
  set s2 := (s1.unband (ks.map (·.1))).newBand (ks.map (·.1)) .none with hs2
  set t := (s2.traceTrap x.1 x.2.1).count (s.coreOf x.1) 0x16 1 with ht
  have hfibres : t.fibres = s1.fibres := by simp [ht, hs2]
  have hfib : ∀ k, t.fibre k = s1.fibre k := fun k => congrArg (·.getD k .blank) hfibres
  have htbands : t.bands = (s.unband (ks.map (·.1))).bands ++ [b] := by rw [ht, count_bands, traceTrap_bands, hbands]; rfl
  constructor
  case rest =>
    have h1 : UpToBands s (s1.unband (ks.map (·.1))) := rfl
    exact upToBands_trans h1 (upToBands_trans (newBand_upToBands ..) (upToBands_trans (traceTrap_upToBands s2 ..) rfl))
  case length => rw [hfibres, updFibres_length]
  case entered =>
    intro y hy
    rw [hfib, fibre_updFibres _ _ _ _ (hin y hy), if_pos (List.mem_map_of_mem hy), bandEnter_of_mem hnd hy]
  case others =>
    intro k hk
    rw [hfib]
    rcases Nat.lt_or_ge k s.fibres.length with hl | hl
    · rw [fibre_updFibres _ _ _ _ hl, if_neg hk]
    · exact fibre_updFibres_beyond _ _ _ _ hl
  case band => exact ⟨b, by simp [htbands], hpark, hmem⟩
  case apart =>
    intro b' hb' hne' hd
    rw [htbands]
    exact List.mem_append_left _ (mem_unband_of_disjoint hb' hne' hd)

/-! ### Fibres that trap together -/

/-- Those of the fibres that take their trap as one class, cause and original (R381). -/
def State.takenBand (s : State) (ks : List (Nat × Trap × DWord)) (c : Nat × Nat × Nat) : List (Nat × Trap × DWord) :=
  ks.filter (fun x => s.takenAs x.1 x.2.1 == c)

/-- The lane of the record: the trap's own, or the lowest of the band (R96). -/
def State.recordLane (s : State) (lane : Option Nat) (m : List (Nat × Trap × DWord)) : Nat :=
  lane.getD ((m.head?.map (fun x => (s.fibre x.1).lane)).getD 0)

/-- The bands take their traps one after another, as they were before the first of them. -/
theorem State.takeTrap_eq (s : State) (ks : List (Nat × Trap × DWord)) (lane : Option Nat) (count : Nat) :
    s.takeTrap ks lane count = ((ks.map (fun x => s.takenAs x.1 x.2.1)).dedup).foldl
      (fun t c => t.takeOne (s.takenBand ks c) (s.recordLane lane (s.takenBand ks c)) count) s := rfl

theorem State.mem_takenBand {s : State} {ks : List (Nat × Trap × DWord)} {c : Nat × Nat × Nat} {x : Nat × Trap × DWord} :
    x ∈ s.takenBand ks c ↔ x ∈ ks ∧ s.takenAs x.1 x.2.1 = c := by simp [takenBand]

/-- The bands of `cs` have taken their traps: what `TookBand` says of each of them. -/
structure TookBands (s t : State) (hd : Handlers) (ks : List (Nat × Trap × DWord)) (lane : Option Nat) (count : Nat)
    (cs : List (Nat × Nat × Nat)) : Prop where
  rest : UpToBands s t
  length : t.fibres.length = s.fibres.length
  entered : ∀ c ∈ cs, ∀ x ∈ s.takenBand ks c,
    t.fibre x.1 = (s.fibre x.1).enter hd x.2.1 (s.recordLane lane (s.takenBand ks c)) count x.2.2
  others : ∀ k, (∀ c ∈ cs, k ∉ (s.takenBand ks c).map (·.1)) → t.fibre k = s.fibre k
  band : ∀ c ∈ cs, ∃ b ∈ t.bands, b.park = .none ∧ ∀ k, k ∈ b.members ↔ k ∈ (s.takenBand ks c).map (·.1)

section Together
variable {s : State} {ks : List (Nat × Trap × DWord)}

/-- Bands of different classes have no fibre in common. -/
theorem takenBand_disjoint (hnd : (ks.map (·.1)).Nodup) {c d : Nat × Nat × Nat} (hcd : c ≠ d) {k : Nat}
    (hc : k ∈ (s.takenBand ks c).map (·.1)) : k ∉ (s.takenBand ks d).map (·.1) := by
  obtain ⟨x, hx, rfl⟩ := List.mem_map.1 hc
  intro hd
  obtain ⟨y, hy, hyx⟩ := List.mem_map.1 hd
  obtain ⟨hxks, hxc⟩ := State.mem_takenBand.1 hx
  obtain ⟨hyks, hyd⟩ := State.mem_takenBand.1 hy
  rw [List.inj_on_of_nodup_map hnd hyks hxks hyx] at hyd
  exact hcd (hxc.symm.trans hyd)

variable {gid : Nat} (hin : ∀ x ∈ ks, x.1 < s.fibres.length) (hnd : (ks.map (·.1)).Nodup)
  (hlive : ∀ x ∈ ks, (s.fibre x.1).live = true) (hgang : ∀ x ∈ ks, (s.fibre x.1).gang = gid)
  (hv : ∀ x ∈ ks, (s.fibre x.1).ctl.v = false) (lane : Option Nat) (count : Nat)
include hin hnd hlive hgang hv

/-- One more band takes its trap behind the others. -/
theorem TookBands.snoc {t : State} {cs : List (Nat × Nat × Nat)} {c : Nat × Nat × Nat}
    (h : TookBands s t (s.handlers gid) ks lane count cs) (hc : c ∉ cs) (hcs : ∀ d ∈ cs, s.takenBand ks d ≠ [])
    (hne : s.takenBand ks c ≠ []) :
    TookBands s (t.takeOne (s.takenBand ks c) (s.recordLane lane (s.takenBand ks c)) count) (s.handlers gid) ks lane count
      (cs ++ [c]) := by
  set m := s.takenBand ks c
  have hsub : ∀ x ∈ m, x ∈ ks := fun x hx => (State.mem_takenBand.1 hx).1
  have hapart : ∀ d ∈ cs, ∀ k ∈ (s.takenBand ks d).map (·.1), k ∉ m.map (·.1) := fun d hd k hk =>
    takenBand_disjoint hnd (ne_of_mem_of_not_mem hd hc) hk
  have hsame : ∀ x ∈ m, t.fibre x.1 = s.fibre x.1 := fun x hx =>
    h.others x.1 (fun d hd hkd => hapart d hd x.1 hkd (List.mem_map_of_mem hx))
  have hone : TookBand t (t.takeOne m (s.recordLane lane m) count) (t.handlers gid) m (s.recordLane lane m) count :=
    State.takeOne_tookBand hne ((List.filter_sublist.map _).nodup hnd) (fun x hx => h.length ▸ hin x (hsub x hx))
      (fun x hx => by rw [hsame x hx, hlive x (hsub x hx)]) (fun x hx => by rw [hsame x hx, hgang x (hsub x hx)])
      (fun x hx => by rw [hsame x hx, hv x (hsub x hx)]) _ _
  rw [h.rest.handlers] at hone
  constructor
  case rest => exact upToBands_trans h.rest hone.rest
  case length => exact hone.length.trans h.length
  case entered =>
    intro d hd x hx
    rcases List.mem_append.1 hd with hd | hd
    · rw [hone.others x.1 (hapart d hd x.1 (List.mem_map_of_mem hx)), h.entered d hd x hx]
    · obtain rfl := List.mem_singleton.1 hd
      rw [hone.entered x hx, hsame x hx]
  case others =>
    intro k hk
    rw [hone.others k (hk c (by simp)), h.others k (fun d hd => hk d (List.mem_append_left _ hd))]
  case band =>
    intro d hd
    rcases List.mem_append.1 hd with hd | hd
    · obtain ⟨b, hb, hpark, hmem⟩ := h.band d hd
      obtain ⟨x, hx⟩ := List.exists_mem_of_ne_nil _ (hcs d hd)
      have hbne : b.members ≠ [] := List.ne_nil_of_mem ((hmem x.1).2 (List.mem_map_of_mem hx))
      exact ⟨b, hone.apart b hb hbne (fun k hk => hapart d hd k ((hmem k).1 hk)), hpark, hmem⟩
    · obtain rfl := List.mem_singleton.1 hd
      exact hone.band

/-- Band after band, each takes its trap in the state that the bands before it have left. -/
theorem tookBands_foldl (cs : List (Nat × Nat × Nat)) (hcs : cs.Nodup) (hne : ∀ c ∈ cs, s.takenBand ks c ≠ []) :
    TookBands s (cs.foldl (fun t c => t.takeOne (s.takenBand ks c) (s.recordLane lane (s.takenBand ks c)) count) s)
      (s.handlers gid) ks lane count cs := by
  induction cs using List.reverseRecOn with
  | nil => exact ⟨rfl, rfl, by simp, fun _ _ => rfl, by simp⟩
  | append_singleton cs c ih =>
    have hsplit := List.nodup_append.1 hcs
    have hold : ∀ d ∈ cs, s.takenBand ks d ≠ [] := fun d hd => hne d (List.mem_append_left _ hd)
    rw [List.foldl_append]
    exact (ih hsplit.1 hold).snoc hin hnd hlive hgang hv lane count (fun hc => hsplit.2.2 c hc c (by simp) rfl) hold (hne c (by simp))

end Together

/-- A class that some fibre takes has a band. -/
theorem State.takenBand_ne_nil {s : State} {ks : List (Nat × Trap × DWord)} {c : Nat × Nat × Nat}
    (hc : c ∈ ks.map (fun x => s.takenAs x.1 x.2.1)) : s.takenBand ks c ≠ [] := by
  obtain ⟨x, hx, rfl⟩ := List.mem_map.1 hc
  exact List.ne_nil_of_mem (mem_takenBand.2 ⟨hx, rfl⟩)

/-! ### A context that ends -/

/-- The gangs, the fibres and the contexts are as they were. -/
def KeepsTenants (s t : State) : Prop := t.gangs = s.gangs ∧ t.fibres = s.fibres ∧ t.contexts = s.contexts

theorem KeepsTenants.trans {s t u : State} (h1 : KeepsTenants s t) (h2 : KeepsTenants t u) : KeepsTenants s u :=
  ⟨h2.1.trans h1.1, h2.2.1.trans h1.2.1, h2.2.2.trans h1.2.2⟩

theorem keepsTenants_refl (s : State) : KeepsTenants s s := ⟨rfl, rfl, rfl⟩

theorem keepsTenants_foldl {α : Type} {f : State → α → State} (h : ∀ s x, KeepsTenants s (f s x)) (l : List α) (s : State) :
    KeepsTenants s (l.foldl f s) := by
  induction l generalizing s with
  | nil => exact keepsTenants_refl s
  | cons x l ih => exact (h s x).trans (ih _)

theorem keepsTenants_of_upToHomes {s t : State} (h : UpToHomes s t) : KeepsTenants s t := by
  refine ⟨?_, ?_, ?_⟩ <;> rw [h]

/-- A context that has ended with a record, and with one more for each of the jobs that end with it (R209, R244, R245). -/
def Context.endedWith (c : Context) (kind value : Nat) (jobs : List Job) : Context :=
  { jobs.foldl (fun c j => c.note 4 { j with error := 6 }.status) (c.note kind value) with
    live := false, gen := (c.gen + 1) % 16, requests := [] }

/-- The records of jobs that end with their context leave its identifier, and stand behind its own. -/
theorem Context.foldl_note (c : Context) (jobs : List Job) (v : Job → Nat) :
    (jobs.foldl (fun c j => c.note 4 (v j)) c).id = c.id ∧
      ∃ more, (jobs.foldl (fun c j => c.note 4 (v j)) c).fatal = c.fatal ++ more := by
  induction jobs generalizing c with
  | nil => exact ⟨rfl, [], (List.append_nil _).symm⟩
  | cons j jobs ih =>
    obtain ⟨hid, more, hfatal⟩ := ih (c.note 4 (v j))
    exact ⟨hid, (4, v j) :: more, by rw [List.foldl_cons, hfatal, note, List.append_assoc]; rfl⟩

@[simp] theorem Context.endedWith_id (c : Context) (kind value : Nat) (jobs : List Job) : (c.endedWith kind value jobs).id = c.id :=
  ((c.note kind value).foldl_note jobs _).1

theorem Context.endedWith_fatal (c : Context) (kind value : Nat) (jobs : List Job) :
    ∃ more, (c.endedWith kind value jobs).fatal = c.fatal ++ (kind, value) :: more := by
  obtain ⟨_, more, hfatal⟩ := (c.note kind value).foldl_note jobs (fun j => Job.status { j with error := 6 })
  exact ⟨more, hfatal.trans (by rw [note, List.append_assoc]; rfl)⟩

namespace State

theorem markBitmap_keepsTenants (s : State) (keys : List Nat) : KeepsTenants s (s.markBitmap keys) := by
  unfold markBitmap
  refine keepsTenants_foldl (fun s m => ?_) _ s
  dsimp only
  split <;> exact ⟨rfl, rfl, rfl⟩

theorem homeWrote_keepsTenants (s : State) (u : HomeUse) (keys words : List Nat) : KeepsTenants s (s.homeWrote u keys words) := by
  unfold homeWrote
  dsimp only
  exact ((keepsTenants_of_upToHomes (upToHomes_foldl _ (fun s ln => writeLine_homes s u keys words ln) _ s)).trans
    (markBitmap_keepsTenants ..)).trans (keepsTenants_of_upToHomes (touchLines_homes ..))

/-- A hold count changes a word at its home and the records of layers. -/
theorem addHold_keepsTenants (s : State) (p m l : Nat) (up : Bool) : KeepsTenants s (s.addHold p m l up) := by
  unfold addHold
  dsimp only
  generalize hread : s.homeReads _ _ = s0
  obtain ⟨hgangs, hfibres, hcontexts⟩ : KeepsTenants s s0 := hread ▸ keepsTenants_of_upToHomes (homeReads_homes ..)
  generalize s0.mem.write _ 4 _ = m1
  obtain ⟨wgangs, wfibres, wcontexts⟩ := homeWrote_keepsTenants { s0 with mem := m1 } { part := p }
    ((List.range 4).map (fun i => s.layerKey p m l + 8 + i)) []
  exact ⟨wgangs.trans hgangs, wfibres.trans hfibres, wcontexts.trans hcontexts⟩

theorem holdFor_keepsTenants (s : State) (gid : Nat) (r : DWord) (up : Bool) : KeepsTenants s (s.holdFor gid r up) := by
  unfold holdFor
  split
  · exact keepsTenants_refl s
  · split
    · exact keepsTenants_refl s
    · exact (addHold_keepsTenants ..).trans ⟨rfl, rfl, rfl⟩

theorem dropAcquire_keepsTenants (s : State) (a : Access) : KeepsTenants s (s.dropAcquire a) := by
  unfold dropAcquire
  split
  · exact (holdFor_keepsTenants ..).trans ⟨rfl, rfl, rfl⟩
  · exact (holdFor_keepsTenants ..).trans ⟨rfl, rfl, rfl⟩
  · exact keepsTenants_refl s

/-- Clearing the deques of a gang's cores touches the cores only (R169). -/
theorem clearDeques_keepsTenants (s : State) (g : Gang) : KeepsTenants s (s.clearDeques g) := by
  unfold clearDeques
  split
  · exact keepsTenants_foldl (f := fun s c => s.updCore c _) (fun s c => ⟨rfl, rfl, rfl⟩) _ s
  · exact keepsTenants_refl s

theorem ofContext_congr {s t : State} (h : t.gangs = s.gangs) (cid gid : Nat) : t.ofContext cid gid = s.ofContext cid gid := by
  rw [ofContext, ofContext, gang, gang, h]

/-- The fibres of an ended context stop being live, and the context's own record ends with the notes (R244, R245). -/
theorem endContext_tenants (s : State) (cid kind value : Nat) :
    (s.endContext cid kind value).fibres = s.fibres.mapIdx (fun _ f =>
      if s.ofContext cid f.gang then { f with live := false } else f) ∧
    ∃ jobs, (s.endContext cid kind value).contexts =
      s.contexts.map (fun c => if c.id == cid then c.endedWith kind value jobs else c) := by
  unfold endContext
  dsimp only
  have hdrop := keepsTenants_foldl dropAcquire_keepsTenants (s.accesses.filter (fun a => s.ofContext cid a.gang)) s
  generalize List.foldl dropAcquire s _ = u at *
  obtain ⟨hgangs, hfibres, hcontexts⟩ := hdrop
  refine ⟨?_, ?_⟩
  · rw [(keepsTenants_foldl clearDeques_keepsTenants _ _).2.1]
    apply List.ext_getElem
    · simp [hfibres]
    · intro k h1 h2
      have hk : k < s.fibres.length := by simpa using h2
      simp [hfibres, hk, fibre, ofContext_congr hgangs]
  · rw [(keepsTenants_foldl clearDeques_keepsTenants _ _).2.2]
    exact ⟨_, by rw [← hcontexts]; rfl⟩

/-- A fibre of the context is live no more; one of another context is as it was. -/
theorem endContext_fibre (s : State) (cid kind value k : Nat) : (s.endContext cid kind value).fibre k =
    if s.ofContext cid (s.fibre k).gang then { s.fibre k with live := false } else s.fibre k := by
  rw [fibre, (endContext_tenants ..).1]
  rcases Nat.lt_or_ge k s.fibres.length with hk | hk
  · simp [fibre, hk]
  · have hblank : s.fibre k = .blank := by simp [fibre, hk]
    rw [hblank, List.getD_eq_default _ _ (by simpa using hk)]
    split <;> rfl

/-- The context itself: not live, and its record behind those there were. -/
theorem endContext_context {s : State} {cid : Nat} {c : Context} (hc : s.context cid = some c) (kind value : Nat) :
    ∃ jobs, (s.endContext cid kind value).context cid = some (c.endedWith kind value jobs) := by
  obtain ⟨jobs, hcontexts⟩ := (endContext_tenants s cid kind value).2
  have hcid : c.id = cid := beq_iff_eq.1 (List.find?_some (p := fun c : Context => c.id == cid) hc)
  have hid : ((fun c : Context => c.id == cid) ∘ fun c => if c.id == cid then c.endedWith kind value jobs else c) =
      fun c => c.id == cid := by
    funext x
    simp only [Function.comp_apply, apply_ite Context.id, Context.endedWith_id, ite_self]
  refine ⟨jobs, ?_⟩
  rw [context, hcontexts, List.find?_map, hid, show s.contexts.find? _ = some c from hc, Option.map_some, if_pos (beq_iff_eq.2 hcid)]

/-- A context that has ended has no live fibre. -/
theorem endContext_live {s : State} {gid : Nat} {g : Gang} (hg : s.gang gid = some g) {kind value k : Nat}
    (hk : ((s.endContext g.ctx kind value).fibre k).gang = gid) : ((s.endContext g.ctx kind value).fibre k).live = false := by
  have hmine : s.ofContext g.ctx gid = true := by simp [ofContext, hg]
  rw [endContext_fibre] at hk ⊢
  split
  · rfl
  next hother =>
    rw [if_neg hother] at hk
    exact absurd (hk ▸ hmine) hother

@[simp] theorem endContext_fibre_gang (s : State) (cid kind value k : Nat) :
    ((s.endContext cid kind value).fibre k).gang = (s.fibre k).gang := by
  rw [endContext_fibre]
  split <;> rfl

/-- Where V is set in each of the fibres, the first band ends their context, and no fibre is left to trap (R171). -/
theorem takeTrap_of_v {s : State} {ks : List (Nat × Trap × DWord)} {gid : Nat} {g : Gang} (hne : ks ≠ [])
    (hlive : ∀ x ∈ ks, (s.fibre x.1).live = true) (hgang : ∀ x ∈ ks, (s.fibre x.1).gang = gid)
    (hv : ∀ x ∈ ks, (s.fibre x.1).ctl.v = true) (hg : s.gang gid = some g) (lane : Option Nat) (count : Nat) :
    ∃ x ∈ ks, s.takeTrap ks lane count = s.endContext g.ctx 1 (x.2.1.cause * 256 + x.2.1.cls) := by
  obtain ⟨x0, hx0⟩ := List.exists_mem_of_ne_nil ks hne
  obtain ⟨c, cs, hcs⟩ := List.exists_cons_of_ne_nil
    (List.ne_nil_of_mem (List.mem_dedup.2 (List.mem_map_of_mem (f := fun x => s.takenAs x.1 x.2.1) hx0)))
  have hc : c ∈ ks.map (fun x => s.takenAs x.1 x.2.1) := List.mem_dedup.1 (hcs ▸ List.mem_cons_self)
  obtain ⟨x, m, hm⟩ := List.exists_cons_of_ne_nil (takenBand_ne_nil hc)
  have hsub : ∀ y ∈ x :: m, y ∈ ks := fun y hy => (mem_takenBand.1 (hm ▸ hy)).1
  have hx : x ∈ ks := hsub x List.mem_cons_self
  refine ⟨x, hx, ?_⟩
  have hfirst : s.takeOne (s.takenBand ks c) (s.recordLane lane (s.takenBand ks c)) count =
      s.endContext g.ctx 1 (x.2.1.cause * 256 + x.2.1.cls) := by
    rw [hm]
    exact takeOne_of_v _ _ (fun y hy => hlive y (hsub y hy)) (hv x hx) (by rw [hgang x hx, hg])
  rw [takeTrap_eq, hcs, List.foldl_cons, hfirst]
  refine List.foldl_fixed' (fun d => takeOne_of_dead (fun y hy => endContext_live hg ?_) _ _) cs
  rw [endContext_fibre_gang, hgang y (mem_takenBand.1 hy).1]

end State

/-- Settles O34: with V clear every band takes its trap in turn and no band touches another; with V set the first band ends the context. -/
theorem bandTakesTrap : Obligations.BandTakesTrap := by
  unfold Obligations.BandTakesTrap
  intro s ks lane count gid hne hks hnd hgang t band
  have hin : ∀ x ∈ ks, x.1 < s.fibres.length := fun x hx => (hks x hx).1
  have hlive : ∀ x ∈ ks, (s.fibre x.1).live = true := fun x hx => (hks x hx).2
  refine ⟨fun hv => ?_, fun hv g c hg hc => ?_⟩
  · have htook : TookBands s t (s.handlers gid) ks lane count (ks.map (fun x => s.takenAs x.1 x.2.1)).dedup :=
      tookBands_foldl hin hnd hlive hgang hv lane count _ (List.nodup_dedup _)
        (fun c hc => State.takenBand_ne_nil (List.mem_dedup.1 hc))
    have hclass : ∀ x ∈ ks, s.takenAs x.1 x.2.1 ∈ (ks.map (fun x => s.takenAs x.1 x.2.1)).dedup := fun x hx =>
      List.mem_dedup.2 (List.mem_map_of_mem (f := fun x => s.takenAs x.1 x.2.1) hx)
    refine ⟨htook.rest.mem, htook.rest.results, htook.rest.accesses, htook.rest.gangs, fun x hx => ⟨?_, ?_⟩, fun k hk => ?_⟩
    · exact htook.entered _ (hclass x hx) x (State.mem_takenBand.2 ⟨hx, rfl⟩)
    · exact htook.band _ (hclass x hx)
    · refine htook.others k (fun c _ hkc => hk ?_)
      exact (List.filter_sublist.map _).subset hkc
  · obtain ⟨x, hx, ht⟩ := State.takeTrap_of_v hne hlive hgang hv hg lane count
    obtain ⟨jobs, hcontext⟩ := State.endContext_context hc 1 (x.2.1.cause * 256 + x.2.1.cls)
    obtain ⟨more, hfatal⟩ := c.endedWith_fatal 1 (x.2.1.cause * 256 + x.2.1.cls) jobs
    have ht' : t = s.endContext g.ctx 1 (x.2.1.cause * 256 + x.2.1.cls) := ht
    rw [ht']
    exact ⟨_, x.2.1.cls, x.2.1.cause, more, ⟨x, hx, rfl, rfl⟩, hcontext, rfl, hfatal, fun _ => State.endContext_live hg⟩

end Sys2Proof.Machine

/-! ## Integer words of the ALU pipe

What the arithmetic of words and pairs computes in numbers (R102, R105 to R108, R111, R112). -/

namespace Sys2Proof.Machine

/-! ### Words and pairs as numbers -/

section
variable {w : Nat} (x y : BitVec w)

theorem sub_eq_ofInt : x - y = BitVec.ofInt w (x.toNat - y.toNat) := by
  simp [Int.sub_eq_add_neg, BitVec.ofInt_add, BitVec.ofInt_neg, BitVec.sub_eq_add_neg]

theorem mul_eq_ofNat : x * y = BitVec.ofNat w (x.toNat * y.toNat) := by simp [BitVec.ofNat_mul]
theorem add_mul_eq_ofNat (z : BitVec w) : z + x * y = BitVec.ofNat w (z.toNat + x.toNat * y.toNat) := by
  simp [BitVec.ofNat_add, BitVec.ofNat_mul]
theorem and_eq_ofNat : x &&& y = BitVec.ofNat w (x.toNat &&& y.toNat) := by simp [BitVec.ofNat_and]
theorem or_eq_ofNat : x ||| y = BitVec.ofNat w (x.toNat ||| y.toNat) := by simp [BitVec.ofNat_or]
theorem xor_eq_ofNat : x ^^^ y = BitVec.ofNat w (x.toNat ^^^ y.toNat) := by simp [BitVec.ofNat_xor]

theorem min_toInt_eq : (if x.sle y then x else y) = BitVec.ofInt w (min x.toInt y.toInt) := by
  simp only [BitVec.sle_iff_toInt_le, min_def, apply_ite (BitVec.ofInt w), BitVec.ofInt_toInt]
theorem min_toNat_eq : (if x.ule y then x else y) = BitVec.ofNat w (min x.toNat y.toNat) := by
  simp only [BitVec.ule_iff_toNat_le, min_def, apply_ite (BitVec.ofNat w), BitVec.ofNat_toNat, BitVec.setWidth_eq]
theorem max_toInt_eq : (if y.sle x then x else y) = BitVec.ofInt w (max x.toInt y.toInt) := by
  simp only [BitVec.sle_iff_toInt_le, max_comm x.toInt, max_def, apply_ite (BitVec.ofInt w), BitVec.ofInt_toInt]
theorem max_toNat_eq : (if y.ule x then x else y) = BitVec.ofNat w (max x.toNat y.toNat) := by
  simp only [BitVec.ule_iff_toNat_le, max_comm x.toNat, max_def, apply_ite (BitVec.ofNat w), BitVec.ofNat_toNat, BitVec.setWidth_eq]

/-! #### The high half of a product -/

/-- The high half of a double width is the quotient by the modulus of the single one, of a negative number too. -/
theorem extractLsb'_high_ofInt (z : Int) : (BitVec.ofInt (w + w) z).extractLsb' w w = BitVec.ofInt w (z / 2 ^ w) := by
  have hM : (2 ^ w : Int) ≠ 0 := by positivity
  have hhigh : z % 2 ^ (w + w) / 2 ^ w = z / 2 ^ w - 2 ^ w * (z / 2 ^ (w + w)) := by
    rw [Int.emod_def, pow_add, mul_assoc, Int.sub_mul_ediv_left _ _ hM]
  have hpos : 0 ≤ z % 2 ^ (w + w) := Int.emod_nonneg _ (by positivity)
  have hpos' : 0 ≤ z / 2 ^ w % 2 ^ w := Int.emod_nonneg _ hM
  apply BitVec.eq_of_toNat_eq
  rw [BitVec.extractLsb'_toNat, Nat.shiftRight_eq_div_pow, BitVec.toNat_ofInt, BitVec.toNat_ofInt]
  zify
  rw [Int.toNat_of_nonneg hpos, Int.toNat_of_nonneg hpos', hhigh, Int.sub_mul_emod_self_left]

theorem mulHigh_toInt_eq :
    (x.signExtend (w + w) * y.signExtend (w + w)).extractLsb' w w = BitVec.ofInt w (x.toInt * y.toInt / 2 ^ w) := by
  rw [← extractLsb'_high_ofInt, BitVec.ofInt_mul]
  rfl

theorem mulHigh_toNat_eq :
    (x.setWidth (w + w) * y.setWidth (w + w)).extractLsb' w w = BitVec.ofNat w (x.toNat * y.toNat / 2 ^ w) := by
  have hmul : x.setWidth (w + w) * y.setWidth (w + w) = BitVec.ofInt (w + w) ((x.toNat * y.toNat : Nat) : Int) := by
    rw [BitVec.ofInt_natCast, BitVec.ofNat_mul, BitVec.ofNat_toNat, BitVec.ofNat_toNat]
  rw [hmul, extractLsb'_high_ofInt, ← BitVec.ofInt_natCast]
  norm_cast

/-! #### Shifts and rotation -/

theorem shiftLeft_eq_ofNat (n : Nat) : x <<< n = BitVec.ofNat w (x.toNat * 2 ^ n) :=
  BitVec.eq_of_toNat_eq (by rw [BitVec.toNat_shiftLeft, Nat.shiftLeft_eq, BitVec.toNat_ofNat])

theorem ushiftRight_eq_ofNat (n : Nat) : x >>> n = BitVec.ofNat w (x.toNat / 2 ^ n) := by
  rw [← Nat.shiftRight_eq_div_pow, ← BitVec.toNat_ushiftRight, BitVec.ofNat_toNat, BitVec.setWidth_eq]

theorem sshiftRight_eq_ofInt (n : Nat) : x.sshiftRight n = BitVec.ofInt w (x.toInt / 2 ^ n) := by
  rw [← BitVec.ofInt_toInt (x := x.sshiftRight n), BitVec.toInt_sshiftRight, Int.shiftRight_eq_div_pow]
  norm_cast

/-- What a rotation shifts left and what it brings in from above share no bit, so they add up. -/
theorem rotateLeft_eq_ofNat {n : Nat} (hn : n < w) :
    x.rotateLeft n = BitVec.ofNat w (x.toNat * 2 ^ n + x.toNat / 2 ^ (w - n)) := by
  have hdisjoint : x <<< n &&& x >>> (w - n) = 0#w := by
    apply BitVec.eq_of_getLsbD_eq
    intro i _
    rcases Nat.lt_or_ge i n with h | h
    · simp [h]
    · simp [BitVec.getLsbD_of_ge x (w - n + i) (by omega)]
  rw [BitVec.rotateLeft_def, Nat.mod_eq_of_lt hn, ← BitVec.add_eq_or_of_and_eq_zero _ _ hdisjoint, shiftLeft_eq_ofNat,
    ushiftRight_eq_ofNat, ← BitVec.ofNat_add]

/-! #### Fields -/

/-- The low n bits moved to bit p, where they fit. -/
theorem toNat_lowField {n p : Nat} (hn : n + p ≤ w) :
    ((x &&& BitVec.ofNat w (2 ^ n - 1)) <<< p).toNat = x.toNat % 2 ^ n * 2 ^ p := by
  have hmask : 2 ^ n - 1 < 2 ^ w :=
    (Nat.sub_lt (by positivity) one_pos).trans_le (Nat.pow_le_pow_right two_pos (by omega))
  have hfits : x.toNat % 2 ^ n * 2 ^ p < 2 ^ w := calc
    _ < 2 ^ n * 2 ^ p := Nat.mul_lt_mul_of_pos_right (Nat.mod_lt _ (by positivity)) (by positivity)
    _ ≤ 2 ^ w := by rw [← pow_add]; exact Nat.pow_le_pow_right two_pos hn
  rw [BitVec.toNat_shiftLeft, BitVec.toNat_and, BitVec.toNat_ofNat, Nat.mod_eq_of_lt hmask, Nat.and_two_pow_sub_one_eq_mod,
    Nat.shiftLeft_eq, Nat.mod_eq_of_lt hfits]

theorem and_shifted_mask (m : BitVec w) (p : Nat) : x &&& m <<< p = (x >>> p &&& m) <<< p := by
  apply BitVec.eq_of_getLsbD_eq
  intro i hi
  rcases Nat.lt_or_ge i p with h | h
  · simp [h]
  · simp [hi, Nat.not_lt.2 h, Nat.add_sub_cancel' h]

/-- Taking the bits of one word outside a mask and of another under it. -/
theorem merge_eq_ofNat (m : BitVec w) :
    x &&& ~~~m ||| y &&& m = BitVec.ofNat w (x.toNat - (x &&& m).toNat + (y &&& m).toNat) := by
  have hdisjoint : ∀ z : BitVec w, x &&& ~~~m &&& (z &&& m) = 0#w := fun z => by ext; simp; tauto
  have hparts : x &&& ~~~m ||| x &&& m = x := by ext i hi; cases hm : m[i] <;> simp [hm]
  have hkept : x &&& ~~~m = x - (x &&& m) := by
    rw [eq_sub_iff_add_eq, BitVec.add_eq_or_of_and_eq_zero _ _ (hdisjoint x), hparts]
  have hle : (x &&& m).toNat ≤ x.toNat := Nat.and_le_left
  rw [← BitVec.add_eq_or_of_and_eq_zero _ _ (hdisjoint y), hkept, BitVec.ofNat_add,
    ← BitVec.ofNat_sub_ofNat_of_le _ _ (BitVec.isLt _) hle]
  simp

/-! #### Bits one by one -/

theorem toNat_getLsbD (i : Nat) : (x.getLsbD i).toNat = x.toNat / 2 ^ i % 2 := Nat.toNat_testBit _ _

theorem getLsbD_reverse_of_lt {i : Nat} (hi : i < w) : x.reverse.getLsbD i = x.getLsbD (w - 1 - i) := by
  rw [BitVec.getLsbD_reverse, BitVec.getMsbD]; simp [hi]

/-- A number below 2^k is the sum of its bits at their places. -/
theorem sum_bits_eq_mod (n k : Nat) : ((List.range k).map (fun i => n / 2 ^ i % 2 * 2 ^ i)).sum = n % 2 ^ k := by
  induction k with
  | zero => simp [Nat.mod_one]
  | succ k ih => rw [List.range_succ, List.map_append, List.sum_append, ih, Nat.mod_pow_succ]; simp [mul_comm]

/-- Reading the bits upward and giving bit i the place of bit w - 1 - i is the reversed word. -/
theorem reverse_eq_ofNat :
    x.reverse = BitVec.ofNat w ((List.range w).map (fun i => x.toNat / 2 ^ i % 2 * 2 ^ (w - 1 - i))).sum := by
  have hbit : ∀ i ∈ List.range w,
      x.reverse.toNat / 2 ^ i % 2 * 2 ^ i = x.toNat / 2 ^ (w - 1 - i) % 2 * 2 ^ (w - 1 - (w - 1 - i)) := by
    intro i hi
    have hi : i < w := List.mem_range.1 hi
    rw [← toNat_getLsbD, getLsbD_reverse_of_lt x hi, toNat_getLsbD, show w - 1 - (w - 1 - i) = i by omega]
  have hsum : ((List.range w).map (fun i => x.toNat / 2 ^ i % 2 * 2 ^ (w - 1 - i))).sum = x.reverse.toNat := calc
    _ = ((List.range w).map (fun i => x.toNat / 2 ^ (w - 1 - i) % 2 * 2 ^ (w - 1 - (w - 1 - i)))).sum :=
      (Finset.sum_range_reflect _ w).symm
    _ = x.reverse.toNat % 2 ^ w := by rw [← List.map_congr_left hbit, sum_bits_eq_mod]
    _ = x.reverse.toNat := Nat.mod_eq_of_lt x.reverse.isLt
  rw [hsum, BitVec.ofNat_toNat, BitVec.setWidth_eq]

end

theorem length_filter_eq_sum (l : List Nat) (p : Nat → Bool) : (l.filter p).length = (l.map (fun i => (p i).toNat)).sum := by
  induction l with
  | nil => rfl
  | cons i l ih => cases h : p i <;> simp [h, ih, Nat.add_comm]

theorem size_eq_log2_succ {n : Nat} (hn : n ≠ 0) : n.size = n.log2 + 1 :=
  le_antisymm (Nat.size_le.2 Nat.lt_log2_self) (Nat.lt_size.2 (Nat.log2_self_le hn))

/-! ### The operations of R106 to R108, R111 and R112 -/

theorem count5_eq (b : Word) : count5 b = b.toNat % 32 := by simp [count5]
theorem count6_eq (b : Word) : count6 b = b.toNat % 64 := by simp [count6]
theorem count5_lt (b : Word) : count5 b < 32 := (b.extractLsb' 0 5).isLt

theorem fieldLen_eq (b : Word) : fieldLen b = min (b.toNat / 256 % 64) (32 - b.toNat % 32) := by
  rw [fieldLen, count5_eq]
  simp [Nat.shiftRight_eq_div_pow]

/-- A field ends at bit 31 (R107). -/
theorem fieldLen_add_count5_le (b : Word) : fieldLen b + count5 b ≤ 32 := by
  have := count5_lt b
  have : fieldLen b ≤ 32 - count5 b := min_le_right _ _
  omega

theorem bfx_eq (a b : Word) : bfx a b = BitVec.ofNat 32 (a.toNat / 2 ^ count5 b % 2 ^ fieldLen b) := by
  have hlen : fieldLen b + 0 ≤ 32 := by have := fieldLen_add_count5_le b; omega
  have h := toNat_lowField (a >>> count5 b) hlen
  rw [BitVec.shiftLeft_zero, pow_zero, mul_one, BitVec.toNat_ushiftRight, Nat.shiftRight_eq_div_pow] at h
  rw [← h, BitVec.ofNat_toNat, BitVec.setWidth_eq]
  rfl

theorem bfi_eq (d a b : Word) : bfi d a b = BitVec.ofNat 32
    (d.toNat - d.toNat / 2 ^ count5 b % 2 ^ fieldLen b * 2 ^ count5 b + a.toNat % 2 ^ fieldLen b * 2 ^ count5 b) := by
  have hlen := fieldLen_add_count5_le b
  have hold : (d &&& lowMask (fieldLen b) <<< count5 b).toNat = d.toNat / 2 ^ count5 b % 2 ^ fieldLen b * 2 ^ count5 b := by
    rw [and_shifted_mask, lowMask, toNat_lowField _ hlen, BitVec.toNat_ushiftRight, Nat.shiftRight_eq_div_pow]
  have hnew : (a <<< count5 b &&& lowMask (fieldLen b) <<< count5 b).toNat = a.toNat % 2 ^ fieldLen b * 2 ^ count5 b := by
    rw [← BitVec.shiftLeft_and_distrib, lowMask, toNat_lowField _ hlen]
  rw [bfi, merge_eq_ofNat, hold, hnew]

theorem popc32_eq (a : Word) : popc32 a = BitVec.ofNat 32 ((List.range 32).map (fun i => a.toNat / 2 ^ i % 2)).sum := by
  simp only [popc32, length_filter_eq_sum, toNat_getLsbD]

theorem clz32_eq (a : Word) : clz32 a = BitVec.ofNat 32 (32 - a.toNat.size) := by
  rw [clz32]
  split
  case isTrue h => rw [h, Nat.size_zero]
  case isFalse h => rw [size_eq_log2_succ h, Nat.sub_add_eq, Nat.sub_right_comm]

/-- LEA's sum: the index sign-extended and scaled (R112). -/
theorem lea_eq (x : DWord) (i : Word) (n : Nat) :
    x + i.signExtend 64 * BitVec.ofNat 64 n = BitVec.ofInt 64 (x.toNat + n * i.toInt) := by
  rw [BitVec.ofInt_add, BitVec.ofInt_mul, BitVec.ofInt_natCast, BitVec.ofInt_natCast, BitVec.ofNat_toNat, BitVec.setWidth_eq,
    mul_comm]
  rfl

/-! ### What the words write -/

/-- A word of fixed latency that writes one register a value the model computes as `w`. -/
theorem alu_regWord_of_eq {i : Instr} {h : Head} {d : BitVec 6} {v w : Fibre → Word}
    (hw : ∀ f, w f = v f) (e : ∀ s, exec i s = alu i h s (fun r x => x.setReg d (w r))) : RegWord i h d v :=
  alu_regWord i h d v (funext hw ▸ e)

/-- A word of fixed latency that writes one pair a value the model computes as `w`. -/
theorem alu_pairWord_of_eq {i : Instr} {h : Head} {d : BitVec 6} {v w : Fibre → DWord}
    (hw : ∀ f, w f = v f) (e : ∀ s, exec i s = alu i h s (fun r x => x.setPair d (w r))) : PairWord i h d v :=
  alu_pairWord i h d v (funext hw ▸ e)

/-- Settles O10: each word is `alu` of an operation of words, which is restated in numbers. -/
theorem integerArithmeticCompletes : Obligations.IntegerArithmeticCompletes := by
  unfold Obligations.IntegerArithmeticCompletes
  intro h d a b
  refine ⟨?iadd, ?isub, ?imul, ?imulhS, ?imulhN, ?imac, ?iminS, ?iminN, ?imaxS, ?imaxN, by decide⟩
  case iadd => exact alu_regWord_of_eq (fun f => BitVec.add_def (f.reg a) (f.reg b)) fun _ => rfl
  case isub => exact alu_regWord_of_eq (fun f => sub_eq_ofInt (f.reg a) (f.reg b)) fun _ => rfl
  case imul => exact alu_regWord_of_eq (fun f => mul_eq_ofNat (f.reg a) (f.reg b)) fun _ => rfl
  case imulhS => exact alu_regWord_of_eq (fun f => mulHigh_toInt_eq (f.reg a) (f.reg b)) fun _ => rfl
  case imulhN => exact alu_regWord_of_eq (fun f => mulHigh_toNat_eq (f.reg a) (f.reg b)) fun _ => rfl
  case imac => exact alu_regWord_of_eq (fun f => add_mul_eq_ofNat (f.reg a) (f.reg b) (f.reg d)) fun _ => rfl
  case iminS => exact alu_regWord_of_eq (fun f => min_toInt_eq (f.reg a) (f.reg b)) fun _ => rfl
  case iminN => exact alu_regWord_of_eq (fun f => min_toNat_eq (f.reg a) (f.reg b)) fun _ => rfl
  case imaxS => exact alu_regWord_of_eq (fun f => max_toInt_eq (f.reg a) (f.reg b)) fun _ => rfl
  case imaxN => exact alu_regWord_of_eq (fun f => max_toNat_eq (f.reg a) (f.reg b)) fun _ => rfl

/-- Settles O11: each word is `alu` of an operation of words, which is restated in numbers. -/
theorem logicAndShiftsComplete : Obligations.LogicAndShiftsComplete := by
  unfold Obligations.LogicAndShiftsComplete
  intro h d a b
  refine ⟨?and, ?or, ?xor, ?andn, ?shl, ?shr, ?sar, ?rol, by decide⟩
  case and => exact alu_regWord_of_eq (fun f => and_eq_ofNat (f.reg a) (f.reg b)) fun _ => rfl
  case or => exact alu_regWord_of_eq (fun f => or_eq_ofNat (f.reg a) (f.reg b)) fun _ => rfl
  case xor => exact alu_regWord_of_eq (fun f => xor_eq_ofNat (f.reg a) (f.reg b)) fun _ => rfl
  case andn =>
    exact alu_regWord_of_eq (fun f => (and_eq_ofNat (f.reg a) (~~~f.reg b)).trans (by rw [BitVec.toNat_not])) fun _ => rfl
  case shl =>
    exact alu_regWord_of_eq (fun f => (shiftLeft_eq_ofNat (f.reg a) (count5 (f.reg b))).trans (by rw [count5_eq])) fun _ => rfl
  case shr =>
    exact alu_regWord_of_eq (fun f => (ushiftRight_eq_ofNat (f.reg a) (count5 (f.reg b))).trans (by rw [count5_eq])) fun _ => rfl
  case sar =>
    exact alu_regWord_of_eq (fun f => (sshiftRight_eq_ofInt (f.reg a) (count5 (f.reg b))).trans (by rw [count5_eq])) fun _ => rfl
  case rol =>
    exact alu_regWord_of_eq (fun f => (rotateLeft_eq_ofNat (f.reg a) (count5_lt (f.reg b))).trans (by rw [count5_eq])) fun _ => rfl

/-- A word whose opcode leaves B unused decodes to nothing where B is not zero (R19). -/
theorem decodeAt_of_nonzero_b {h : Head} {op d a b : BitVec 6} {i : Instr} (hg : i.guardOk = true) (hb : b ≠ 0)
    (hop : decodeT (tWord h 0 op d a b) = some ⟨i, b == 0, true, true⟩) :
    decodeAt [tWord h 0 op d a b] = .error .mustBeZero := by
  have hb' : (b == 0) = false := beq_eq_false_iff_ne.2 hb
  simp only [decodeAt, decodeWord, candOf_tWord, hop, hb', Cand.settle, hg]
  rfl

/-- Settles O12: each word is `alu` of an operation of words, which is restated in numbers; a nonzero B is refused after the guard. -/
theorem bitFieldsComplete : Obligations.BitFieldsComplete := by
  unfold Obligations.BitFieldsComplete
  intro h d a b
  refine ⟨?bfx, ?bfi, ?popc, ?clz, ?brev, by decide, ?nonzero⟩
  case bfx =>
    exact alu_regWord_of_eq (fun f => (bfx_eq (f.reg a) (f.reg b)).trans (by rw [fieldLen_eq, count5_eq])) fun _ => rfl
  case bfi =>
    exact alu_regWord_of_eq (fun f => (bfi_eq (f.reg d) (f.reg a) (f.reg b)).trans (by rw [fieldLen_eq, count5_eq])) fun _ => rfl
  case popc => exact alu_regWord_of_eq (fun f => popc32_eq (f.reg a)) fun _ => rfl
  case clz => exact alu_regWord_of_eq (fun f => clz32_eq (f.reg a)) fun _ => rfl
  case brev => exact alu_regWord_of_eq (fun f => reverse_eq_ofNat (f.reg a)) fun _ => rfl
  case nonzero =>
    intro hg hb
    have hguard : decide (h.g.toNat ≤ 12) = true := decide_eq_true hg
    simp only [List.forall_mem_cons, List.not_mem_nil, false_imp_iff, implies_true, and_true]
    refine ⟨decodeAt_of_nonzero_b (i := .popc h d a) hguard hb ?_, decodeAt_of_nonzero_b (i := .clz h d a) hguard hb ?_,
      decodeAt_of_nonzero_b (i := .brev h d a) hguard hb ?_⟩ <;> (unfold decodeT; rw [fOp_tWord]; simp)

/-- Settles O13: each word is `alu` of an operation of pairs, which is restated in numbers. -/
theorem pairWordsComplete : Obligations.PairWordsComplete := by
  unfold Obligations.PairWordsComplete
  intro h d a b
  refine ⟨?ladd, ?lsub, ?lmul, ?lmulhS, ?lmulhN, ?lshl, ?lshr, ?lsar, ?land, ?lor, ?lxor, ?lea1, ?lea2, ?lea4, ?lea8⟩
  case ladd => exact alu_pairWord_of_eq (fun f => BitVec.add_def (f.pair a) (f.pair b)) fun _ => rfl
  case lsub => exact alu_pairWord_of_eq (fun f => sub_eq_ofInt (f.pair a) (f.pair b)) fun _ => rfl
  case lmul => exact alu_pairWord_of_eq (fun f => mul_eq_ofNat (f.pair a) (f.pair b)) fun _ => rfl
  case lmulhS => exact alu_pairWord_of_eq (fun f => mulHigh_toInt_eq (f.pair a) (f.pair b)) fun _ => rfl
  case lmulhN => exact alu_pairWord_of_eq (fun f => mulHigh_toNat_eq (f.pair a) (f.pair b)) fun _ => rfl
  case lshl =>
    exact alu_pairWord_of_eq (fun f => (shiftLeft_eq_ofNat (f.pair a) (count6 (f.reg b))).trans (by rw [count6_eq])) fun _ => rfl
  case lshr =>
    exact alu_pairWord_of_eq (fun f => (ushiftRight_eq_ofNat (f.pair a) (count6 (f.reg b))).trans (by rw [count6_eq])) fun _ => rfl
  case lsar =>
    exact alu_pairWord_of_eq (fun f => (sshiftRight_eq_ofInt (f.pair a) (count6 (f.reg b))).trans (by rw [count6_eq])) fun _ => rfl
  case land => exact alu_pairWord_of_eq (fun f => and_eq_ofNat (f.pair a) (f.pair b)) fun _ => rfl
  case lor => exact alu_pairWord_of_eq (fun f => or_eq_ofNat (f.pair a) (f.pair b)) fun _ => rfl
  case lxor => exact alu_pairWord_of_eq (fun f => xor_eq_ofNat (f.pair a) (f.pair b)) fun _ => rfl
  case lea1 =>
    exact alu_pairWord_of_eq (fun f => (lea_eq (f.pair a) (f.reg b) 1).trans (by rw [Nat.cast_one, one_mul])) fun _ => rfl
  case lea2 => exact alu_pairWord_of_eq (fun f => lea_eq (f.pair a) (f.reg b) 2) fun _ => rfl
  case lea4 => exact alu_pairWord_of_eq (fun f => lea_eq (f.pair a) (f.reg b) 4) fun _ => rfl
  case lea8 => exact alu_pairWord_of_eq (fun f => lea_eq (f.pair a) (f.reg b) 8) fun _ => rfl

end Sys2Proof.Machine
/-! ## Comparison, class and conversion

What FCMP, FCLASS, CVT, NARROW and WIDEN leave before the end of their group (R67, R117, R119, R127, R131, R132). -/

namespace Sys2Proof.Machine

/-! ### Registers, pairs and predicates after a write -/

theorem halves_ofNat (n : Nat) : (BitVec.ofNat 64 n).extractLsb' 0 32 = BitVec.ofNat 32 n ∧
    (BitVec.ofNat 64 n).extractLsb' 32 32 = BitVec.ofNat 32 (n / 2 ^ 32) := by
  have h := pairWrites_ofNat 0 n
  simp only [pairWrites, List.cons.injEq, Prod.mk.injEq] at h
  obtain ⟨⟨_, hlo⟩, ⟨_, hhi⟩, _⟩ := h
  exact ⟨hlo, hhi⟩

namespace Fibre
variable (f : Fibre)

theorem pred_setPred {n : Nat} (hn : n < 12) (k : Nat) (u v : Bool) :
    (f.setPred k u v).pred n = (if n = 2 * k then some u else if n = 2 * k + 1 then some v else none).getD (f.pred n) := by
  rw [pred, setPred, setPredPair_bit _ _ _ _ _ hn]
  split
  · rfl
  · split <;> rfl

/-- Number n as CVT writes it in type y: to pair d for the 64-bit types, else to register d (R127). -/
def setCvt (y : BitVec 3) (d : BitVec 6) (n : Nat) : Fibre :=
  if is64 y then f.setPair d (BitVec.ofNat 64 n) else f.setReg d (BitVec.ofNat 32 n)

variable (y : BitVec 3) (d : BitVec 6) (n : Nat)

theorem setCvt_pair (hy : 5 ≤ y.toNat) : f.setCvt y d n = f.setPair d (BitVec.ofNat 64 n) := if_pos (decide_eq_true hy)
theorem setCvt_reg (hy : ¬ 5 ≤ y.toNat) : f.setCvt y d n = f.setReg d (BitVec.ofNat 32 n) :=
  if_neg (by rw [is64, decide_eq_false hy]; exact Bool.false_ne_true)

theorem setCvt_rest : f.setCvt y d n = { f with regs := (f.setCvt y d n).regs, preds := (f.setCvt y d n).preds } := by
  rw [setCvt]; split <;> rfl

theorem pred_setCvt (q : Nat) : (f.setCvt y d n).pred q = f.pred q := by
  rw [setCvt]; split <;> rfl

theorem setCvt_length : (f.setCvt y d n).regs.length = f.regs.length := by
  rw [setCvt]; split <;> simp [setPair, setReg]

theorem regN_setCvt {r : Nat} (hr : r < f.regs.length) : (f.setCvt y d n).regN r =
    (if 5 ≤ y.toNat then
      (if r = 2 * d.toNat then some (BitVec.ofNat 32 n)
       else if r = 2 * d.toNat + 1 then some (BitVec.ofNat 32 (n / 2 ^ 32)) else none)
    else if r = d.toNat then some (BitVec.ofNat 32 n) else none).getD (f.regN r) := by
  by_cases hy : 5 ≤ y.toNat
  · obtain ⟨hlo, hhi⟩ := halves_ofNat n
    rw [setCvt_pair f y d n hy, if_pos hy, setPair, regN_setRegN _ _ r _ (by simpa using hr), regN_setRegN f _ r _ hr, hlo, hhi]
    by_cases hr0 : r = 2 * d.toNat
    · simp [hr0]
    · rw [if_neg hr0, if_neg hr0]; split <;> rfl
  · rw [setCvt_reg f y d n hy, if_neg hy, setReg, regN_setRegN f _ r _ hr]; split <;> rfl

end Fibre

/-! ### FCMP and CVT -/

theorem cvtSource_eq (x : BitVec 3) (f : Fibre) (a : BitVec 6) :
    cvtSource x f a = if 5 ≤ x.toNat then (f.pair a).toNat else (f.reg a).toNat % 2 ^ cvtBits x := by
  simp only [cvtSource, is64, decide_eq_true_eq]

section
variable {h : Head} {s : State}

/-- FCMP writes its predicate pair and asks for its flags (R67, R117). -/
theorem fcmp_wrote {n p : BitVec 3} {a b : BitVec 6} (hs : s.clear (.fcmp h n p a b)) :
    ∃ t, exec (.fcmp h n p a b) s = .next (t.endWord h 1) ∧
      let r : Nat → Bool × Flags := fun k => fCompare .f32 n ((s.srcOf k).reg a).toNat ((s.srcOf k).reg b).toNat
      Wrote s t (s.on h) (fun _ _ => none)
        (fun k q => if q = 2 * p.toNat then some (r k).1 else if q = 2 * p.toNat + 1 then some (!(r k).1) else none)
        ((s.on h).map (fun k => (k, .flags s.wordPc (r k).2))) := by
  have e : exec (.fcmp h n p a b) s = execFcmp h n p a b s := rfl
  refine ⟨_, e.trans (word_of_clear _ hs), ?_⟩
  exact wrote_of_updFibres s (s.on h) _ _ _ _ (fun _ _ => rfl) (fun _ _ => rfl) (fun _ _ _ _ => rfl)
    (fun _ f _ hq => f.pred_setPred hq _ _ _)

/-- CVT writes a register or a pair by its destination type and asks for its flags (R127). -/
theorem cvt_wrote {d a : BitVec 6} {x y : BitVec 3} (hs : s.clear (.cvt h d a x y)) :
    ∃ t, exec (.cvt h d a x y) s = .next (t.endWord h 1) ∧
      let r : Nat → Nat × Flags := fun k => cvt (rmodeOf (s.srcOf k)) x y (cvtSource x (s.srcOf k) a)
      Wrote s t (s.on h) (fun k q =>
          if 5 ≤ y.toNat then
            (if q = 2 * d.toNat then some (BitVec.ofNat 32 (r k).1)
             else if q = 2 * d.toNat + 1 then some (BitVec.ofNat 32 ((r k).1 / 2 ^ 32)) else none)
          else if q = d.toNat then some (BitVec.ofNat 32 (r k).1) else none)
        (fun _ _ => none) ((s.on h).map (fun k => (k, .flags s.wordPc (r k).2))) := by
  have e : exec (.cvt h d a x y) s = execCvt h d a x y s := rfl
  refine ⟨_, e.trans (word_of_clear _ hs), ?_⟩
  exact wrote_of_updFibres s (s.on h)
    (fun k f => f.setCvt y d (cvt (rmodeOf (s.srcOf k)) x y (cvtSource x (s.srcOf k) a)).1) _ _ _
    (fun _ f => f.setCvt_rest y d _) (fun _ f => f.setCvt_length y d _) (fun _ f _ hq => f.regN_setCvt y d _ hq)
    (fun _ f q _ => f.pred_setCvt y d _ q)

end

/-- Settles O17: FCMP and CVT as above; FCLASS and WIDEN are `alu`, NARROW is `aluFlags`, of the values named. -/
theorem compareAndConvertComplete : Obligations.CompareAndConvertComplete := by
  unfold Obligations.CompareAndConvertComplete
  intro h n p x y d a b
  simp only [← cvtSource_eq]
  exact ⟨fun _ => fcmp_wrote, alu_regWord _ h d _ fun _ => rfl, fun _ => cvt_wrote, aluFlags_floatWord _ h d _ fun _ => rfl,
    alu_regWord _ h d _ fun _ => rfl⟩

end Sys2Proof.Machine

/-! ## The XU pipe

What its words have under way (R114, R121 to R126). -/

namespace Sys2Proof.Machine

/-- A word whose result comes later, computed by the model as `w`. -/
theorem later_sendWord_of_eq {i : Instr} {h : Head} {xu : Bool}
    {r w : Fibre → List (Nat × Word) × List (Nat × Bool × Bool) × Flags}
    (hw : ∀ f, w f = r f) (e : ∀ s, exec i s = later i h s xu w) : SendWord i h xu r :=
  later_sendWord i h xu r (funext hw ▸ e)

theorem oneReg_of_eq {d : BitVec 6} {u v : Word} (h : u = v) (fl : Flags) :
    oneReg d (u.toNat, fl) = ([(d.toNat, v)], [], fl) := by
  rw [oneReg, BitVec.ofNat_toNat, BitVec.setWidth_eq, h]

theorem onePair_eq (d : BitVec 6) (r : Nat × Flags) : onePair d r =
    ([(2 * d.toNat, BitVec.ofNat 32 r.1), (2 * d.toNat + 1, BitVec.ofNat 32 (r.1 / 2 ^ 32))], [], r.2) := by
  rw [onePair, pairWrites_ofNat]

/-! ### Division (R114) -/

section
variable (a b : Word)

theorem beq_zero_iff : (b == 0) = true ↔ b.toNat = 0 := by rw [beq_iff_eq, ← BitVec.toNat_inj]; rfl

theorem idivS_eq : idivS a b = if b.toNat = 0 then (if a.toInt < 0 then 1 else BitVec.ofInt 32 (-1))
    else BitVec.ofInt 32 (a.toInt.tdiv b.toInt) := by
  simp only [idivS, beq_zero_iff, BitVec.slt_iff_toInt_lt]
  rfl

theorem idivN_eq : idivN a b = if b.toNat = 0 then BitVec.ofNat 32 (2 ^ 32 - 1) else BitVec.ofNat 32 (a.toNat / b.toNat) := by
  simp only [idivN, beq_zero_iff, BitVec.udiv_def]
  rfl

theorem iremS_eq : iremS a b = if b.toNat = 0 then a else BitVec.ofInt 32 (a.toInt.tmod b.toInt) := by
  simp only [iremS, beq_zero_iff]

/-- The remainder by 0 is the dividend, as it is of numbers. -/
theorem iremN_eq : iremN a b = BitVec.ofNat 32 (a.toNat % b.toNat) := by
  simp only [iremN, beq_zero_iff, BitVec.umod_def]
  split
  case isTrue h => rw [h, Nat.mod_zero, BitVec.ofNat_toNat, BitVec.setWidth_eq]
  case isFalse => rfl

end

/-- Settles O18: each word sends one register whose value is the model's division, restated in numbers. -/
theorem divisionCompletes : Obligations.DivisionCompletes := by
  unfold Obligations.DivisionCompletes
  intro h d a b one
  refine ⟨?idivS, ?idivN, ?iremS, ?iremN⟩
  case idivS => exact later_sendWord_of_eq (fun f => oneReg_of_eq (idivS_eq (f.reg a) (f.reg b)) 0) fun _ => rfl
  case idivN => exact later_sendWord_of_eq (fun f => oneReg_of_eq (idivN_eq (f.reg a) (f.reg b)) 0) fun _ => rfl
  case iremS => exact later_sendWord_of_eq (fun f => oneReg_of_eq (iremS_eq (f.reg a) (f.reg b)) 0) fun _ => rfl
  case iremN => exact later_sendWord_of_eq (fun f => oneReg_of_eq (iremN_eq (f.reg a) (f.reg b)) 0) fun _ => rfl

/-- Settles O19: each word is `later` of one register, one predicate pair or, restated as two registers, one pair. -/
theorem extendedFloatCompletes : Obligations.ExtendedFloatCompletes := by
  unfold Obligations.ExtendedFloatCompletes
  intro h n p d a b x y xx yy one two
  refine ⟨?fdiv, ?fsqrt, ?frcp, ?frsq, ?fexp2, ?flog2, ?fsinp, ?fcosp, ?dadd, ?dmul, ?dfmac, ?ddiv, ?dsqrt, ?dcmp⟩
  case fdiv | fsqrt | frcp | frsq | fexp2 | flog2 | fsinp | fcosp | dcmp => exact later_sendWord _ h true _ fun _ => rfl
  case dadd | dmul | dfmac | ddiv | dsqrt => exact later_sendWord_of_eq (fun f => onePair_eq d _) fun _ => rfl

end Sys2Proof.Machine

/-! ## What a word leaves of memory

Issue words touch memory only where a trap in the system handler ends a context, whose waiting LAYACQs take their hold counts back
(R171, R332). Taking a trap, parking a band and ending a group are followed once each. -/

namespace Sys2Proof.Machine

/-- No LAYACQ stands in its list, refused or waiting (R332). -/
def State.NoAcquire (s : State) : Prop :=
  ∀ a ∈ s.accesses, a.op = .layacq → a.phase ≠ .refused ∧ ∀ st p, a.phase ≠ .waiting st p

/-- From s to t memory keeps its canonical form and every full/empty bit, and every byte where no LAYACQ stands in its list. -/
structure LeavesMem (s t : State) : Prop where
  form : s.mem.wf = true → t.mem.wf = true
  full : ∀ w, t.mem.full w = s.mem.full w
  same : s.NoAcquire → t.mem = s.mem ∧ t.NoAcquire

namespace LeavesMem

variable {s t u : State}

theorem of_eq (hmem : t.mem = s.mem) (hacc : t.accesses = s.accesses) : LeavesMem s t where
  form h := by rwa [hmem]
  full w := by rw [hmem]
  same h := ⟨hmem, by rwa [State.NoAcquire, hacc]⟩

theorem refl (s : State) : LeavesMem s s := of_eq rfl rfl

theorem trans (h1 : LeavesMem s t) (h2 : LeavesMem t u) : LeavesMem s u where
  form h := h2.form (h1.form h)
  full w := (h2.full w).trans (h1.full w)
  same h := by
    obtain ⟨hmem, hno⟩ := h1.same h
    obtain ⟨hmem', hno'⟩ := h2.same hno
    exact ⟨hmem'.trans hmem, hno'⟩

/-- What changes neither memory nor the accesses. -/
theorem then_eq (h : LeavesMem s t) (hmem : u.mem = t.mem) (hacc : u.accesses = t.accesses) : LeavesMem s u := h.trans (of_eq hmem hacc)

theorem foldl {α : Type} {f : State → α → State} {l : List α} (h : LeavesMem s t) (hf : ∀ u x, LeavesMem s u → LeavesMem s (f u x)) :
    LeavesMem s (l.foldl f t) := by
  induction l generalizing t with
  | nil => exact h
  | cons x l ih => exact ih (hf t x h)

/-- An access that is not in its list is added or presented anew. -/
theorem then_accesses (h : LeavesMem s t) (hmem : u.mem = t.mem) (hacc : ∀ a ∈ u.accesses, a ∈ t.accesses ∨ a.phase = .issued) :
    LeavesMem s u where
  form hs := by rw [hmem]; exact h.form hs
  full w := by rw [hmem, h.full]
  same hs := by
    obtain ⟨hsame, hno⟩ := h.same hs
    refine ⟨hmem.trans hsame, fun a ha hop => ?_⟩
    obtain hold | hnew := hacc a ha
    · exact hno a hold hop
    · simp [hnew]

/-- One more access is presented. -/
theorem present {a : Access} (h : LeavesMem s t) (ha : a.phase = .issued) :
    LeavesMem s (State.bump { t with accesses := t.accesses ++ [a] }) :=
  h.then_accesses rfl fun b hb => (List.mem_append.1 hb).imp id fun hb => by rw [List.mem_singleton.1 hb, ha]

end LeavesMem

/-! ### Hold counts and the end of a context -/

namespace State

theorem markBitmap_full (s : State) (keys : List Nat) (w : Nat) : (s.markBitmap keys).mem.full w = s.mem.full w := by
  unfold markBitmap
  generalize s.migrations = ms
  induction ms generalizing s with
  | nil => rfl
  | cons m ms ih =>
    rw [List.foldl_cons, ih]
    split
    · generalize List.dedup (α := Nat) _ = lines
      induction lines generalizing s with
      | nil => rfl
      | cons i lines ihl => exact ihl { s with mem := s.mem.setByte _ _ }
    · rfl

theorem homeWrote_full (s : State) (u : HomeUse) (keys words : List Nat) (w : Nat) :
    (s.homeWrote u keys words).mem.full w = s.mem.full w := by
  unfold homeWrote
  dsimp only
  rw [upToHomes_mem (touchLines_homes ..), markBitmap_full, upToHomes_mem (upToHomes_foldl _ (fun s ln => writeLine_homes ..) _ _)]

/-- Adding to a hold count writes bytes at its home and nothing else of memory (R326). -/
theorem addHold_mem_keeps (s : State) (p m l : Nat) (up : Bool) :
    (s.mem.wf = true → (s.addHold p m l up).mem.wf = true) ∧ ∀ w, (s.addHold p m l up).mem.full w = s.mem.full w := by
  unfold addHold
  have hreads : ∀ keys, (s.homeReads { part := p } keys).mem = s.mem := fun keys => upToHomes_mem (homeReads_homes ..)
  refine ⟨fun h => ?_, fun w => ?_⟩
  · exact homeWrote_wf (Memory.write_wf (by rwa [hreads]) ..) ..
  · exact (homeWrote_full ..).trans ((Memory.full_write ..).trans (by rw [hreads]))

theorem holdFor_mem_keeps (s : State) (gid : Nat) (r : DWord) (up : Bool) :
    (s.mem.wf = true → (s.holdFor gid r up).mem.wf = true) ∧ ∀ w, (s.holdFor gid r up).mem.full w = s.mem.full w := by
  unfold holdFor
  split
  · exact ⟨id, fun _ => rfl⟩
  · split
    · exact ⟨id, fun _ => rfl⟩
    · exact addHold_mem_keeps ..

theorem dropAcquire_mem_keeps (s : State) (a : Access) :
    (s.mem.wf = true → (s.dropAcquire a).mem.wf = true) ∧ ∀ w, (s.dropAcquire a).mem.full w = s.mem.full w := by
  unfold dropAcquire
  split
  · exact holdFor_mem_keeps ..
  · exact holdFor_mem_keeps ..
  · exact ⟨id, fun _ => rfl⟩

/-- An access that is no LAYACQ in its list has no increments to take back. -/
theorem dropAcquire_eq_self (s : State) {a : Access} (h : a.op = .layacq → a.phase ≠ .refused ∧ ∀ st p, a.phase ≠ .waiting st p) :
    s.dropAcquire a = s := by
  unfold dropAcquire
  split
  next st p hop hphase => exact absurd hphase ((h hop).2 st p)
  next hop hphase => exact absurd hphase (h hop).1
  next => rfl

theorem foldl_dropAcquire_mem_keeps (l : List Access) (s : State) :
    (s.mem.wf = true → (l.foldl dropAcquire s).mem.wf = true) ∧ ∀ w, (l.foldl dropAcquire s).mem.full w = s.mem.full w := by
  induction l generalizing s with
  | nil => exact ⟨id, fun _ => rfl⟩
  | cons a l ih =>
    obtain ⟨hform, hfull⟩ := dropAcquire_mem_keeps s a
    obtain ⟨iform, ifull⟩ := ih (s.dropAcquire a)
    exact ⟨fun h => iform (hform h), fun w => (ifull w).trans (hfull w)⟩

theorem foldl_dropAcquire_eq_self {l : List Access} (s : State)
    (h : ∀ a ∈ l, a.op = .layacq → a.phase ≠ .refused ∧ ∀ st p, a.phase ≠ .waiting st p) : l.foldl dropAcquire s = s := by
  induction l with
  | nil => rfl
  | cons a l ih =>
    rw [List.foldl_cons, dropAcquire_eq_self s (h a (List.mem_cons_self ..))]
    exact ih fun b hb => h b (List.mem_cons_of_mem a hb)

theorem pendingAccess_issued {s : State} {k : Nat} {a : Access} (h : s.pendingAccess k = some a) : a.phase = .issued := by
  unfold pendingAccess at h
  dsimp only at h
  split at h
  · obtain ⟨od, _, rfl⟩ := Option.map_eq_some_iff.1 h
    rfl
  · cases h

end State

namespace LeavesMem

variable {s t : State}

theorem clearDeques {g : Gang} (h : LeavesMem s t) : LeavesMem s (t.clearDeques g) := by
  unfold State.clearDeques
  split
  · exact h.foldl (fun u c hu => hu.then_eq rfl rfl)
  · exact h

/-- The waiting LAYACQs of an ended context take their increments back, which changes bytes only; the rest changes no memory (R332). -/
theorem endContext {cid kind value : Nat} (h : LeavesMem s t) : LeavesMem s (t.endContext cid kind value) := by
  unfold State.endContext
  dsimp only
  generalize hl : t.accesses.filter (fun a => t.ofContext cid a.gang) = l
  obtain ⟨hform, hfull⟩ := State.foldl_dropAcquire_mem_keeps l t
  refine LeavesMem.foldl (h.trans ⟨hform, hfull, fun hno => ?_⟩) (fun u g hu => hu.clearDeques)
  have hself : l.foldl State.dropAcquire t = t := State.foldl_dropAcquire_eq_self t fun a ha => hno a (by
    rw [← hl] at ha
    exact (List.mem_filter.1 ha).1)
  rw [hself]
  exact ⟨rfl, fun a ha => hno a (List.mem_filter.1 ha).1⟩

/-! ### Bands and traps -/

theorem newBand {ks : List Nat} {park : Park} (h : LeavesMem s t) : LeavesMem s (t.newBand ks park) := by
  unfold State.newBand
  split
  · exact h
  · exact h.then_eq rfl rfl

theorem bandsByPc {ks : List Nat} {park : Park} (h : LeavesMem s t) : LeavesMem s (t.bandsByPc ks park) := by
  unfold State.bandsByPc
  exact h.foldl (fun u _ hu => hu.newBand)

theorem goOn {ks : List Nat} (h : LeavesMem s t) : LeavesMem s (t.goOn ks) := by
  unfold State.goOn
  exact (h.foldl (fun u _ hu => hu.newBand)).then_eq rfl rfl

theorem traceTrap {k : Nat} {tr : Trap} (h : LeavesMem s t) : LeavesMem s (t.traceTrap k tr) :=
  have hb := State.traceTrap_upToBands t k tr
  h.then_eq hb.mem hb.accesses

theorem takeOne {ks : List (Nat × Trap × DWord)} {lane count : Nat} (h : LeavesMem s t) : LeavesMem s (t.takeOne ks lane count) := by
  unfold State.takeOne
  split
  · exact h
  · dsimp only
    split
    · split
      · exact h.endContext
      · exact h
    · refine LeavesMem.then_eq (LeavesMem.traceTrap (LeavesMem.newBand ?_)) rfl rfl
      exact h.then_eq rfl rfl

theorem takeTrap {ks : List (Nat × Trap × DWord)} {lane : Option Nat} {count : Nat} (h : LeavesMem s t) :
    LeavesMem s (t.takeTrap ks lane count) := by
  unfold State.takeTrap
  exact h.foldl (fun u _ hu => hu.takeOne)

theorem takeGroups {picks : List (Nat × Trap × DWord)} (h : LeavesMem s t) : LeavesMem s (t.takeGroups picks) := by
  unfold State.takeGroups
  exact h.foldl (fun u _ hu => hu.takeTrap)

/-! ### The return from a trap -/

theorem reissue {k : Nat} (h : LeavesMem s t) : LeavesMem s (t.reissue k) := by
  unfold State.reissue
  exact foldl (h.then_accesses rfl fun a ha => .inl (List.mem_filter.1 ha).1) fun u a hu => hu.present rfl

theorem presentAgain {ks : List Nat} (h : LeavesMem s t) : LeavesMem s (t.presentAgain ks) := by
  unfold State.presentAgain
  refine h.foldl (fun u k hu => reissue ?_)
  split
  next a _ hpend => exact hu.present (State.pendingAccess_issued hpend)
  next => exact hu

theorem resumeAccess {ks : List Nat} (h : LeavesMem s t) : LeavesMem s (t.resumeAccess ks) := by
  unfold State.resumeAccess
  refine takeGroups (foldl ?_ (fun u c hu => hu.bandsByPc))
  exact (h.presentAgain).then_eq rfl rfl

theorem tryResume {gid : Nat} (h : LeavesMem s t) : LeavesMem s (t.tryResume gid) := by
  unfold State.tryResume
  split
  · exact h
  · dsimp only
    split
    · exact resumeAccess (h.then_eq rfl rfl)
    · exact h

theorem returnFrom {ks : List Nat} (h : LeavesMem s t) : LeavesMem s (t.returnFrom ks) := by
  unfold State.returnFrom
  dsimp only
  split
  on_goal 2 => apply tryResume
  all_goals
    refine resumeAccess ?_
    split
    · exact goOn (h.then_eq rfl rfl)
    · exact takeTrap (goOn (h.then_eq rfl rfl))

/-! ### Markers and the end of a group -/

theorem resolve {ks : List Nat} (h : LeavesMem s t) : LeavesMem s (t.resolve ks) := by
  unfold State.resolve
  dsimp only
  split
  · exact takeGroups (takeTrap (h.then_eq rfl rfl))
  · exact takeGroups (returnFrom (goOn (h.then_eq rfl rfl)))

theorem settle {b : Band} (h : LeavesMem s t) : LeavesMem s (t.settle b) := by
  unfold State.settle
  split
  · exact h.resolve
  · exact h

theorem parkBy {α : Type} [DecidableEq α] {ks : List Nat} {key : Nat → α} {park : Park} (h : LeavesMem s t) :
    LeavesMem s (t.parkBy ks key park) := by
  unfold State.parkBy
  refine h.foldl (fun u a hu => ?_)
  dsimp only
  split
  · exact (hu.newBand).settle
  · exact hu.newBand

theorem vectorWhenIn {bad : List (Nat × Trap)} (h : LeavesMem s t) : LeavesMem s (t.vectorWhenIn bad) := by
  unfold State.vectorWhenIn
  exact parkBy (h.then_eq rfl rfl)

theorem noteLoss {k cause : Nat} (h : LeavesMem s t) : LeavesMem s (t.noteLoss k cause) := by
  unfold State.noteLoss
  split <;> exact h.then_eq rfl rfl

theorem trapAtIssue {bad : List (Nat × Trap)} (h : LeavesMem s t) : LeavesMem s (t.trapAtIssue bad) := by
  unfold State.trapAtIssue
  split
  · exact h
  · exact vectorWhenIn ((h.foldl (fun u _ hu => hu.noteLoss)).then_eq rfl rfl)

theorem updPart {p : Nat} {f : Part → Part} (h : LeavesMem s t) : LeavesMem s (t.updPart p f) := h.then_eq rfl rfl

theorem gangSaved {gid : Nat} (h : LeavesMem s t) : LeavesMem s (t.gangSaved gid) := by
  unfold State.gangSaved
  split
  · exact h
  · dsimp only
    split
    · split
      · exact clearDeques (h.then_eq rfl rfl)
      · exact updPart (clearDeques (h.then_eq rfl rfl))
    · exact h

theorem endGroup {next : Nat} (h : LeavesMem s t) : LeavesMem s (t.endGroup next) := by
  unfold State.endGroup
  dsimp only
  split
  · exact h.then_eq rfl rfl
  · split
    on_goal 2 => apply gangSaved
    all_goals exact parkBy (parkBy (newBand (goOn (h.then_eq rfl rfl))))

theorem endWord {hd : Head} {words : Nat} (h : LeavesMem s t) : LeavesMem s (t.endWord hd words) := by
  unfold State.endWord
  dsimp only
  split
  · exact h.then_eq rfl rfl
  · split
    · exact h.then_eq rfl rfl
    · exact endGroup (h.then_eq rfl rfl)

theorem screen (h : LeavesMem s t) : LeavesMem s t.screen := by
  unfold State.screen
  split
  · exact trapAtIssue (h.then_eq rfl rfl)
  · dsimp only
    split
    · exact h.then_eq rfl rfl
    · have hu : LeavesMem s ((t.count t.issue.core 0x11 1).trapAtIssue t.groupBad) := trapAtIssue (h.then_eq rfl rfl)
      split
      · exact newBand (hu.then_eq rfl rfl)
      · exact hu

/-! ### Results and accesses of words -/

theorem sendResults {xu : Bool} {ks : List Nat} {g : Nat → List (Nat × Word) × List (Nat × Bool × Bool) × Flags}
    (h : LeavesMem s t) : LeavesMem s (t.sendResults xu ks g) := by
  unfold State.sendResults
  exact h.foldl (fun u _ hu => hu.then_eq rfl rfl)

theorem post {i : Instr} {ks : List Nat} {g : Fibre → Post} (h : LeavesMem s t) : LeavesMem s (t.post i ks g) := by
  unfold State.post
  exact h.foldl (fun u _ hu => hu.present rfl)

end LeavesMem

end Sys2Proof.Machine

/-! ### Each issue word -/

namespace Sys2Proof.Machine

/-- Wherever an outcome goes on, memory is left as `LeavesMem` says. -/
def LeavesMemNext (s : State) (o : Host.Outcome State Fault Refusal) : Prop := ∀ t, o = .next t → LeavesMem s t

section

variable {i : Instr} {h : Head} {s : State}

/-- A word leaves memory as its effect does: neither the check of its lanes nor the end of its group adds to that. -/
theorem word_leavesMem {eff : State → List Nat → State} (heff : ∀ u ks, LeavesMem s u → LeavesMem s (eff u ks)) :
    LeavesMemNext s (word i h s eff) := by
  rintro t ⟨⟩
  exact (heff _ _ (LeavesMem.refl s).trapAtIssue).endWord

theorem alu_leavesMem {g : Fibre → Fibre → Fibre} : LeavesMemNext s (alu i h s g) :=
  word_leavesMem fun _ _ hu => hu.then_eq rfl rfl

theorem aluFlags_leavesMem {g : Fibre → Nat × Flags} {d : BitVec 6} : LeavesMemNext s (aluFlags i h s g d) :=
  word_leavesMem fun _ _ hu => hu.then_eq rfl rfl

theorem later_leavesMem {xu : Bool} {g : Fibre → List (Nat × Word) × List (Nat × Bool × Bool) × Flags} :
    LeavesMemNext s (later i h s xu g) :=
  word_leavesMem fun _ _ hu => hu.sendResults

theorem posts_leavesMem {g : Fibre → Post} : LeavesMemNext s (posts i h s g) :=
  word_leavesMem fun _ _ hu => hu.post

end

/-- Each issue word writes registers, sends results, posts accesses or asks for what ends its group; none of these touches memory. -/
theorem exec_word_leavesMem {i : Instr} (hw : i.isWord = true) (s : State) : LeavesMemNext s (exec i s) := by
  unfold exec
  cases i
  case iadd | isub | imul | imulhS | imulhN | imac | iminS | iminN | imaxS | imaxN | and | or | xor | andn | shl | shr | sar | rol
      | bfx | bfi | icmpS | icmpN | popc | clz | brev | mov | ladd | lsub | lmul | lmulhS | lmulhN | lshl | lshr | lsar | lcmpS | lcmpN
      | land | lor | lxor | lea1 | lea2 | lea4 | lea8 | iaddi | andi | ori | xori | shli | shri | sari | icmpiS | icmpiN | movi | laddi
      | imuli | movl | widen | fclass =>
    exact alu_leavesMem
  case fadd | fsub | fmul | fmac | fnmac | fmin | fmax | fneg | fabs | hadd2 | hmul2 | hfmac2 | badd2 | bmul2 | bfmac2 | narrow =>
    exact aluFlags_leavesMem
  case dadd | dmul | dfmac | dcmp | idivS | idivN | iremS | iremN | fdiv | fsqrt | frcp | frsq | fexp2 | flog2 | fsinp | fcosp | ddiv
      | dsqrt =>
    exact later_leavesMem
  case ldb | ldbs | ldh | ldhs | ldw | ldd | ldq | stb | sth | stw | std | stq | ldt | stt | atom | atomn | atomd | atomdn | atomf
      | atomfn | xchg | cas | casd | tagr | tags | pref | sign | marm | cpyq | bari | barv | barw | fence | layq | layadv | laypin
      | layacq | layrel | tgpost | icinv | lnkq | tlbinv =>
    exact posts_leavesMem
  case shfl | bcast | vote | matchL | red | scan | rdfs => exact word_leavesMem fun _ _ hu => hu.sendResults
  case fcmp | cvt | rds | wrs => exact word_leavesMem fun _ _ hu => hu.then_eq rfl rfl
  case bra | brx | ret | endF | yield | nop | trap | rett | saved => exact word_leavesMem fun _ _ hu => hu.then_eq rfl rfl
  case call | loop => exact word_leavesMem fun _ _ hu => hu.sendResults.then_eq rfl rfl
  case endJ | fork => exact word_leavesMem fun _ _ hu => hu.post.then_eq rfl rfl
  case carve =>
    refine word_leavesMem fun u ks hu => ?_
    split
    · exact hu
    · exact hu.then_eq rfl rfl
  case wrfs =>
    refine word_leavesMem fun u ks hu => hu.foldl fun v k hv => ?_
    dsimp only
    split
    · exact hv.then_eq rfl rfl
    · exact hv.then_eq rfl rfl
    · exact hv
  all_goals cases hw

/-- Settles O8: whatever a word does at its issue leaves memory as `LeavesMem` says. -/
theorem wordsLeaveMemory : Obligations.WordsLeaveMemory := by
  unfold Obligations.WordsLeaveMemory
  intro i s t hw ht
  obtain ⟨_, hfull, hsame⟩ := exec_word_leavesMem hw s t ht
  refine ⟨hfull, fun hno => ?_⟩
  have hmem := (hsame hno).1
  exact ⟨hmem, fun a => by rw [hmem]⟩

/-- Settles O24: each of the words is `posts` of one access; SIGN's address is its number widened. -/
theorem postingWordsPost : Obligations.PostingWordsPost := by
  unfold Obligations.PostingWordsPost
  intro h d a b e k scope n
  refine ⟨?bari, ?barv, ?barw, ?fence, ?layq, ?layadv, ?laypin, ?layacq, ?layrel, ?sign, ?marm, ?cpyq, ?tgpost, ?lnkq, ?icinv, ?tlbinv⟩
  case sign => exact posts_postWord _ h _ fun s => by rw [BitVec.ofNat_toNat]; rfl
  all_goals exact posts_postWord _ h _ fun _ => rfl

end Sys2Proof.Machine

/-! ## Memory stays in canonical form (R137, R139, R142)

Every function that answers a state either leaves memory alone (`f_mem`) or keeps it in canonical form (`f_wf`); `WfOpt` and
`WfOut` say the same of an optional state and of an outcome. The lemmas stand in the order of the model's files, so that each
is proved from those of the functions it calls. -/

namespace Sys2Proof.Machine

/-- Whatever state is answered, its memory is in canonical form. -/
def WfOpt (o : Option State) : Prop := ∀ t, o = some t → t.mem.wf = true

/-- Whatever state an outcome goes on with, its memory is in canonical form. -/
def WfOut (o : Host.Outcome State Fault Refusal) : Prop := ∀ t, o = .next t → t.mem.wf = true

@[simp] theorem wfOpt_none : WfOpt none := fun _ h => nomatch h

@[simp] theorem wfOpt_some {t : State} : WfOpt (some t) ↔ t.mem.wf = true :=
  ⟨fun h => h t rfl, fun h _ e => Option.some.inj e ▸ h⟩

@[simp] theorem wfOut_next {t : State} : WfOut (.next t) ↔ t.mem.wf = true :=
  ⟨fun h => h t rfl, fun h _ e => by cases e; exact h⟩

@[simp] theorem wfOut_refused {r : Refusal} : WfOut (.refused r) := fun _ h => nomatch h

@[simp] theorem wfOut_ev {name : String} {o : Option State} (h : WfOpt o) : WfOut (ev name o) := by
  cases o with
  | none => simp [ev]
  | some t => simpa [ev] using h

@[simp] theorem wfOut_evPort {name : String} {o : Option State} (h : WfOpt o) : WfOut (evPort name o) := by
  cases o with
  | none => simp [evPort]
  | some t =>
    simp only [evPort]
    split
    · exact wfOut_refused
    · exact wfOut_next.2 (wfOpt_some.1 h)

@[simp] theorem wfOpt_map {α : Type} {o : Option α} {f : α → State}
    (h : ∀ a, o = some a → (f a).mem.wf = true) : WfOpt (o.map f) := by
  cases o with
  | none => exact wfOpt_none
  | some a => simpa using h a rfl

@[simp] theorem wfOpt_bind {α : Type} {o : Option α} {f : α → Option State}
    (h : ∀ a, o = some a → WfOpt (f a)) : WfOpt (o.bind f) := by
  cases o with
  | none => exact wfOpt_none
  | some a => simpa using h a rfl

theorem mem_foldl {α : Type} {f : State → α → State} {l : List α} {s : State}
    (h : ∀ s x, (f s x).mem = s.mem) : (l.foldl f s).mem = s.mem := by
  induction l generalizing s with
  | nil => rfl
  | cons x l ih => exact ih.trans (h s x)

theorem wf_foldl {α : Type} {f : State → α → State} {l : List α} {s : State}
    (h : ∀ s x, s.mem.wf = true → (f s x).mem.wf = true) (hs : s.mem.wf = true) : (l.foldl f s).mem.wf = true := by
  induction l generalizing s with
  | nil => exact hs
  | cons x l ih => exact ih (h s x hs)


@[simp] theorem State.homeReads_mem (s : State) (u : HomeUse) (keys : List Nat) : (s.homeReads u keys).mem = s.mem :=
  upToHomes_mem (State.homeReads_homes ..)

@[simp] theorem wf_ite {c : Prop} [Decidable c] {s t : State} (hs : s.mem.wf = true)
    (ht : t.mem.wf = true) : (if c then s else t).mem.wf = true := by
  split
  · exact hs
  · exact ht

@[simp] theorem wfOpt_ite {c : Prop} [Decidable c] {a b : Option State} (ha : WfOpt a) (hb : WfOpt b) : WfOpt (if c then a else b) := by
  split
  · exact ha
  · exact hb

@[simp] theorem vfWrite_wf {s : State} {o : Option State} (hs : s.mem.wf = true) (ho : WfOpt o) : WfOpt (s.vfWrite o) :=
  wfOpt_ite ho (wfOpt_some.2 hs)

end Sys2Proof.Machine

/-! ### Memory stays canonical: the functions of `Sys2Proof/Machine/Lookup.lean` -/

namespace Sys2Proof.Machine

@[simp] theorem State.pick_mem (s : State) (n : Nat) : (s.pick n).2.mem = s.mem := rfl

@[simp] theorem State.sramEvent_mem (s : State) (k : Nat) : (s.sramEvent k).mem = s.mem := rfl

@[simp] theorem State.countLost_mem (s : State) : s.countLost.mem = s.mem := upToHomes_mem (State.countLost_homes ..)

@[simp] theorem State.noteLoss_mem (s : State) (k cause : Nat) : (s.noteLoss k cause).mem = s.mem := by
  unfold State.noteLoss
  split <;> rfl

end Sys2Proof.Machine

/-! ### Memory stays canonical: the functions of `Sys2Proof/Machine/Slices.lean` -/

namespace Sys2Proof.Machine

@[simp] theorem State.healSector_mem (s : State) (ch sec : Nat) :
    (s.healSector ch sec).mem = s.mem := upToHomes_mem (State.healSector_homes ..)

@[simp] theorem State.readSector_mem (s : State) (ch sec : Nat) :
    (s.readSector ch sec).2.mem = s.mem := upToHomes_mem (State.readSector_homes ..)

@[simp] theorem State.noTag_mem (s : State) : s.noTag.mem = s.mem := upToHomes_mem (State.noTag_homes ..)

@[simp] theorem State.sendPort_mem (s : State) (a : Nat) (r : PortReq) :
    (s.sendPort a r).mem = s.mem := upToHomes_mem (State.sendPort_homes ..)

@[simp] theorem State.allocate_mem (s : State) (u : HomeUse) (ln : Nat) (valid dirty fe : List Bool) :
    (s.allocate u ln valid dirty fe).mem = s.mem := upToHomes_mem (State.allocate_homes ..)

@[simp] theorem State.cleanL2_mem (s : State) (keys : List Nat) : (s.cleanL2 keys).mem = s.mem := upToHomes_mem (State.cleanL2_homes ..)

@[simp] theorem State.noteFrames_mem (s : State) (u : HomeUse) (keys : List Nat) :
    (s.noteFrames u keys).mem = s.mem := upToHomes_mem (State.noteFrames_homes ..)

@[simp] theorem State.touchLines_mem (s : State) (u : HomeUse) (keys : List Nat) :
    (s.touchLines u keys).mem = s.mem := upToHomes_mem (State.touchLines_homes ..)

@[simp] theorem State.placeWrote_wf {s : State} (hwf : s.mem.wf = true) (u : HomeUse) (l : Loc) (data bit : Bool) :
    (s.placeWrote u l data bit).mem.wf = true := by
  unfold State.placeWrote
  (repeat' split) <;> simp [State.homeWrote_wf, hwf]

@[simp] theorem State.hostSees_mem (s : State) (fibre : Option Nat) (part : Nat) (node : Option Nat) (keys : List Nat) :
    (s.hostSees fibre part node keys).mem = s.mem := by
  unfold State.hostSees
  split <;> rfl

end Sys2Proof.Machine

/-! ### Memory stays canonical: the functions of `Sys2Proof/Machine/Holds.lean` -/

namespace Sys2Proof.Machine

@[simp] theorem State.addHold_wf {s : State} (hwf : s.mem.wf = true) (p m l : Nat) (up : Bool) : (s.addHold p m l up).mem.wf = true :=
  (State.addHold_mem_keeps ..).1 hwf

@[simp] theorem State.holdFor_wf {s : State} (hwf : s.mem.wf = true) (gid : Nat) (r : DWord) (up : Bool) :
    (s.holdFor gid r up).mem.wf = true :=
  (State.holdFor_mem_keeps ..).1 hwf

@[simp] theorem State.dropAcquire_wf {s : State} (hwf : s.mem.wf = true) (a : Access) : (s.dropAcquire a).mem.wf = true :=
  (State.dropAcquire_mem_keeps ..).1 hwf

end Sys2Proof.Machine

/-! ### Memory stays canonical: the functions of `Sys2Proof/Machine/Ops.lean` -/

namespace Sys2Proof.Machine

@[simp] theorem State.count_mem (s : State) (core e n : Nat) : (s.count core e n).mem = s.mem := rfl

@[simp] theorem State.newBand_mem (s : State) (ks : List Nat) (park : Park) : (s.newBand ks park).mem = s.mem := by
  unfold State.newBand
  split <;> rfl

@[simp] theorem State.bandsByPc_mem (s : State) (ks : List Nat) (park : Park) :
    (s.bandsByPc ks park).mem = s.mem := mem_foldl fun _ _ => by simp

@[simp] theorem State.clearDeques_mem (s : State) (g : Gang) : (s.clearDeques g).mem = s.mem := by
  unfold State.clearDeques
  split
  · exact mem_foldl (fun _ _ => rfl)
  · rfl

@[simp] theorem State.endContext_wf {s0 : State} (hwf : s0.mem.wf = true) (cid kind value : Nat) :
    (s0.endContext cid kind value).mem.wf = true :=
  (LeavesMem.refl s0).endContext.form hwf

@[simp] theorem State.endFibres_mem (s : State) (ks : List Nat) : (s.endFibres ks).mem = s.mem := rfl

@[simp] theorem State.trace_mem (s : State) (core : Nat) (data : List Byte) : (s.trace core data).mem = s.mem := by
  unfold State.trace
  dsimp only
  (repeat' split) <;> simp

@[simp] theorem State.takeTrap_wf {s : State} (hwf : s.mem.wf = true) (ks : List (Nat × Trap × DWord)) (lane : Option Nat) (count : Nat) :
    (s.takeTrap ks lane count).mem.wf = true :=
  (LeavesMem.refl s).takeTrap.form hwf

@[simp] theorem State.tryResume_wf {s : State} (hwf : s.mem.wf = true) (gid : Nat) : (s.tryResume gid).mem.wf = true :=
  (LeavesMem.refl s).tryResume.form hwf

@[simp] theorem State.resolve_wf {s : State} (hwf : s.mem.wf = true) (ks : List Nat) : (s.resolve ks).mem.wf = true :=
  (LeavesMem.refl s).resolve.form hwf

@[simp] theorem State.vectorWhenIn_wf {s : State} (hwf : s.mem.wf = true) (bad : List (Nat × Trap)) :
    (s.vectorWhenIn bad).mem.wf = true :=
  (LeavesMem.refl s).vectorWhenIn.form hwf

@[simp] theorem State.trapAtIssue_wf {s : State} (hwf : s.mem.wf = true) (bad : List (Nat × Trap)) : (s.trapAtIssue bad).mem.wf = true :=
  (LeavesMem.refl s).trapAtIssue.form hwf

@[simp] theorem State.gangSaved_mem (s : State) (gid : Nat) : (s.gangSaved gid).mem = s.mem := by
  unfold State.gangSaved
  dsimp only
  (repeat' split) <;> simp

end Sys2Proof.Machine

/-! ### Memory stays canonical: the functions of `Sys2Proof/Machine/Group.lean` -/

namespace Sys2Proof.Machine

@[simp] theorem State.screen_wf {s : State} (hwf : s.mem.wf = true) : s.screen.mem.wf = true :=
  (LeavesMem.refl s).screen.form hwf

end Sys2Proof.Machine

/-! ### Memory stays canonical: the functions of `Sys2Proof/Machine/Translate.lean` -/

namespace Sys2Proof.Machine

@[simp] theorem State.cacheVa_mem (s : State) (c : Context) (va : Nat) (n : Need) :
    (s.cacheVa c va n).mem = s.mem := upToHomes_mem (State.cacheVa_homes ..)

@[simp] theorem State.redraw_mem (s : State) : s.redraw.mem = s.mem := upToHomes_mem (State.redraw_homes ..)

@[simp] theorem State.queueBytes_wf {s : State} (hwf : s.mem.wf = true) (p hpa : Nat) (bytes : List Byte) :
    (s.queueBytes p hpa bytes).mem.wf = true := by
  unfold State.queueBytes
  exact State.homeWrote_wf (Memory.foldl_wf _ (fun _ _ h => Memory.setByte_wf h ..) _ hwf) ..

@[simp] theorem State.faultRecord_wf {s : State} (hwf : s.mem.wf = true) (cid : Nat) (bytes : List Byte) :
    (s.faultRecord cid bytes).mem.wf = true := by
  unfold State.faultRecord
  (repeat' split) <;> simp [hwf]

@[simp] theorem State.hvBytes_wf {s : State} (hwf : s.mem.wf = true) (bytes : List Byte) : (s.hvBytes bytes).mem.wf = true := by
  unfold State.hvBytes
  simp [hwf]

@[simp] theorem State.hvRecord_mem (s : State) (kind part value : Nat) : (s.hvRecord kind part value).mem = s.mem := rfl

@[simp] theorem State.noteFatal_mem (s : State) (cid kind value : Nat) : (s.noteFatal cid kind value).mem = s.mem := by
  unfold State.noteFatal
  split <;> rfl

@[simp] theorem State.pageRequest_wf {s : State} (hwf : s.mem.wf = true) (cid va cause gpa kind : Nat) :
    (s.pageRequest cid va cause gpa kind).mem.wf = true := by
  unfold State.pageRequest
  (repeat' split) <;> simp [hwf]

end Sys2Proof.Machine

/-! ### Memory stays canonical: the functions of `Sys2Proof/Machine/Place.lean` -/

namespace Sys2Proof.Machine

@[simp] theorem State.tookTurn_mem (s : State) (sl key : Nat) : (s.tookTurn sl key).mem = s.mem := upToHomes_mem (State.tookTurn_homes ..)

@[simp] theorem State.tookBank_mem (s : State) (core key : Nat) : (s.tookBank core key).mem = s.mem := rfl

@[simp] theorem State.engineTook_mem (s : State) (p cluster bank : Nat) (keys : List Nat) :
    (s.engineTook p cluster bank keys).mem = s.mem := by
  unfold State.engineTook
  rw [mem_foldl (fun _ _ => State.tookBank_mem ..), mem_foldl (fun _ _ => State.tookTurn_mem ..)]

@[simp] theorem State.frontTook_mem (s : State) (p : Nat) (keys : List Nat) :
    (s.frontTook p keys).mem = s.mem := upToHomes_mem (State.frontTook_homes ..)

@[simp] theorem State.frontReads_mem (s : State) (u : HomeUse) (keys : List Nat) :
    (s.frontReads u keys).mem = s.mem := upToHomes_mem (State.frontReads_homes ..)

@[simp] theorem State.joinLaunch_mem (s : State) (gid t : Nat) : (s.joinLaunch gid t).mem = s.mem := by
  unfold State.joinLaunch
  (repeat' split) <;> simp

@[simp] theorem State.storedL1_mem (s : State) (core : Nat) (l : Loc) : (s.storedL1 core l).mem = s.mem := rfl

@[simp] theorem State.acked_wf {s : State} (hwf : s.mem.wf = true) (a : Access) (l : Loc) (data bit : Bool) :
    (s.acked a l data bit).mem.wf = true := by
  unfold State.acked
  simp [hwf]

@[simp] theorem State.refreshL1_mem (s : State) (core : Nat) (ln : Nat) : (s.refreshL1 core ln).mem = s.mem := by
  unfold State.refreshL1
  split <;> rfl

@[simp] theorem State.homeReturns_mem (s : State) (a : Access) (l : Loc) : (s.homeReturns a l).mem = s.mem := by
  unfold State.homeReturns
  (repeat' split) <;> simp

@[simp] theorem State.returns_mem (s : State) (a : Access) (w : List (Nat × Word)) : (s.returns a w).mem = s.mem := rfl

@[simp] theorem State.accessTrap_mem (s : State) (a : Access) (cls cause : Nat) (addr : DWord) :
    (s.accessTrap a cls cause addr).mem = s.mem := rfl

@[simp] theorem State.taken_wf {s : State} (hwf : s.mem.wf = true) (a : Access) (l : Loc) (form : Form) :
    (s.taken a l form).mem.wf = true := by
  unfold State.taken
  split
  · exact State.placeWrote_wf (Loc.setFull_wf hwf ..) ..
  · exact hwf

@[simp] theorem State.act_wf {s : State} (hwf : s.mem.wf = true) (a : Access) (l : Loc) : (s.act a l).mem.wf = true := by
  unfold State.act
  cases a.op
  case store | stt => exact State.acked_wf (setForm_wf (Loc.store_wf hwf ..) ..) ..
  case tags => exact State.acked_wf (Loc.setFull_wf hwf ..) ..
  case load | tagr | ldt => simp [hwf]
  case rmw =>
    dsimp only
    split <;> simp [Loc.store_wf hwf]
  case dec =>
    refine State.acked_wf ?_ ..
    dsimp only
    split
    · exact Loc.setFull_wf (Loc.store_wf hwf ..) ..
    · exact Loc.store_wf hwf ..
  case bari =>
    dsimp only
    split
    · exact Loc.setFull_wf (Loc.store_wf hwf ..) ..
    · simp [hwf]
  case barv =>
    dsimp only
    split <;> simp [Loc.store_wf hwf]
  case barw =>
    dsimp only
    split <;> simp [hwf]
  all_goals exact hwf

@[simp] theorem State.lossTrap_mem (s : State) (a : Access) (cause : Nat) : (s.lossTrap a cause).mem = s.mem := by
  unfold State.lossTrap
  (repeat' split) <;> simp

@[simp] theorem State.wait_mem (s : State) (a : Access) (l : Loc) : (s.wait a l).mem = s.mem := by
  unfold State.wait
  dsimp only
  (repeat' split) <;> simp

@[simp] theorem State.healWords_mem (s : State) (l : Loc) : (s.healWords l).mem = s.mem := rfl

@[simp] theorem State.arrive_wf {s : State} (hwf : s.mem.wf = true) (a0 : Access) (l : Loc) : (s.arrive a0 l).mem.wf = true := by
  unfold State.arrive
  dsimp only
  (repeat' split) <;> simp [hwf]

end Sys2Proof.Machine

/-! ### Memory stays canonical: the functions of `Sys2Proof/Machine/Stage.lean` -/

namespace Sys2Proof.Machine

@[simp] theorem State.keepVas_mem (s : State) (cid : Nat) (n : Need) (vas : List Nat) : (s.keepVas cid n vas).mem = s.mem := by
  unfold State.keepVas
  split
  · rfl
  · simp only [State.redraw_mem]
    exact mem_foldl fun _ _ => by simp

@[simp] theorem State.keepElems_mem (s : State) (r : Region) (n : Need) (xs : List (List Nat)) : (s.keepElems r n xs).mem = s.mem := by
  unfold State.keepElems
  (repeat' split) <;> simp

@[simp] theorem State.stopLaunch_wf {s0 : State} (hwf : s0.mem.wf = true) (lid error : Nat) :
    (s0.stopLaunch lid error).mem.wf = true := by
  unfold State.stopLaunch
  refine wf_foldl (fun _ _ h => by simpa using h) ?_
  have hdrop := (State.foldl_dropAcquire_mem_keeps (s0.accesses.filter fun a => (s0.gang a.gang).any (fun g => g.launch == lid)) s0).1 hwf
  dsimp only
  split <;> exact hdrop

@[simp] theorem State.stage_wf {s : State} (hwf : s.mem.wf = true) (gid : Nat) (e : Staged) : (s.stage gid e).mem.wf = true := by
  unfold State.stage
  (repeat' split) <;> simp [hwf]

@[simp] theorem State.track_mem (s : State) (gid line : Nat) (rd wr : Bool) : (s.track gid line rd wr).mem = s.mem := by
  unfold State.track
  dsimp only
  (repeat' split) <;> simp

@[simp] theorem State.trackKeys_mem (s : State) (gid : Nat) (keys : List Nat) (rd wr : Bool) :
    (s.trackKeys gid keys rd wr).mem = s.mem := mem_foldl fun _ _ => by simp

@[simp] theorem State.noteAtom_mem (s : State) (gid : Nat) (l : Loc) : (s.noteAtom gid l).mem = s.mem := by
  unfold State.noteAtom
  (repeat' split) <;> simp

@[simp] theorem State.setDeta_mem (s : State) (gid : Nat) : (s.setDeta gid).mem = s.mem := by
  unfold State.setDeta
  (repeat' split) <;> simp

@[simp] theorem State.actStaged_wf {s : State} (hwf : s.mem.wf = true) (a : Access) (l : Loc) : (s.actStaged a l).mem.wf = true := by
  unfold State.actStaged
  dsimp only
  (repeat' split) <;> simp [hwf]

@[simp] theorem State.arriveStaged_wf {s : State} (hwf : s.mem.wf = true) (a0 : Access) (l : Loc) :
    (s.arriveStaged a0 l).mem.wf = true := by
  unfold State.arriveStaged
  dsimp only
  (repeat' split) <;> simp [hwf]

@[simp] theorem State.present_wf {s : State} (hwf : s.mem.wf = true) (a : Access) (l : Loc) : (s.present a l).mem.wf = true := by
  unfold State.present
  simp [hwf]

theorem State.scanPass_wf {s : State} (hwf : s.mem.wf = true) (rel : Bool) (l : Loc) : (s.scanPass rel l).1.mem.wf = true := by
  unfold State.scanPass
  refine List.foldlRecOn _ _ (motive := fun acc : State × Loc × Bool => acc.1.mem.wf = true) hwf fun acc hacc w _ => ?_
  dsimp only
  (repeat' split) <;> simp [hacc]

theorem State.scanGo_wf (rel : Bool) (n : Nat) {s : State} (hwf : s.mem.wf = true) (l : Loc) : (State.scanGo rel n s l).mem.wf = true := by
  induction n generalizing s l with
  | zero => exact hwf
  | succ n ih =>
    unfold State.scanGo
    dsimp only
    split
    · exact ih (State.scanPass_wf hwf rel l) _
    · exact State.scanPass_wf hwf rel l

@[simp] theorem State.scanAll_wf {s : State} (hwf : s.mem.wf = true) (l : Loc) : (s.scanAll l).mem.wf = true :=
  State.scanGo_wf _ _ hwf l

@[simp] theorem State.scanReleased_wf {s : State} (hwf : s.mem.wf = true) (l : Loc) : (s.scanReleased l).mem.wf = true :=
  State.scanGo_wf _ _ hwf l

@[simp] theorem State.scanKeys_wf {s : State} (hwf : s.mem.wf = true) (keys : List Nat) :
    (s.scanKeys keys).mem.wf = true := wf_foldl (fun _ _ h => by simp [h]) hwf

end Sys2Proof.Machine

/-! ### Memory stays canonical: the functions of `Sys2Proof/Machine/Matrix.lean` -/

namespace Sys2Proof.Machine

@[simp] theorem State.lostJob_mem (s : State) (j : Job) (cause : Nat) : (s.lostJob j cause).mem = s.mem := by
  unfold State.lostJob
  simp

@[simp] theorem State.engineNotices_mem (s : State) (r : Nat) (j : Job) (xs : List (List Nat)) :
    (s.engineNotices r j xs).mem = s.mem := by
  unfold State.engineNotices
  split <;> rfl

@[simp] theorem State.trackReads_mem (s : State) (j : Job) (keys : List Nat) : (s.trackReads j keys).mem = s.mem := by
  unfold State.trackReads
  (repeat' split) <;> simp

@[simp] theorem State.streamArrives_mem (s : State) (j : Job) (p : Nat) : (s.streamArrives j p).mem = s.mem := by
  unfold State.streamArrives
  (repeat' split) <;> simp

@[simp] theorem State.failJob_mem (s : State) (j : Job) (e : Nat) : (s.failJob j e).mem = s.mem := rfl

theorem State.grant_wf {s : State} (hwf : s.mem.wf = true) (op jid : Nat) {pass : State → Job → Gang → State}
    (hpass : ∀ t j g, t.mem.wf = true → (pass t j g).mem.wf = true) : WfOpt (s.grant op jid pass) := by
  unfold State.grant
  split
  · exact wfOpt_none
  · split
    · exact wfOpt_none
    · extract_lets cyc s1 err0 err
      split
      · refine wfOpt_some.2 ?_
        split <;> simp [s1, hwf]
      · split
        · exact wfOpt_none
        · exact wfOpt_map fun g _ => hpass _ _ g (by simpa [s1] using hwf)

@[simp] theorem State.setBank_mem (s : State) (g : Gang) (b : Nat) (bank : List Word) (busy : Nat) :
    (s.setBank g b bank busy).mem = s.mem := rfl

@[simp] theorem State.engineWrite_wf {s : State} (hwf : s.mem.wf = true) (key : Nat) (bytes : List Byte) :
    (s.engineWrite key bytes).mem.wf = true := by
  unfold State.engineWrite
  exact State.scanKeys_wf (Memory.setFulls_wf (Memory.writeBytes_wf hwf ..) ..) _

@[simp] theorem State.drainLine_wf {s : State} (hwf : s.mem.wf = true) (j : Job) : (s.drainLine j).mem.wf = true := by
  unfold State.drainLine
  (repeat' split) <;> simp [hwf]

@[simp] theorem execMma_wf {s : State} (hwf : s.mem.wf = true) (job : Nat) : WfOut (execMma job s) := by
  refine wfOut_ev (State.grant_wf hwf _ _ fun _ _ _ h => ?_)
  simp [h]

@[simp] theorem execDrain_wf {s : State} (hwf : s.mem.wf = true) (job : Nat) : WfOut (execDrain job s) := by
  unfold execDrain
  refine wfOut_ev ?_
  split
  · exact wfOpt_none
  · split
    · simp [hwf]
    · exact State.grant_wf hwf _ _ fun _ _ _ h => by simp [h]

@[simp] theorem execPrime_wf {s : State} (hwf : s.mem.wf = true) (job : Nat) : WfOut (execPrime job s) := by
  refine wfOut_ev (State.grant_wf hwf _ _ fun _ _ _ h => ?_)
  simp [h]

@[simp] theorem execStreamFetchReturn_wf {s : State} (hwf : s.mem.wf = true) (job : Nat) : WfOut (execStreamFetchReturn job s) := by
  unfold execStreamFetchReturn
  dsimp only
  (repeat' split) <;> simp [hwf]

@[simp] theorem execEntryRaise_wf {s : State} (hwf : s.mem.wf = true) (job : Nat) : WfOut (execEntryRaise job s) := by
  unfold execEntryRaise
  (repeat' split) <;> simp [hwf]

@[simp] theorem execCommandPost_wf {s : State} (hwf : s.mem.wf = true) (id : Nat) : WfOut (execCommandPost id s) := by
  unfold execCommandPost
  (repeat' split) <;> simp [hwf]

end Sys2Proof.Machine

/-! ### Memory stays canonical: the functions of `Sys2Proof/Machine/Copy.lean` -/

namespace Sys2Proof.Machine

@[simp] theorem State.jobWrote_wf {s : State} (hwf : s.mem.wf = true) (j : Job) (l : Loc) (keys words : List Nat) :
    (s.jobWrote j l keys words).mem.wf = true := by
  unfold State.jobWrote
  dsimp only
  (repeat' split) <;> simp [State.homeWrote_wf, hwf]

@[simp] theorem State.jobStage_wf {s : State} (hwf : s.mem.wf = true) (j : Job) (l : Loc) (e : Staged) :
    (s.jobStage j l e).mem.wf = true := by
  unfold State.jobStage
  (repeat' split) <;> simp [hwf]

@[simp] theorem State.jobWrite_wf {s : State} (hwf : s.mem.wf = true) (j : Job) (l : Loc) (v : Nat) (bits : List (Nat × Bool)) :
    (s.jobWrite j l v bits).mem.wf = true := by
  unfold State.jobWrite
  split
  · exact State.jobStage_wf hwf ..
  · exact State.jobWrote_wf (Memory.foldl_wf _ (fun _ _ h => Memory.setFull_wf h ..) _ (Loc.store_wf hwf ..)) ..

@[simp] theorem State.jobWriteElem_wf {s : State} (hwf : s.mem.wf = true) (j : Job) (handle : Nat) (x : List Nat) (l : Loc)
    (v : Nat) (form : Form) :
    (s.jobWriteElem j handle x l v form).mem.wf = true := by
  unfold State.jobWriteElem
  split
  · exact State.jobStage_wf hwf ..
  · exact State.jobWrote_wf (setForm_wf (Loc.store_wf hwf ..) ..) ..

@[simp] theorem State.writePads_wf {s : State} (hwf : s.mem.wf = true) (j : Job) (c : CCard) (idx : List Nat) :
    (s.writePads j c idx).mem.wf = true := by
  unfold State.writePads
  exact wf_foldl (fun _ _ h => by split <;> simp [h]) hwf

@[simp] theorem State.jobFault_wf {s : State} (hwf : s.mem.wf = true) (j : Job) (f : Nat × Nat × Nat) (kind : Nat) :
    (s.jobFault j f kind).mem.wf = true := by
  unfold State.jobFault
  simp [hwf]

@[simp] theorem State.keepSide_mem (s : State) (j : Job) (a : MoveSide) (addr : Nat) (n : Need) :
    (s.keepSide j a addr n).mem = s.mem := by
  unfold State.keepSide
  (repeat' split) <;> simp

@[simp] theorem State.putMoved_wf {s : State} (hwf : s.mem.wf = true) (j : Job) (c : CCard) (b : MoveSide) (code : Nat) (bit : Bool) :
    (s.putMoved j c b code bit).mem.wf = true := by
  unfold State.putMoved
  (repeat' split) <;> simp [hwf]

@[simp] theorem State.moveElem_wf {s : State} (hwf : s.mem.wf = true) (j : Job) : WfOpt (s.moveElem j) := by
  unfold State.moveElem
  dsimp only
  (repeat' split) <;> simp [hwf]

@[simp] theorem State.tilePiece_wf {s : State} (hwf : s.mem.wf = true) (j : Job) : WfOpt (s.tilePiece j) := by
  unfold State.tilePiece
  dsimp only
  (repeat' split) <;> simp [hwf]

@[simp] theorem State.moveNext_wf {s : State} (hwf : s.mem.wf = true) (j : Job) : WfOpt (s.moveNext j) := by
  unfold State.moveNext
  simp [hwf]

@[simp] theorem execCopyJobStart_wf {s : State} (hwf : s.mem.wf = true) (job : Nat) : WfOut (execCopyJobStart job s) := by
  unfold execCopyJobStart
  (repeat' split) <;> simp [hwf]

@[simp] theorem execJobComplete_wf {s : State} (hwf : s.mem.wf = true) (job : Nat) : WfOut (execJobComplete job s) := by
  unfold execJobComplete
  dsimp only
  (repeat' split) <;> simp [hwf]

@[simp] theorem State.completeAt_wf {s : State} (hwf : s.mem.wf = true) (j : Job) (action : Nat) (l : Loc) :
    (s.completeAt j action l).mem.wf = true := by
  unfold State.completeAt
  split
  · exact State.jobWrite_wf hwf ..
  · exact State.scanAll_wf (Loc.store_wf hwf ..) _

@[simp] theorem State.jobsUntil_wf {s : State} (hwf : s.mem.wf = true) (fibre : Option Nat) (post t : Nat) :
    (s.jobsUntil fibre post t).mem.wf = true := by
  unfold State.jobsUntil
  (repeat' split) <;> simp [hwf]

@[simp] theorem State.jobGone_wf {s : State} (hwf : s.mem.wf = true) (j : Job) : (s.jobGone j).mem.wf = true := by
  unfold State.jobGone
  (repeat' split) <;> simp [hwf]

@[simp] theorem execCompletionAction_wf {s : State} (hwf : s.mem.wf = true) (job : Nat) : WfOut (execCompletionAction job s) := by
  unfold execCompletionAction
  refine wfOut_evPort ?_
  dsimp only
  (repeat' split) <;> simp [hwf]

end Sys2Proof.Machine

/-! ### Memory stays canonical: the functions of `Sys2Proof/Machine/Front.lean` -/

namespace Sys2Proof.Machine

theorem State.bytesAt_wf {m : Memory} (h : m.wf = true) (keys : List Nat) (bytes : List Byte) : (State.bytesAt m keys bytes).wf = true :=
  Memory.foldl_wf _ (fun _ _ h => Memory.setByte_wf h ..) _ h

@[simp] theorem State.putAt_wf {s : State} (hwf : s.mem.wf = true) (u : HomeUse) (keys : List Nat) (bytes : List Byte) :
    (s.putAt u keys bytes).mem.wf = true :=
  State.homeWrote_wf (State.bytesAt_wf hwf ..) ..

@[simp] theorem State.frontWrote_wf {s : State} (hwf : s.mem.wf = true) (u : HomeUse) (keys words : List Nat) :
    (s.frontWrote u keys words).mem.wf = true := by
  unfold State.frontWrote
  simp [State.homeWrote_wf, hwf]

@[simp] theorem State.putBytes_wf {s : State} (hwf : s.mem.wf = true) (u : HomeUse) (keys : List Nat) (bytes : List Byte) :
    (s.putBytes u keys bytes).mem.wf = true :=
  State.frontWrote_wf (State.bytesAt_wf hwf ..) ..

@[simp] theorem State.frontHas_mem (s : State) (p cid : Nat) (rs : List (Nat × Nat)) : (s.frontHas p cid rs).mem = s.mem := by
  unfold State.frontHas
  simp

@[simp] theorem State.frontFault_wf {s : State} (hwf : s.mem.wf = true) (cid : Nat) (f : Nat × Nat × Nat) (kind : Nat) :
    (s.frontFault cid f kind).mem.wf = true := by
  unfold State.frontFault
  simp [hwf]

@[simp] theorem State.fillKeys_wf {s : State} (hwf : s.mem.wf = true) (u : HomeUse) (keys : List Nat) (v : Nat) :
    (s.fillKeys u keys v).mem.wf = true :=
  State.frontWrote_wf (Memory.setFull_wf (State.bytesAt_wf hwf ..) ..) ..

theorem State.forceFill_wf {s t : State} (hwf : s.mem.wf = true) {p cid va v : Nat}
    (h : s.forceFill p cid va v = .ok t) : t.mem.wf = true := by
  unfold State.forceFill at h
  dsimp only at h
  split at h
  · cases h
  · cases h
    exact State.fillKeys_wf hwf ..

theorem State.openContext_mem {s t : State} {p n : Nat} {rec : List Byte} (h : s.openContext p rec = some (t, n)) : t.mem = s.mem := by
  unfold State.openContext at h
  dsimp only at h
  (repeat' split at h) <;> cases h <;> rfl

@[simp] theorem State.setSlot_mem (s : State) (p : Nat) (x : NodeSlot) : (s.setSlot p x).mem = s.mem := rfl

@[simp] theorem State.setNode_mem (s : State) (p n : Nat) (d : Node) : (s.setNode p n d).mem = s.mem := rfl

@[simp] theorem State.makeReady_mem (s : State) (p n : Nat) : (s.makeReady p n).mem = s.mem := by
  unfold State.makeReady
  dsimp only
  (repeat' split) <;> simp

@[simp] theorem State.postNode_wf {s : State} (hwf : s.mem.wf = true) (p : Nat) (r : NodeRec) (cid : Nat) (queue : Option Nat)
    (prio : Nat) :
    WfOpt (s.postNode p r cid queue prio) := by
  unfold State.postNode
  dsimp only
  (repeat' split) <;> simp [hwf]

@[simp] theorem State.decrement_mem (s : State) (p : Nat) (poison : Bool) (n : Nat) : (s.decrement p poison n).mem = s.mem := by
  unfold State.decrement
  dsimp only
  (repeat' split) <;> simp

@[simp] theorem State.setQueue_mem (s : State) (p q : Nat) (x : Queue) : (s.setQueue p q x).mem = s.mem := rfl

@[simp] theorem State.cqPush_wf {s : State} (hwf : s.mem.wf = true) (p q status tag : Nat) : (s.cqPush p q status tag).mem.wf = true := by
  unfold State.cqPush
  dsimp only
  (repeat' split) <;> simp [hwf]

@[simp] theorem State.postSubmission_wf {s0 : State} (hwf : s0.mem.wf = true) (p q : Nat) : WfOpt (s0.postSubmission p q) := by
  unfold State.postSubmission
  extract_lets x cks refuse
  split
  · exact wfOpt_none
  split
  · exact wfOpt_none
  extract_lets s s1 f r
  have hs1 : s1.mem.wf = true := by simpa [s1, s] using hwf
  have hrefuse : ∀ {t : State} (e tag : Nat), t.mem.wf = true → WfOpt (refuse t e tag) := fun e tag ht =>
    wfOpt_ite (wfOpt_some.2 (State.cqPush_wf ht ..)) wfOpt_none
  split
  · exact hrefuse _ _ (by simpa [f] using hs1)
  split
  · refine hrefuse _ _ ?_
    split <;> simp [hs1]
  next s2 cid hopen =>
    have hs2 : s2.mem.wf = true := by
      obtain ⟨_, _, hrec⟩ := Option.bind_eq_some_iff.1 hopen
      rw [State.openContext_mem hrec]
      exact hs1
    split
    · exact hrefuse _ _ hs1
    split
    case h_1 s3 hpost => exact wfOpt_some.2 (State.postNode_wf hs2 _ _ _ _ _ _ hpost)
    split
    · exact wfOpt_none
    extract_lets s3
    have hs3 : s3.mem.wf = true := by
      dsimp only [s3]
      split <;> simp [hs2]
    split
    · exact wfOpt_some.2 hs3
    split
    · rename_i hfill
      exact wfOpt_some.2 (State.forceFill_wf hs3 hfill)
    · refine wfOpt_some.2 ?_
      split
      · exact State.frontFault_wf (by simpa [s] using hwf) ..
      · exact hs3

@[simp] theorem State.postIntake_wf {s : State} (hwf : s.mem.wf = true) (p : Nat) : WfOpt (s.postIntake p) := by
  unfold State.postIntake
  split
  · exact wfOpt_none
  extract_lets s1
  have hs1 : s1.mem.wf = true := hwf
  split
  · exact wfOpt_some.2 hs1
  split
  · exact wfOpt_some.2 hs1
  split
  · rename_i hpost
    have := State.postNode_wf hs1 _ _ _ _ _ _ hpost
    refine wfOpt_some.2 ?_
    simp [this]
  · exact wfOpt_some.2 (by simpa using hs1)

theorem State.dispatch_wf {s : State} (hwf : s.mem.wf = true) (p n : Nat) (kind : Nat → Bool) {f : State → Node → Option State}
    (hf : ∀ d, WfOpt (f s d)) : WfOpt (s.dispatch p n kind f) := by
  unfold State.dispatch
  split
  · exact wfOpt_none
  split
  · exact wfOpt_none
  split
  · exact wfOpt_none
  split
  · simp [hwf]
  · exact wfOpt_map fun t ht => by simpa using hf _ t ht

@[simp] theorem State.endNode_mem (s : State) (p n error result : Nat) : (s.endNode p n error result).mem = s.mem := by
  unfold State.endNode
  split <;> rfl

theorem State.payloadStop_wf {s : State} (hwf : s.mem.wf = true) (p n : Nat) (d : Node) (err kind : Nat) (x : ReadStop) :
    (s.payloadStop p n d err kind x).mem.wf = true := by
  unfold State.payloadStop
  split <;> simp [hwf]

@[simp] theorem State.dispatchCopy_wf {s : State} (hwf : s.mem.wf = true) (p n : Nat) (d : Node) : WfOpt (s.dispatchCopy p n d) := by
  unfold State.dispatchCopy
  split
  · simp [hwf]
  split
  · simp [State.payloadStop_wf hwf]
  dsimp only
  split
  · simp [hwf]
  split
  · exact wfOpt_none
  split
  · exact wfOpt_none
  · simp [hwf]

theorem State.completeNode.fill_wf {s : State} (hwf : s.mem.wf = true) (p : Nat) (d : Node) (st : Nat) :
    WfOpt (State.completeNode.fill s p d st) := by
  unfold State.completeNode.fill
  split
  · exact wfOpt_some.2 hwf
  split
  · rename_i hfill
    exact wfOpt_some.2 (State.forceFill_wf hwf hfill)
  · split
    · exact wfOpt_none
    · exact wfOpt_some.2 hwf

@[simp] theorem State.completeNode.free_mem (p n : Nat) (d : Node) (error : Nat) (s : State) :
    (State.completeNode.free p n d error s).mem = s.mem := by
  unfold State.completeNode.free
  simp only [State.setSlot_mem]
  exact mem_foldl fun _ _ => by simp

@[simp] theorem State.completeNode_wf {s : State} (hwf : s.mem.wf = true) (p n : Nat) (d : Node) (error result : Nat) :
    WfOpt (s.completeNode p n d error result) := by
  unfold State.completeNode
  have hfill := State.completeNode.fill_wf hwf p d (nodeStatus result error d.det)
  dsimp only
  split
  · exact wfOpt_none
  split
  · split
    · exact wfOpt_none
    · exact wfOpt_map fun t ht => by simp [hfill t ht]
  · exact wfOpt_map fun t ht => by simp [hfill t ht]

@[simp] theorem execSqtail_wf {s : State} (hwf : s.mem.wf = true) (part q : Nat) (v : DWord) : WfOut (execSqtail part q v s) := by
  unfold execSqtail
  dsimp only
  (repeat' split) <;> simp [hwf]

@[simp] theorem execCqhead_wf {s : State} (hwf : s.mem.wf = true) (part q : Nat) (v : DWord) : WfOut (execCqhead part q v s) := by
  unfold execCqhead
  dsimp only
  (repeat' split) <;> simp [hwf]

@[simp] theorem execQsize_wf {s : State} (hwf : s.mem.wf = true) (part q : Nat) (v : DWord) : WfOut (execQsize part q v s) := by
  unfold execQsize
  dsimp only
  (repeat' split) <;> simp [hwf]

@[simp] theorem execNodePost_wf {s : State} (hwf : s.mem.wf = true) (part q : Nat) : WfOut (execNodePost part q s) := by
  unfold execNodePost
  (repeat' split) <;> simp [hwf]

@[simp] theorem execNodeCopy_wf {s : State} (hwf : s.mem.wf = true) (part node : Nat) : WfOut (execNodeCopy part node s) :=
  wfOut_evPort (State.dispatch_wf hwf _ _ _ fun _ => State.dispatchCopy_wf hwf _ _ _)

@[simp] theorem execNodeMarker_wf {s : State} (hwf : s.mem.wf = true) (part node : Nat) : WfOut (execNodeMarker part node s) :=
  wfOut_evPort (State.dispatch_wf hwf _ _ _ fun d => by simp [hwf])

@[simp] theorem execNodeReservedKind_wf {s : State} (hwf : s.mem.wf = true) (part node : Nat) :
    WfOut (execNodeReservedKind part node s) :=
  wfOut_evPort (State.dispatch_wf hwf _ _ _ fun d => by simp [hwf])

@[simp] theorem execPriorityAging_wf {s : State} (hwf : s.mem.wf = true) (part node : Nat) : WfOut (execPriorityAging part node s) := by
  unfold execPriorityAging
  (repeat' split) <;> simp [hwf]

end Sys2Proof.Machine

/-! ### Memory stays canonical: the functions of `Sys2Proof/Machine/Layers.lean` -/

namespace Sys2Proof.Machine

@[simp] theorem State.setResidency_wf {s : State} (hwf : s.mem.wf = true) (p m l : Nat) (v : DWord) :
    (s.setResidency p m l v).mem.wf = true :=
  State.homeWrote_wf (Memory.write_wf hwf ..) ..

@[simp] theorem State.dropHolds_wf {s : State} (hwf : s.mem.wf = true) (lid : Nat) : (s.dropHolds lid).mem.wf = true := by
  unfold State.dropHolds
  split
  · exact hwf
  · exact wf_foldl (fun _ _ h => wf_foldl (fun _ _ h => State.addHold_wf h ..) h) hwf

@[simp] theorem State.startSwap_wf {s : State} (hwf : s.mem.wf = true) (p m l : Nat) (nodes : List Nat) :
    (s.startSwap p m l nodes).mem.wf = true := hwf

end Sys2Proof.Machine

/-! ### Memory stays canonical: the functions of `Sys2Proof/Machine/Launch.lean` -/

namespace Sys2Proof.Machine

@[simp] theorem State.retireDone_mem (s : State) : s.retireDone.mem = s.mem := rfl

@[simp] theorem State.clearScratch_wf {s : State} (hwf : s.mem.wf = true) (g : Gang) : (s.clearScratch g).mem.wf = true :=
  wf_foldl (fun _ _ h => Memory.clearRange_wf h ..) hwf

@[simp] theorem State.bandCrews_mem (s : State) (ks : List Nat) : (s.bandCrews ks).mem = s.mem := mem_foldl fun _ _ => by simp

@[simp] theorem State.pointTurns_mem (s : State) (g : Gang) (live : List Fibre) : (s.pointTurns g live).mem = s.mem := by
  unfold State.pointTurns
  split
  · rfl
  · exact mem_foldl (fun _ _ => rfl)

@[simp] theorem State.takePlace_mem (s0 : State) (w : Waiting) : (s0.takePlace w).mem = s0.mem := rfl

@[simp] theorem State.placeNew_wf {s0 : State} (hwf : s0.mem.wf = true) (w : Waiting) (k b : Nat) :
    (s0.placeNew w k b).mem.wf = true := by
  unfold State.placeNew
  extract_lets gs s l src g0 g fs first s1 s2 s3
  have hs3 : s3.mem.wf = true := by simpa [s3, s2, s1, s] using hwf
  exact (State.bandCrews_mem ..).symm ▸ State.clearScratch_wf hs3 g

@[simp] theorem State.placeSaved_wf {s0 : State} (hwf : s0.mem.wf = true) (w : Waiting) (k b : Nat) :
    (s0.placeSaved w k b).mem.wf = true := by
  unfold State.placeSaved
  simp [hwf]

@[simp] theorem State.takeEntry_mem (s : State) (g : Gang) (k : Nat) (e : DequeEntry) : (s.takeEntry g k e).mem = s.mem := rfl

theorem State.applyStaged_wf {m : Memory} (hm : m.wf = true) (s : State) (ctx : Nat) (e : Staged) : (s.applyStaged ctx m e).wf = true := by
  have hbytes : (e.bits.foldl (fun m wb => m.setFull wb.1 wb.2) (e.bytes.foldl (fun m kb => m.setByte kb.1 kb.2) m)).wf = true :=
    Memory.foldl_wf _ (fun _ _ h => Memory.setFull_wf h ..) _ (Memory.foldl_wf _ (fun _ _ h => Memory.setByte_wf h ..) _ hm)
  unfold State.applyStaged
  extract_lets elem m1
  split
  case h_1 => exact setForm_wf (Loc.store_wf hm ..) ..
  case h_2 => exact Loc.store_wf hm ..
  case h_3 | h_4 => exact Loc.setFull_wf hm ..
  case h_5 =>
    split
    · exact Loc.setFull_wf (Loc.store_wf hm ..) ..
    · exact Loc.store_wf hm ..
  case h_6 =>
    split
    · exact Loc.setFull_wf hm ..
    · exact hm
  case h_7 =>
    split
    · exact setForm_wf (Loc.store_wf hm ..) ..
    · exact hm
  case h_8 => exact hbytes

@[simp] theorem State.presentStaged_wf {s : State} (hwf : s.mem.wf = true) (g : Gang) (e : Staged) :
    (s.presentStaged g e).mem.wf = true := by
  unfold State.presentStaged
  split
  · exact hwf
  extract_lets keys u engine s0 s1 s2 locs
  have hs0 : s0.mem.wf = true := by
    dsimp only [s0]
    split <;> simp [hwf]
  have hs1 : s1.mem.wf = true := by
    simp [s1, State.placeWrote_wf, State.applyStaged_wf hs0]
  exact wf_foldl (fun _ _ h => State.scanReleased_wf h _) (by simpa [s2] using hs1)

@[simp] theorem State.releaseGang_wf {s : State} (hwf : s.mem.wf = true) (l : Launch) (g : Gang) : (s.releaseGang l g).mem.wf = true := by
  unfold State.releaseGang
  extract_lets s1 s2
  have hs1 : s1.mem.wf = true := wf_foldl (fun _ _ h => State.presentStaged_wf h ..) hwf
  refine (State.setGang_mem ..).symm ▸ wf_foldl (fun t b ht => ?_) hs1
  dsimp only
  split
  · rename_i hpost
    exact State.postNode_wf ht _ _ _ _ _ _ hpost
  · split <;> exact ht

@[simp] theorem execNodeLaunch_wf {s : State} (hwf : s.mem.wf = true) (part node : Nat) : WfOut (execNodeLaunch part node s) := by
  refine wfOut_evPort (State.dispatch_wf hwf _ _ _ fun d => ?_)
  split
  · exact wfOpt_some.2 (State.payloadStop_wf hwf ..)
  · simp [hwf]
  · simp [hwf]

@[simp] theorem execGangPlacement_wf {s : State} (hwf : s.mem.wf = true) (part : Nat) : WfOut (execGangPlacement part s) := by
  unfold execGangPlacement
  (repeat' split) <;> simp [hwf]

@[simp] theorem execRestorePlacement_wf {s : State} (hwf : s.mem.wf = true) (gang : Nat) : WfOut (execRestorePlacement gang s) := by
  unfold execRestorePlacement
  (repeat' split) <;> simp [hwf]

@[simp] theorem execPreemptDecision_wf {s : State} (hwf : s.mem.wf = true) (part : Nat) : WfOut (execPreemptDecision part s) := by
  unfold execPreemptDecision
  (repeat' split) <;> simp [hwf]

@[simp] theorem execCarveApply_wf {s : State} (hwf : s.mem.wf = true) (core : Nat) : WfOut (execCarveApply core s) := by
  unfold execCarveApply
  (repeat' split) <;> simp [hwf]

@[simp] theorem execDequeTake_wf {s : State} (hwf : s.mem.wf = true) (core : Nat) : WfOut (execDequeTake core s) := by
  unfold execDequeTake
  (repeat' split) <;> simp [hwf]

@[simp] theorem execDequeSteal_wf {s : State} (hwf : s.mem.wf = true) (core : Nat) : WfOut (execDequeSteal core s) := by
  unfold execDequeSteal
  dsimp only
  (repeat' split) <;> simp [hwf]

@[simp] theorem execCarillonRelease_wf {s : State} (hwf : s.mem.wf = true) (part node : Nat) :
    WfOut (execCarillonRelease part node s) := by
  unfold execCarillonRelease
  refine wfOut_evPort ?_
  split
  · exact wfOpt_none
  split
  · exact wfOpt_none
  refine wfOpt_map fun g _ => ?_
  split
  · exact State.frontFault_wf hwf ..
  · exact State.releaseGang_wf hwf ..

end Sys2Proof.Machine

/-! ### Memory stays canonical: the functions of `Sys2Proof/Machine/Regions.lean` -/

namespace Sys2Proof.Machine

@[simp] theorem State.framesWrote_wf {s : State} (hwf : s.mem.wf = true) (p : Nat) (ctx : Option Nat) (frames : List Nat) :
    (s.framesWrote p ctx frames).mem.wf = true := by
  unfold State.framesWrote
  extract_lets on lines waits upd s1
  have hs1 : s1.mem.wf = true := by simp [s1, State.markBitmap_wf, hwf]
  exact State.scanKeys_wf hs1 _

@[simp] theorem State.clearRegion_wf {s : State} (hwf : s.mem.wf = true) (frames : List Nat) (r : Region) :
    (s.clearRegion frames r).mem.wf = true := by
  unfold State.clearRegion
  extract_lets own m bits all upd sram
  refine State.framesWrote_wf ?_ ..
  exact Memory.foldl_wf _ (fun _ _ h => Memory.setByte_wf h ..) _ (Memory.filled_wf (Memory.zeroed_wf hwf _) _)

@[simp] theorem State.createRegion_wf {s : State} (hwf : s.mem.wf = true) (p n : Nat) (d : Node) (b : List Byte) :
    (s.createRegion p n d b).mem.wf = true := by
  unfold State.createRegion
  dsimp only
  (repeat' split) <;> simp [hwf]

@[simp] theorem State.destroyRegion_mem (s : State) (r : Region) : (s.destroyRegion r).mem = s.mem := mem_foldl fun _ _ => by simp

@[simp] theorem State.driftElem_wf {s0 : State} (hwf : s0.mem.wf = true) (r : Region) (t : Layout) (x : List Nat) :
    (s0.driftElem r t x).mem.wf = true := by
  unfold State.driftElem
  extract_lets s
  have hs : s.mem.wf = true := by
    dsimp only [s]
    split <;> simp [hwf]
  split
  · extract_lets m1 m2 refused s1
    have hm2 : m2.wf = true := by
      dsimp only [m2, m1]
      split <;> simp [Loc.store_wf, Loc.setFull_wf, hs]
    have hs1 : s1.mem.wf = true := by simp [s1, State.placeWrote_wf, hm2]
    refine wf_foldl (fun _ _ h => ?_) hs1
    dsimp only
    split <;> simp [h]
  · exact hs

@[simp] theorem State.putPad_wf {s : State} (hwf : s.mem.wf = true) (r : Region) (copy : Nat) (t : Layout) (x : List Nat) :
    (s.putPad r copy t x).mem.wf = true := by
  unfold State.putPad
  split
  · simp [State.placeWrote_wf, Loc.store_wf, hwf]
  · exact hwf

@[simp] theorem State.driftTile_wf {s : State} (hwf : s.mem.wf = true) (r : Region) (t : Layout) : (s.driftTile r t).mem.wf = true := by
  unfold State.driftTile
  extract_lets absent s1 r1
  have hs1 : s1.mem.wf = true := by
    dsimp only [s1]
    split
    · exact hwf
    · exact wf_foldl (fun _ _ h => State.driftElem_wf h ..) (wf_foldl (fun _ _ h => State.putPad_wf h ..) hwf)
  simp [hs1]

@[simp] theorem execRegionCreate_wf {s : State} (hwf : s.mem.wf = true) (part node : Nat) : WfOut (execRegionCreate part node s) := by
  refine wfOut_evPort (State.dispatch_wf hwf _ _ _ fun d => ?_)
  split
  · exact wfOpt_some.2 (State.payloadStop_wf hwf ..)
  · simp [hwf]

@[simp] theorem execRegionDestroy_wf {s : State} (hwf : s.mem.wf = true) (part node : Nat) : WfOut (execRegionDestroy part node s) := by
  refine wfOut_evPort (State.dispatch_wf hwf _ _ _ fun d => ?_)
  split
  · simp [hwf]
  · split <;> simp [hwf]

@[simp] theorem execMonitorNotice_wf {s : State} (hwf : s.mem.wf = true) (region : Nat) : WfOut (execMonitorNotice region s) := by
  unfold execMonitorNotice
  (repeat' split) <;> simp [hwf]

@[simp] theorem execWindowEnd_wf {s : State} (hwf : s.mem.wf = true) (region : Nat) : WfOut (execWindowEnd region s) := by
  unfold execWindowEnd
  (repeat' split) <;> simp [hwf]

@[simp] theorem execDriftTile_wf {s : State} (hwf : s.mem.wf = true) (region : Nat) : WfOut (execDriftTile region s) := by
  unfold execDriftTile
  (repeat' split) <;> simp [hwf]

end Sys2Proof.Machine

/-! ### Memory stays canonical: the functions of `Sys2Proof/Machine/LinkCard.lean` -/

namespace Sys2Proof.Machine

@[simp] theorem State.setSession_mem (s : State) (p : Nat) (x : Session) : (s.setSession p x).mem = s.mem := rfl

@[simp] theorem State.postLink_wf {s : State} (hwf : s.mem.wf = true) (p cid : Nat) (gang fibre node : Option Nat)
    (wg post : Nat) (b t : List Byte) :
    (s.postLink p cid gang fibre node wg post b t).mem.wf = true := hwf

end Sys2Proof.Machine

/-! ### Memory stays canonical: the functions of `Sys2Proof/Machine/Ports.lean` -/

namespace Sys2Proof.Machine

@[simp] theorem State.fetchLine_wf {s : State} (hwf : s.mem.wf = true) (k policy : Nat) : WfOpt (s.fetchLine k policy) := by
  unfold State.fetchLine
  simp [hwf]

@[simp] theorem State.installL1_mem (s : State) (core ln expiry : Nat) : (s.installL1 core ln expiry).mem = s.mem := rfl

@[simp] theorem State.grantLease_mem (s : State) (core p ln : Nat) : (s.grantLease core p ln).mem = s.mem := by
  unfold State.grantLease
  dsimp only
  (repeat' split) <;> simp

end Sys2Proof.Machine

/-! ### Memory stays canonical: the functions of `Sys2Proof/Machine/Posting.lean` -/

namespace Sys2Proof.Machine

@[simp] theorem State.engineTrap_mem (s : State) (a : Access) (cause : Nat) : (s.engineTrap a cause).mem = s.mem := rfl

@[simp] theorem State.signOne_wf {s : State} (hwf : s.mem.wf = true) (a : Access) (k : Nat) : (s.signOne a k).mem.wf = true := by
  unfold State.signOne
  (repeat' split) <;> simp [hwf]

@[simp] theorem State.serveSigns_wf {s : State} (hwf : s.mem.wf = true) (gid k : Nat) :
    (s.serveSigns gid k).mem.wf = true := wf_foldl (fun _ _ h => by simp [h]) hwf

@[simp] theorem State.doSign_wf {s : State} (hwf : s.mem.wf = true) (a : Access) (k : Nat) : (s.doSign a k).mem.wf = true := by
  unfold State.doSign
  (repeat' split) <;> simp [hwf]

@[simp] theorem State.doMarm_wf {s : State} (hwf : s.mem.wf = true) (a : Access) (k : Nat) (count : Word) :
    (s.doMarm a k count).mem.wf = true := by
  unfold State.doMarm
  (repeat' split) <;> simp [hwf]

@[simp] theorem State.doCpyq_wf {s : State} (hwf : s.mem.wf = true) (a : Access) (card : List Byte) : WfOpt (s.doCpyq a card) := by
  unfold State.doCpyq
  (repeat' split) <;> simp [hwf]

@[simp] theorem State.doLnkq_wf {s : State} (hwf : s.mem.wf = true) (a : Access) (card table : List Byte) :
    WfOpt (s.doLnkq a card table) := by
  unfold State.doLnkq
  (repeat' split) <;> simp [hwf]

@[simp] theorem State.doTgpost_wf {s : State} (hwf : s.mem.wf = true) (a : Access) (b : List Byte) : WfOpt (s.doTgpost a b) := by
  unfold State.doTgpost
  (repeat' split) <;> simp [hwf]

@[simp] theorem State.doFork_mem (s : State) (a : Access) (entry arg : DWord) : (s.doFork a entry arg).mem = s.mem := rfl

@[simp] theorem State.doIcinv_mem (s : State) (a : Access) (scope : Nat) : (s.doIcinv a scope).mem = s.mem := rfl

@[simp] theorem State.doTlbinv_mem (s : State) (a : Access) (w : Word) : (s.doTlbinv a w).mem = s.mem := by
  unfold State.doTlbinv
  dsimp only
  (repeat' split) <;> simp

@[simp] theorem State.release_wf {s : State} (hwf : s.mem.wf = true) (a : Access) : WfOpt (s.release a) := by
  unfold State.release
  (repeat' split) <;> simp [hwf]

end Sys2Proof.Machine

/-! ### Memory stays canonical: the functions of `Sys2Proof/Machine/Home.lean` -/

namespace Sys2Proof.Machine

@[simp] theorem State.notify_wf {s : State} (hwf : s.mem.wf = true) (cid : Nat) (a : Access) : (s.notify cid a).mem.wf = true := by
  unfold State.notify
  (repeat' split) <;> simp [hwf]

@[simp] theorem State.notifyAhead_wf {s : State} (hwf : s.mem.wf = true) (cid : Nat) (a : Access) :
    (s.notifyAhead cid a).mem.wf = true := wf_foldl (fun _ _ h => by simp [h]) hwf

@[simp] theorem State.keepAccess_wf {s : State} (hwf : s.mem.wf = true) (c : Context) (a : Access) :
    (s.keepAccess c a).mem.wf = true := by
  unfold State.keepAccess
  (repeat' split) <;> simp [hwf]

@[simp] theorem State.logAccess_wf {s : State} (hwf : s.mem.wf = true) (xs : List Access) (c : Context) (answered : Bool) :
    WfOpt (s.logAccess xs c answered) := by
  unfold State.logAccess
  split
  · exact wfOpt_none
  split
  · exact wfOpt_none
  · exact wfOpt_some.2 ((State.count_mem ..).symm ▸ wf_foldl (fun _ _ h => h) hwf)

@[simp] theorem State.accessFault_wf {s : State} (hwf : s.mem.wf = true) (a : Access) (xs : List Access) (c : Context)
    (cause gpa va : Nat) :
    WfOpt (s.accessFault a xs c cause gpa va) := by
  unfold State.accessFault
  split
  · exact wfOpt_map fun t ht => State.pageRequest_wf (State.logAccess_wf hwf xs c false t ht) ..
  · exact wfOpt_some.2 (State.pageRequest_wf (wf_foldl (fun _ _ h => by exact h) hwf) ..)

@[simp] theorem State.l1After_mem (s : State) (a : Access) (l : Loc) : (s.l1After a l).mem = s.mem := by
  unfold State.l1After
  (repeat' split) <;> simp

@[simp] theorem State.coreTook_mem (s : State) (p core : Nat) (keys : List Nat) :
    (s.coreTook p core keys).mem = s.mem := mem_foldl fun _ _ => by simp

@[simp] theorem State.atHome_wf {s : State} (hwf : s.mem.wf = true) (a : Access) (l : Loc) : WfOpt (s.atHome a l) := by
  unfold State.atHome
  (repeat' split) <;> simp [hwf]

theorem wfOpt_foldl_bind {α : Type} {f : State → α → Option State} (hf : ∀ s x, s.mem.wf = true → WfOpt (f s x)) (l : List α)
    {o : Option State} (ho : WfOpt o) : WfOpt (l.foldl (fun o x => o.bind fun s => f s x) o) := by
  induction l generalizing o with
  | nil => exact ho
  | cons x l ih => exact ih (wfOpt_bind fun s hs => hf s x (ho s hs))

theorem State.lineFirst_wf {s : State} (hwf : s.mem.wf = true) {a : Access} {l : Loc} {r : Option State} (h : s.lineFirst a l = some r) :
    WfOpt r := by
  unfold State.lineFirst at h
  split at h
  · obtain ⟨k, -, rfl⟩ := Option.map_eq_some_iff.1 h
    exact State.fetchLine_wf hwf _ _
  · cases h

@[simp] theorem State.atHomes_wf {s : State} (hwf : s.mem.wf = true) (c : Context) (xs : List Access) : WfOpt (s.atHomes c xs) := by
  refine wfOpt_foldl_bind (fun t x ht => ?_) _ (wfOpt_some.2 hwf)
  split
  · exact State.atHome_wf (State.notify_wf ht ..) _ _
  · exact wfOpt_none

@[simp] theorem State.readAt_wf {s : State} (hwf : s.mem.wf = true) (a : Access) (c : Context) (addr : DWord) (keys : List Nat)
    (attr : Nat) :
    WfOpt (s.readAt a c addr keys attr) := by
  unfold State.readAt
  extract_lets p s1 s2
  have hs2 : s2.mem.wf = true := by
    dsimp only [s2]
    split
    · simp [s1, hwf]
    · exact wf_foldl (fun _ _ h => by simp [h]) (by simp [s1, hwf])
  split
  · split <;> simp [hwf]
  · split <;> simp [hs2]

theorem State.cardStop_wf {s : State} (hwf : s.mem.wf = true) (a : Access) (c : Context) (addr : DWord) (r : CardRead) :
    WfOpt (s.cardStop a c addr r) := by
  unfold State.cardStop
  split <;> simp [hwf]

@[simp] theorem State.atCard_wf {s : State} (hwf : s.mem.wf = true) (a : Access) (c : Context) : WfOpt (s.atCard a c) := by
  unfold State.atCard
  extract_lets size
  split
  · split <;> simp [hwf]
  split
  · simp [hwf]
  split
  · simp [hwf]
  split
  · refine wfOpt_bind fun s1 h1 => ?_
    have hs1 := State.readAt_wf hwf _ _ _ _ _ s1 h1
    split
    · exact State.doCpyq_wf hs1 _ _
    · exact State.doTgpost_wf hs1 _ _
    split
    · exact State.doLnkq_wf hs1 _ _ _
    extract_lets t
    split
    · simp [hs1]
    · exact wfOpt_bind fun s2 h2 => State.doLnkq_wf (State.readAt_wf hs1 _ _ _ _ _ s2 h2) _ _ _
    · exact State.cardStop_wf hs1 _ _ _ _
  · exact State.cardStop_wf hwf _ _ _ _

@[simp] theorem State.atMonitor_wf {s : State} (hwf : s.mem.wf = true) (a : Access) (c : Context) : WfOpt (s.atMonitor a c) := by
  unfold State.atMonitor
  (repeat' split) <;> simp [hwf]

theorem State.layerTurn_wf {s : State} (hwf : s.mem.wf = true) (a : Access) (p : Nat) {f : State → State}
    (hf : ∀ t, t.mem.wf = true → (f t).mem.wf = true) : WfOpt (s.layerTurn a p f) := by
  unfold State.layerTurn
  dsimp only
  split
  · simp [hf, hwf]
  · exact wfOpt_none

@[simp] theorem State.atLayer_wf {s : State} (hwf : s.mem.wf = true) (a : Access) (c : Context) (p : Nat) :
    (s.atLayer a c p).mem.wf = true := by
  unfold State.atLayer
  extract_lets m ly s1 w s2
  have hs1 : s1.mem.wf = true := by simp [s1, hwf]
  have hs2 : s2.mem.wf = true := by
    dsimp only [s2]
    split <;> simp [hs1]
  (repeat' split) <;> simp [hwf, hs2]

@[simp] theorem State.atPref_wf {s : State} (hwf : s.mem.wf = true) (a : Access) (c : Context) : WfOpt (s.atPref a c) := by
  unfold State.atPref
  (repeat' split) <;> simp [hwf]

@[simp] theorem State.memAccess_wf {s : State} (hwf : s.mem.wf = true) (a : Access) (c : Context) : WfOpt (s.memAccess a c) := by
  unfold State.memAccess
  extract_lets xs s1 s0
  have hs1 : s1.mem.wf = true := State.notifyAhead_wf hwf ..
  have hs0 : s0.mem.wf = true := State.notify_wf hs1 ..
  split
  · exact wfOpt_none
  split
  · exact State.logAccess_wf hs0 _ _ _
  split
  · simp [hs0]
  · exact State.accessFault_wf hs0 _ _ _ _ _ _
  extract_lets s2
  have hs2 : s2.mem.wf = true := by simp [s2, hs1]
  split
  · rename_i h
    exact State.lineFirst_wf hs2 h
  · exact wfOpt_map fun t ht => State.keepAccess_wf (State.scanAll_wf (State.atHomes_wf hs2 _ _ t ht) _) ..

@[simp] theorem State.homeAccess_wf {s : State} (hwf : s.mem.wf = true) (a : Access) : WfOpt (s.homeAccess a) := by
  unfold State.homeAccess
  split
  · exact wfOpt_none
  split
  · exact wfOpt_none
  split
  · exact wfOpt_none
  have hlayer : ∀ c p, WfOpt (s.layerTurn a p fun s => s.atLayer a c p) := fun c p =>
    State.layerTurn_wf hwf a p fun _ ht => State.atLayer_wf ht a c p
  cases a.op
  case layacq | layrel => exact hlayer _ _
  case layq | layadv | laypin => exact State.atMonitor_wf hwf _ _
  case pref => exact State.atPref_wf hwf _ _
  case cpyq | lnkq => exact wfOpt_ite (State.atCard_wf hwf _ _) wfOpt_none
  case tgpost => exact wfOpt_ite wfOpt_none (State.atCard_wf hwf _ _)
  all_goals exact wfOpt_ite (State.memAccess_wf hwf _ _) wfOpt_none

@[simp] theorem State.bankAccess_wf {s : State} (hwf : s.mem.wf = true) (a : Access) : WfOpt (s.bankAccess a) := by
  unfold State.bankAccess
  split
  · exact wfOpt_none
  split
  · exact wfOpt_none
  split
  · exact wfOpt_none
  split
  · split <;> simp [hwf]
  split
  · exact wfOpt_none
  split
  · simp [hwf]
  · exact wfOpt_none
  extract_lets bank all xs keyOf own s0 s1
  split
  · exact wfOpt_none
  have hs0 : s0.mem.wf = true := by
    dsimp only [s0]
    split <;> simp [hwf]
  have hs1 : s1.mem.wf = true := wf_foldl (fun _ _ h => by split <;> simp [h]) hs0
  simp [hs1]

@[simp] theorem State.l1Access_wf {s : State} (hwf : s.mem.wf = true) (a : Access) : WfOpt (s.l1Access a) := by
  unfold State.l1Access
  (repeat' split) <;> simp [hwf]

@[simp] theorem State.acknowledge_mem (s : State) (a : Access) (t : Nat) : (s.acknowledge a t).mem = s.mem := by
  unfold State.acknowledge
  (repeat' split) <;> simp

@[simp] theorem State.replay_wf {s : State} (hwf : s.mem.wf = true) (e : LogEntry) : WfOpt (s.replay e) := by
  unfold State.replay
  split
  · exact wfOpt_none
  extract_lets xs ids as src a upd
  split
  · exact wfOpt_none
  split
  · simp [hwf]
  · simp [hwf]
  extract_lets s1
  have hs1 : s1.mem.wf = true := by simp [s1, hwf]
  split
  · rename_i h
    exact State.lineFirst_wf hs1 h
  · exact wfOpt_map fun t ht => State.keepAccess_wf (State.scanAll_wf (State.atHomes_wf (by exact hs1) _ _ t ht) _) ..

theorem wfOpt_findSome? {α : Type} {f : α → Option State} (hf : ∀ x, WfOpt (f x)) (l : List α) : WfOpt (l.findSome? f) := by
  intro t ht
  obtain ⟨x, -, hx⟩ := List.exists_of_findSome?_eq_some ht
  exact hf x t hx

@[simp] theorem State.writeTrace_wf {s : State} (hwf : s.mem.wf = true) (id : Nat) : WfOpt (s.writeTrace id) := by
  refine wfOpt_findSome? (fun core => ?_) _
  dsimp only
  split
  · exact wfOpt_none
  split
  · exact wfOpt_none
  split
  · split
    · simp [hwf, State.scanKeys_wf]
    · exact wfOpt_none
  · simp [hwf]

@[simp] theorem State.ackTrace_wf {s : State} (hwf : s.mem.wf = true) (id : Nat) : WfOpt (s.ackTrace id) := by
  refine wfOpt_findSome? (fun core => ?_) _
  dsimp only
  (repeat' split) <;> simp [hwf]

@[simp] theorem State.loadTags_wf {s : State} (hwf : s.mem.wf = true) (c : Context) (va tag : Nat) :
    (s.loadTags c va tag).mem.wf = true := by
  unfold State.loadTags
  extract_lets fs frames area m
  refine State.framesWrote_wf ?_ ..
  dsimp only [m]
  split
  · exact Memory.filled_wf hwf _
  · exact Memory.foldl_wf _ (fun _ _ h => Memory.foldl_wf _ (fun _ _ h => Memory.setFull_wf h ..) _ h) _ hwf

@[simp] theorem State.answerMapped_mem (s : State) (c : Context) : (s.answerMapped c).mem = s.mem := rfl

@[simp] theorem State.answer_wf {s : State} (hwf : s.mem.wf = true) (p : Nat) (tag status area : DWord) :
    (s.answer p tag status area).mem.wf = true := by
  unfold State.answer
  dsimp only
  (repeat' split) <;> simp [hwf]

@[simp] theorem execHomeRequest_wf {s : State} (hwf : s.mem.wf = true) (id : Nat) : WfOut (execHomeRequest id s) := by
  unfold execHomeRequest
  (repeat' split) <;> simp [hwf]

@[simp] theorem execBankAccess_wf {s : State} (hwf : s.mem.wf = true) (id : Nat) : WfOut (execBankAccess id s) :=
  wfOut_evPort (wfOpt_bind fun a _ => State.bankAccess_wf hwf a)

@[simp] theorem execWaitRepresent_wf {s : State} (hwf : s.mem.wf = true) (id : Nat) : WfOut (execWaitRepresent id s) := by
  unfold execWaitRepresent
  refine wfOut_evPort ?_
  split
  · exact wfOpt_none
  split
  · extract_lets p sl s1
    have hs1 : s1.mem.wf = true := by simp [s1, hwf]
    split
    · exact wfOpt_none
    split
    · rename_i h
      exact State.lineFirst_wf hs1 h
    · simp [hs1]
  · exact wfOpt_none

@[simp] theorem execStoreAcknowledgement_wf {s : State} (hwf : s.mem.wf = true) (id : Nat) : WfOut (execStoreAcknowledgement id s) := by
  unfold execStoreAcknowledgement
  (repeat' split) <;> simp [hwf]

@[simp] theorem execL1LeaseExpiry_wf {s : State} (hwf : s.mem.wf = true) (core line : Nat) : WfOut (execL1LeaseExpiry core line s) := by
  unfold execL1LeaseExpiry
  simp [hwf]

@[simp] theorem execReleaseConditionMet_wf {s : State} (hwf : s.mem.wf = true) (id : Nat) : WfOut (execReleaseConditionMet id s) :=
  wfOut_evPort (wfOpt_bind fun a _ => State.release_wf hwf a)

@[simp] theorem execFeTimeout_wf {s : State} (hwf : s.mem.wf = true) (id : Nat) : WfOut (execFeTimeout id s) := by
  unfold execFeTimeout
  (repeat' split) <;> simp [hwf]

@[simp] theorem execSideLogReplay_wf {s : State} (hwf : s.mem.wf = true) (id : Nat) : WfOut (execSideLogReplay id s) := by
  unfold execSideLogReplay
  (repeat' split) <;> simp [hwf]

@[simp] theorem execFaultAnswer_wf {s : State} (hwf : s.mem.wf = true) (part : Nat) (tag status tagArea : DWord) :
    WfOut (execFaultAnswer part tag status tagArea s) := by
  unfold execFaultAnswer
  (repeat' split) <;> simp [hwf]

@[simp] theorem execVariableResultReturn_wf {s : State} (hwf : s.mem.wf = true) (id : Nat) : WfOut (execVariableResultReturn id s) := by
  unfold execVariableResultReturn
  refine wfOut_evPort ?_
  split
  · split
    · exact wfOpt_none
    · exact wfOpt_some.2 hwf
  · exact wfOpt_bind fun a _ => State.l1Access_wf hwf a

end Sys2Proof.Machine

/-! ### Memory stays canonical: the functions of `Sys2Proof/Machine/Preempt.lean` -/

namespace Sys2Proof.Machine

@[simp] theorem State.withdraw_wf {s : State} (hwf : s.mem.wf = true) (g : Gang) :
    (s.withdraw g).mem.wf = true := wf_foldl (fun _ _ h => by simp [h]) hwf

@[simp] theorem State.startDrain_wf {s : State} (hwf : s.mem.wf = true) (g : Gang) : (s.startDrain g).mem.wf = true := by
  unfold State.startDrain
  simp [hwf]

@[simp] theorem State.enterSave_wf {s0 : State} (hwf : s0.mem.wf = true) (g : Gang) : (s0.enterSave g).mem.wf = true := by
  unfold State.enterSave
  extract_lets s ks ending rest s3 s4 s5
  have hs5 : s5.mem.wf = true := by simpa [s5, s4, s3] using State.withdraw_wf hwf g
  clear_value s5 s4 ks
  split
  · simp [hs5]
  · exact wf_foldl (fun _ _ h => wf_foldl (fun _ _ h => State.takeTrap_wf h ..) h) hs5

@[simp] theorem execPreemptTrap_wf {s : State} (hwf : s.mem.wf = true) (gang : Nat) : WfOut (execPreemptTrap gang s) := by
  unfold execPreemptTrap
  (repeat' split) <;> simp [hwf]

@[simp] theorem execDetRound_wf {s : State} (hwf : s.mem.wf = true) (gang : Nat) : WfOut (execDetRound gang s) := by
  unfold execDetRound
  (repeat' split) <;> simp [hwf]

end Sys2Proof.Machine

/-! ### Memory stays canonical: the functions of `Sys2Proof/Machine/Sched.lean` -/

namespace Sys2Proof.Machine

@[simp] theorem State.issueGroup_mem (s : State) (b : Band) : (s.issueGroup b).mem = s.mem := by
  unfold State.issueGroup
  split <;> rfl

@[simp] theorem State.tryIssue_wf {s : State} (hwf : s.mem.wf = true) (b : Band) : WfOpt (s.tryIssue b) := by
  unfold State.tryIssue
  (repeat' split) <;> simp [hwf]

theorem State.takeTurn_wf {s : State} (hwf : s.mem.wf = true) (g : Gang) (core : Nat) (bs : List Band) : WfOpt (s.takeTurn g core bs) := by
  induction bs with
  | nil => exact wfOpt_some.2 hwf
  | cons b rest ih =>
    unfold State.takeTurn
    split
    · split
      · exact wfOpt_none
      · exact ih
    split
    · simp [hwf]
    · exact wfOpt_none

@[simp] theorem State.coreTurn_wf {s : State} (hwf : s.mem.wf = true) (gid core : Nat) : WfOpt (s.coreTurn gid core) := by
  unfold State.coreTurn
  split
  · exact wfOpt_none
  split
  · exact wfOpt_none
  split
  · exact State.takeTurn_wf hwf _ _ _
  · exact wfOpt_none

@[simp] theorem State.noticeSram_wf {s : State} (hwf : s.mem.wf = true) (e : SramWord) : (s.noticeSram e).mem.wf = true := by
  unfold State.noticeSram
  split
  case h_1 => simp [hwf]
  case h_3 =>
    simp only [State.countLost_mem]
    refine wf_foldl (fun _ _ h => State.endContext_wf h ..) (wf_foldl (fun _ _ h => ?_) hwf)
    simp [h]
  all_goals exact hwf

@[simp] theorem State.noticeAll_wf {s : State} (hwf : s.mem.wf = true) : s.noticeAll.mem.wf = true := by
  unfold State.noticeAll
  dsimp only
  split
  · exact hwf
  · exact wf_foldl (fun _ _ h => State.noticeSram_wf h _) hwf

@[simp] theorem State.tick_wf {s : State} (hwf : s.mem.wf = true) : s.tick.mem.wf = true := by
  unfold State.tick
  simp [hwf]

@[simp] theorem State.fetchTrap_wf {s : State} (hwf : s.mem.wf = true) (b : Band) (cls cause : Nat) :
    (s.fetchTrap b cls cause).mem.wf = true := by
  unfold State.fetchTrap
  simp [hwf]

@[simp] theorem State.fetchFor_wf {s : State} (hwf : s.mem.wf = true) (b : Band) : WfOpt (s.fetchFor b) := by
  unfold State.fetchFor
  dsimp only
  (repeat' split) <;> simp [hwf]

@[simp] theorem State.resumeMarker_wf {s : State} (hwf : s.mem.wf = true) (b : Band) : WfOpt (s.resumeMarker b) := by
  unfold State.resumeMarker
  simp [hwf]

@[simp] theorem execInstructionFetch_wf {s : State} (hwf : s.mem.wf = true) (b : Nat) : WfOut (execInstructionFetch b s) :=
  wfOut_evPort (wfOpt_bind fun b _ => State.fetchFor_wf hwf b)

@[simp] theorem execSwitchMarkerResume_wf {s : State} (hwf : s.mem.wf = true) (b : Nat) : WfOut (execSwitchMarkerResume b s) :=
  wfOut_ev (wfOpt_bind fun b _ => State.resumeMarker_wf hwf b)

@[simp] theorem execCrewMismatch_wf {s : State} (hwf : s.mem.wf = true) (gang crew : Nat) : WfOut (execCrewMismatch gang crew s) := by
  unfold execCrewMismatch
  (repeat' split) <;> simp [hwf]

@[simp] theorem execYieldExpiry_wf {s : State} (hwf : s.mem.wf = true) (b : Nat) : WfOut (execYieldExpiry b s) := by
  unfold execYieldExpiry
  (repeat' split) <;> simp [hwf]

end Sys2Proof.Machine

/-! ### Memory stays canonical: the functions of `Sys2Proof/Machine/Observe.lean` -/

namespace Sys2Proof.Machine

@[simp] theorem State.sample_mem (s : State) (core : Nat) : (s.sample core).mem = s.mem := by
  unfold State.sample
  dsimp only
  (repeat' split) <;> simp

@[simp] theorem execTraceSample_wf {s : State} (hwf : s.mem.wf = true) (core : Nat) : WfOut (execTraceSample core s) := by
  unfold execTraceSample
  simp [hwf]

@[simp] theorem execTrctlWrite_wf {s : State} (hwf : s.mem.wf = true) (core : Nat) (v : DWord) : WfOut (execTrctlWrite core v s) := by
  unfold execTrctlWrite
  (repeat' split) <;> simp [hwf]

@[simp] theorem execTrlostClear_wf {s : State} (hwf : s.mem.wf = true) (core : Nat) : WfOut (execTrlostClear core s) := by
  unfold execTrlostClear
  simp [hwf]

@[simp] theorem execHistogramClear_wf {s : State} (hwf : s.mem.wf = true) (core k : Nat) : WfOut (execHistogramClear core k s) := by
  unfold execHistogramClear
  simp [hwf]

@[simp] theorem execEventSelectWrite_wf {s : State} (hwf : s.mem.wf = true) (core k : Nat) (v : DWord) :
    WfOut (execEventSelectWrite core k v s) := by
  unfold execEventSelectWrite
  dsimp only
  (repeat' split) <;> simp [hwf]

@[simp] theorem execCounterStatusClear_wf {s : State} (hwf : s.mem.wf = true) (core : Nat) (v : DWord) :
    WfOut (execCounterStatusClear core v s) := by
  unfold execCounterStatusClear
  simp [hwf]

end Sys2Proof.Machine

/-! ### Memory stays canonical: the functions of `Sys2Proof/Machine/Registers.lean` -/

namespace Sys2Proof.Machine

@[simp] theorem State.refuse_mem (s : State) (off reason : Nat) : (s.refuse off reason).mem = s.mem :=
  State.updPf_mem ..

@[simp] theorem State.writeRange_mem (s : State) (p k : Nat) (e : RangeEntry) : (s.writeRange p k e).mem = s.mem := by
  unfold State.writeRange
  split <;> rfl

@[simp] theorem State.confine_mem (s : State) (p : Nat) : (s.confine p).mem = s.mem := by
  unfold State.confine
  dsimp only
  (repeat' split) <;> simp

@[simp] theorem State.moveGroups_mem (s : State) (m : List (BitVec 8)) : (s.moveGroups m).mem = s.mem := by
  unfold State.moveGroups
  exact (mem_foldl fun _ _ => State.confine_mem ..).trans (State.updPf_mem ..)

@[simp] theorem State.moveClusters_mem (s : State) (m : List (BitVec 8)) : (s.moveClusters m).mem = s.mem := rfl

theorem State.writeOwners_mem {s : State} (off : Nat) (m m' : List (BitVec 8)) (used : Bool) {put : State → State}
    (hput : (put s).mem = s.mem) :
    (s.writeOwners off m m' used put).mem = s.mem := by
  unfold State.writeOwners
  (repeat' split) <;> simp [hput]

@[simp] theorem State.writeModule_wf {s : State} (hwf : s.mem.wf = true) (off : Nat) (v : DWord) : WfOpt (s.writeModule off v) := by
  have hlink : ∀ off m used v, (s.writeOwners off m v used fun s => s.updPf fun f => { f with linkown := v }).mem = s.mem :=
    fun _ _ _ _ => State.writeOwners_mem _ _ _ _ (State.updPf_mem ..)
  have hclusters : ∀ off m m' used v, (s.writeOwners off m m' used fun s => s.moveClusters v).mem = s.mem :=
    fun _ _ _ _ _ => State.writeOwners_mem _ _ _ _ (State.moveClusters_mem ..)
  unfold State.writeModule
  repeat' apply wfOpt_ite
  all_goals simp [hwf, State.writeOwners_mem, hlink, hclusters]

@[simp] theorem State.writeRangeWord_mem (s : State) (p r : Nat) (v : DWord) : (s.writeRangeWord p r v).mem = s.mem := by
  unfold State.writeRangeWord
  (repeat' split) <;> simp

@[simp] theorem State.writeBlock_wf {s : State} (hwf : s.mem.wf = true) (p r : Nat) (v : DWord) : WfOpt (s.writeBlock p r v) := by
  unfold State.writeBlock
  (repeat' split) <;> simp [hwf]

@[simp] theorem State.writeObs_wf {s : State} (hwf : s.mem.wf = true) (core r : Nat) (v : DWord) (guest : Bool) :
    WfOpt (s.writeObs core r v guest) := by
  unfold State.writeObs
  (repeat' split) <;> simp [hwf]

@[simp] theorem State.writeQueue_wf {s : State} (hwf : s.mem.wf = true) (p q r : Nat) (v : DWord) : WfOpt (s.writeQueue p q r v) := by
  unfold State.writeQueue
  (repeat' split) <;> simp [hwf]

@[simp] theorem State.writePf_wf {s : State} (hwf : s.mem.wf = true) (off : Nat) (v : DWord) : WfOpt (s.writePf off v) := by
  unfold State.writePf
  (repeat' split) <;> simp [hwf]

@[simp] theorem State.writeVf_wf {s : State} (hwf : s.mem.wf = true) (p off : Nat) (v : DWord) : WfOpt (s.writeVf p off v) := by
  unfold State.writeVf
  (repeat' split) <;> simp [hwf]

@[simp] theorem execRangeEntryWrite_wf {s : State} (hwf : s.mem.wf = true) (part k : Nat) (base limit off ctl : DWord) :
    WfOut (execRangeEntryWrite part k base limit off ctl s) := by
  unfold execRangeEntryWrite
  simp [hwf]

@[simp] theorem execMapcommit_wf {s : State} (hwf : s.mem.wf = true) (v : DWord) : WfOut (execMapcommit v s) := by
  unfold execMapcommit
  simp [hwf]

@[simp] theorem execMapApply_wf {s : State} (hwf : s.mem.wf = true) : WfOut (execMapApply s) := by
  unfold execMapApply
  (repeat' split) <;> simp [hwf]

@[simp] theorem execPctlWrite_wf {s : State} (hwf : s.mem.wf = true) (part : Nat) (v : DWord) : WfOut (execPctlWrite part v s) := by
  unfold execPctlWrite
  dsimp only
  (repeat' split) <;> simp [hwf]

@[simp] theorem execPfstatClear_wf {s : State} (hwf : s.mem.wf = true) (v : DWord) : WfOut (execPfstatClear v s) := by
  unfold execPfstatClear
  simp [hwf]

@[simp] theorem execRegisterWrite_wf {s : State} (hwf : s.mem.wf = true) (part : Nat) (vf : Bool) (off : Nat) (v : DWord) :
    WfOut (execRegisterWrite part vf off v s) := by
  refine wfOut_ev (wfOpt_ite wfOpt_none (wfOpt_ite (vfWrite_wf hwf (State.writeVf_wf hwf _ _ _)) (State.writePf_wf hwf _ _)))

@[simp] theorem execMplim_wf {s : State} (hwf : s.mem.wf = true) (v : DWord) : WfOut (execMplim v s) := by
  unfold execMplim
  simp [hwf]

@[simp] theorem execMshare_wf {s : State} (hwf : s.mem.wf = true) (part : Nat) (v : DWord) : WfOut (execMshare part v s) := by
  unfold execMshare
  (repeat' split) <;> simp [hwf]

end Sys2Proof.Machine

/-! ### Memory stays canonical: the functions of `Sys2Proof/Machine/Fabric.lean` -/

namespace Sys2Proof.Machine

@[simp] theorem State.loseSession_wf {s : State} (hwf : s.mem.wf = true) (p n : Nat) : (s.loseSession p n).mem.wf = true := hwf

@[simp] theorem State.sendFlitOn_wf {s : State} (hwf : s.mem.wf = true) (link p : Nat) (x : Session) (kind job off : Nat)
    (payload : List Byte) :
    WfOpt (s.sendFlitOn link p x kind job off payload) := by
  unfold State.sendFlitOn
  simp [hwf]

@[simp] theorem State.sendFlit_wf {s : State} (hwf : s.mem.wf = true) (p : Nat) (x : Session) (kind job off : Nat) (payload : List Byte) :
    WfOpt (s.sendFlit p x kind job off payload) := by
  unfold State.sendFlit
  simp [hwf]

theorem State.receiveFlit_wf {s : State} (hwf : s.mem.wf = true) (link : Nat) (b : List Byte) (kind : Nat)
    {f : State → Nat → Session → List Byte → Option State} (hf : ∀ t p x pt, t.mem.wf = true → WfOpt (f t p x pt)) :
    WfOpt (s.receiveFlit link b kind f) := by
  unfold State.receiveFlit
  extract_lets l s1
  have hs1 : s1.mem.wf = true := hwf
  split
  · exact wfOpt_none
  split
  · simp [hwf]
  split
  · exact wfOpt_some.2 hs1
  split
  · exact wfOpt_some.2 hs1
  split
  · simp [hs1]
  extract_lets x1
  split
  · rename_i h
    exact wfOpt_some.2 (hf _ _ _ _ (by simpa using hs1) _ h)
  · simp [hwf]

@[simp] theorem State.skipFlit_mem (s : State) (link : Nat) (b : List Byte) : (s.skipFlit link b).mem = s.mem := by
  unfold State.skipFlit
  (repeat' split) <;> simp

@[simp] theorem State.setLinkJob_mem (s : State) (j : LinkJob) : (s.setLinkJob j).mem = s.mem := rfl

@[simp] theorem State.linkHas_mem (s : State) (j : LinkJob) (rs : List (Nat × Nat)) : (s.linkHas j rs).mem = s.mem :=
  mem_foldl fun _ _ => by split <;> simp

theorem State.linkStop_wf {s : State} (hwf : s.mem.wf = true) (j : LinkJob) (kind : Nat) (e : ReadStop) :
    (s.linkStop j kind e).mem.wf = true := by
  unfold State.linkStop
  split <;> simp [hwf]

theorem State.linkWrite_wf {s t : State} (hwf : s.mem.wf = true) {j : LinkJob} {addr n : Nat} {bytes : List Byte}
    (h : s.linkWrite j addr bytes = .ok (t, n)) : t.mem.wf = true := by
  unfold State.linkWrite at h
  split at h
  · cases h
  · cases h
    simp [hwf]

@[simp] theorem State.putNext_wf {s : State} (hwf : s.mem.wf = true) (j : LinkJob) : WfOpt (s.putNext j) := by
  unfold State.putNext
  extract_lets c
  split
  · simp [hwf]
  split
  · exact wfOpt_some.2 (State.linkStop_wf hwf _ _ _)
  · exact wfOpt_map fun t ht => by simpa using State.sendFlit_wf hwf _ _ _ _ _ _ t ht

@[simp] theorem State.putLine_wf {s : State} (hwf : s.mem.wf = true) (j : LinkJob) : WfOpt (s.putLine j) := by
  unfold State.putLine
  extract_lets gone
  split
  · split
    · exact wfOpt_none
    · exact wfOpt_map fun t ht => by simpa using State.sendFlitOn_wf ((State.pick_mem ..).symm ▸ hwf) _ _ _ _ _ _ _ t ht
  · exact wfOpt_some.2 hwf

@[simp] theorem State.getAll_wf {s : State} (hwf : s.mem.wf = true) (j : LinkJob) : WfOpt (s.getAll j) := by
  unfold State.getAll
  extract_lets c
  split
  · simp [hwf]
  split
  · simp [hwf]
  split
  · exact wfOpt_none
  split
  · exact wfOpt_some.2 (State.linkStop_wf hwf _ _ _)
  · rename_i h
    exact wfOpt_some.2 (by simpa using State.linkWrite_wf hwf h)

@[simp] theorem State.reduceStart_wf {s : State} (hwf : s.mem.wf = true) (j : LinkJob) : (s.reduceStart j).mem.wf = true := by
  unfold State.reduceStart
  extract_lets c
  split
  · exact State.linkStop_wf hwf _ _ _
  · exact State.linkStop_wf hwf _ _ _
  extract_lets xs ss q
  split
  · exact State.linkStop_wf hwf _ _ _
  · rename_i h
    simpa using State.linkWrite_wf hwf h

@[simp] theorem State.reduceTo_wf {s : State} (hwf : s.mem.wf = true) (j : LinkJob) (r : Nat) : WfOpt (s.reduceTo j r) := by
  unfold State.reduceTo
  extract_lets c per i off n
  split
  · exact wfOpt_none
  split
  · simp [hwf]
  split
  · exact wfOpt_some.2 (State.linkStop_wf hwf _ _ _)
  · exact wfOpt_map fun t ht => by simpa using State.sendFlit_wf hwf _ _ _ _ _ _ t ht

@[simp] theorem State.reduceNext_wf {s : State} (hwf : s.mem.wf = true) (j : LinkJob) : WfOpt (s.reduceNext j) :=
  wfOpt_findSome? (State.reduceTo_wf hwf j) _

@[simp] theorem State.dropLater_mem (s : State) (j : LinkJob) : (s.dropLater j).mem = s.mem := by
  refine mem_foldl fun _ _ => ?_
  split
  · rfl
  · split <;> simp

@[simp] theorem State.reduceEnd_wf {s : State} (hwf : s.mem.wf = true) (j : LinkJob) : (s.reduceEnd j).mem.wf = true := by
  unfold State.reduceEnd
  extract_lets c ranks slots
  split
  · exact State.linkStop_wf hwf _ _ _
  split
  · exact State.linkStop_wf hwf _ _ _
  · rename_i h
    simpa using State.linkWrite_wf hwf h

@[simp] theorem State.contributeTo_wf {s : State} (hwf : s.mem.wf = true) (j : LinkJob) (r off : Nat) (pt : List Byte) :
    WfOpt (s.contributeTo j r off pt) := by
  unfold State.contributeTo
  extract_lets c i n
  split
  · simp [hwf]
  split
  · split <;> simp [hwf]
  · exact wfOpt_none
  · rename_i h
    exact wfOpt_some.2 (by simpa using State.linkWrite_wf hwf h)

@[simp] theorem State.contribute_wf {s : State} (hwf : s.mem.wf = true) (p : Nat) (x : Session) (off : Nat) (pt : List Byte) :
    WfOpt (s.contribute p x off pt) := by
  unfold State.contribute
  dsimp only
  (repeat' split) <;> simp [hwf]

@[simp] theorem State.takeEarly_wf {s : State} (hwf : s.mem.wf = true) (j : LinkJob) : WfOpt (s.takeEarly j) :=
  wfOpt_findSome? (fun r => wfOpt_bind fun y _ => State.contributeTo_wf (by simpa using hwf) _ _ _ _) _

@[simp] theorem State.windowPut_wf {s : State} (hwf : s.mem.wf = true) (p : Nat) (x : Session) (job off : Nat) (pt : List Byte) :
    (s.windowPut p x job off pt).mem.wf = true := by
  unfold State.windowPut
  dsimp only
  (repeat' split) <;> simp [hwf]

@[simp] theorem State.windowGet_wf {s : State} (hwf : s.mem.wf = true) (p : Nat) (x : Session) (job : Nat) (pt : List Byte) :
    WfOpt (s.windowGet p x job pt) := by
  unfold State.windowGet
  extract_lets i n
  split
  · exact wfOpt_some.2 hwf
  split
  · simp [hwf]
  · exact wfOpt_map fun t ht => by simpa using State.sendFlit_wf hwf _ _ _ _ _ _ t ht

@[simp] theorem State.flagFilled_wf {s : State} (hwf : s.mem.wf = true) (w : RemotePut) (x : Session) :
    (s.flagFilled w x).mem.wf = true := by
  unfold State.flagFilled
  (repeat' split) <;> simp [hwf]

@[simp] theorem State.fillFlag_wf {s : State} (hwf : s.mem.wf = true) (w : RemotePut) : WfOpt (s.fillFlag w) := by
  unfold State.fillFlag
  split
  · exact wfOpt_none
  extract_lets s1
  have hs1 : s1.mem.wf = true := State.flagFilled_wf hwf ..
  split
  · rename_i h
    have ht := State.sendFlit_wf hs1 _ _ _ _ _ _ _ h
    exact wfOpt_some.2 ht
  · split
    · exact wfOpt_none
    · exact wfOpt_some.2 hs1

@[simp] theorem State.linkGone_wf {s : State} (hwf : s.mem.wf = true) (j : LinkJob) : (s.linkGone j).mem.wf = true := by
  unfold State.linkGone
  (repeat' split) <;> simp [hwf]

@[simp] theorem State.linkUnwritten_wf {s : State} (hwf : s.mem.wf = true) (j : LinkJob) (e : ReadStop) :
    (s.linkUnwritten j e).mem.wf = true := by
  unfold State.linkUnwritten
  split
  · exact State.linkStop_wf hwf _ _ _
  · exact State.linkGone_wf hwf _

@[simp] theorem State.linkMask_wf {s : State} (hwf : s.mem.wf = true) (j : LinkJob) : (s.linkMask j).mem.wf = true := by
  unfold State.linkMask
  split
  · rename_i h
    simpa using State.linkWrite_wf hwf h
  · exact State.linkUnwritten_wf hwf _ _

@[simp] theorem State.linkEnd_wf {s : State} (hwf : s.mem.wf = true) (j : LinkJob) : (s.linkEnd j).mem.wf = true := by
  unfold State.linkEnd
  (repeat' split) <;> simp [hwf]

@[simp] theorem State.dispatchLink_wf {s : State} (hwf : s.mem.wf = true) (p n : Nat) (d : Node) : WfOpt (s.dispatchLink p n d) := by
  unfold State.dispatchLink
  extract_lets a post
  have hpost : ∀ card t, WfOpt (post card t) := fun card t => by
    dsimp only [post]
    split
    · simp [hwf]
    split
    · exact wfOpt_none
    · simp [hwf]
  split
  · simp [hwf]
  split
  · exact wfOpt_some.2 (State.payloadStop_wf hwf ..)
  extract_lets c
  split
  · exact hpost _ _
  split
  · simp [hwf]
  split
  · exact wfOpt_some.2 (State.payloadStop_wf hwf ..)
  · exact hpost _ _

@[simp] theorem State.openSession_mem (s : State) (p link peer n base len : Nat) :
    (s.openSession p link peer n base len).mem = s.mem := rfl

@[simp] theorem State.rekey_wf {s : State} (hwf : s.mem.wf = true) (p : Nat) (x : Session) : WfOpt (s.rekey p x) := by
  unfold State.rekey
  extract_lets k s0 x1
  have hs0 : s0.mem.wf = true := hwf
  split
  · simp [hs0]
  split
  · simp [hs0]
  · exact wfOpt_map fun t ht => by simpa using State.sendFlit_wf hs0 _ _ _ _ _ _ t ht

@[simp] theorem execNodeLink_wf {s : State} (hwf : s.mem.wf = true) (part node : Nat) : WfOut (execNodeLink part node s) :=
  wfOut_evPort (State.dispatch_wf hwf _ _ _ fun _ => State.dispatchLink_wf hwf _ _ _)

@[simp] theorem execSessionOpen_wf {s : State} (hwf : s.mem.wf = true) (part link peer n base len : Nat) :
    WfOut (execSessionOpen part link peer n base len s) := by
  unfold execSessionOpen
  (repeat' split) <;> simp [hwf]

@[simp] theorem execRekey_wf {s : State} (hwf : s.mem.wf = true) (part n : Nat) : WfOut (execRekey part n s) := by
  unfold execRekey
  (repeat' split) <;> simp [hwf]

@[simp] theorem execSessionClose_wf {s : State} (hwf : s.mem.wf = true) (part n : Nat) : WfOut (execSessionClose part n s) :=
  wfOut_ev (wfOpt_map fun _ _ => State.loseSession_wf hwf _ _)

@[simp] theorem execSessionLoss_wf {s : State} (hwf : s.mem.wf = true) (part n : Nat) : WfOut (execSessionLoss part n s) :=
  wfOut_ev (wfOpt_map fun _ _ => State.loseSession_wf hwf _ _)

@[simp] theorem execLinkDownExpiry_wf {s : State} (hwf : s.mem.wf = true) (link : Nat) : WfOut (execLinkDownExpiry link s) := by
  unfold execLinkDownExpiry
  exact wfOut_ev (wfOpt_ite wfOpt_none (wfOpt_some.2 (wf_foldl (fun _ _ h => State.loseSession_wf h _ _) hwf)))

@[simp] theorem execFlitData_wf {s : State} (hwf : s.mem.wf = true) (link : Nat) (flit : List Byte) :
    WfOut (execFlitData link flit s) := by
  refine wfOut_evPort (State.receiveFlit_wf hwf _ _ _ fun t p x pt ht => wfOpt_ite ?_ wfOpt_none)
  exact wfOpt_some.2 (State.windowPut_wf ht ..)

@[simp] theorem execFlitAcknowledgement_wf {s : State} (hwf : s.mem.wf = true) (link : Nat) (flit : List Byte) :
    WfOut (execFlitAcknowledgement link flit s) :=
  wfOut_ev (State.receiveFlit_wf hwf _ _ _ fun _ _ _ _ ht => wfOpt_some.2 ht)

@[simp] theorem execFlitContribution_wf {s : State} (hwf : s.mem.wf = true) (link : Nat) (flit : List Byte) :
    WfOut (execFlitContribution link flit s) :=
  wfOut_evPort (State.receiveFlit_wf hwf _ _ _ fun _ _ _ _ ht => wfOpt_ite (State.contribute_wf ht _ _ _ _) wfOpt_none)

@[simp] theorem execFlitControl_wf {s : State} (hwf : s.mem.wf = true) (link : Nat) (flit : List Byte) :
    WfOut (execFlitControl link flit s) := by
  refine wfOut_evPort (State.receiveFlit_wf hwf _ _ _ fun t p x pt ht => ?_)
  split
  · split <;> simp [ht]
  · simp [ht]
  · exact wfOpt_ite (State.windowGet_wf ht _ _ _ _) wfOpt_none
  · exact wfOpt_some.2 ht

@[simp] theorem execFlitReservedKind_wf {s : State} (hwf : s.mem.wf = true) (link : Nat) (flit : List Byte) :
    WfOut (execFlitReservedKind link flit s) := by
  unfold execFlitReservedKind
  dsimp only
  (repeat' split) <;> simp [hwf]

@[simp] theorem execNak_wf {s : State} (hwf : s.mem.wf = true) (link : Nat) (seq : BitVec 16) : WfOut (execNak link seq s) := by
  unfold execNak
  simp [hwf]

@[simp] theorem execLinkRetrain_wf {s : State} (hwf : s.mem.wf = true) (link : Nat) : WfOut (execLinkRetrain link s) := by
  unfold execLinkRetrain
  simp [hwf]

@[simp] theorem execLinkRetrained_wf {s : State} (hwf : s.mem.wf = true) (link : Nat) : WfOut (execLinkRetrained link s) := by
  unfold execLinkRetrained
  simp [hwf]

@[simp] theorem execLaneReplace_wf {s : State} (hwf : s.mem.wf = true) (link lane : Nat) : WfOut (execLaneReplace link lane s) := by
  unfold execLaneReplace
  (repeat' split) <;> simp [hwf]

@[simp] theorem execLinkPut_wf {s : State} (hwf : s.mem.wf = true) (job : Nat) : WfOut (execLinkPut job s) := by
  unfold execLinkPut
  (repeat' split) <;> simp [hwf]

@[simp] theorem execLinkGet_wf {s : State} (hwf : s.mem.wf = true) (job : Nat) : WfOut (execLinkGet job s) := by
  unfold execLinkGet
  (repeat' split) <;> simp [hwf]

@[simp] theorem execLinkReduce_wf {s : State} (hwf : s.mem.wf = true) (job : Nat) : WfOut (execLinkReduce job s) := by
  unfold execLinkReduce
  (repeat' split) <;> simp [hwf]

@[simp] theorem execPutFlagFill_wf {s : State} (hwf : s.mem.wf = true) (put : Nat) : WfOut (execPutFlagFill put s) := by
  unfold execPutFlagFill
  (repeat' split) <;> simp [hwf]

@[simp] theorem execReduceDeadline_wf {s : State} (hwf : s.mem.wf = true) (job : Nat) : WfOut (execReduceDeadline job s) := by
  unfold execReduceDeadline
  (repeat' split) <;> simp [hwf]

@[simp] theorem execLinkJobEnd_wf {s : State} (hwf : s.mem.wf = true) (job : Nat) : WfOut (execLinkJobEnd job s) := by
  unfold execLinkJobEnd
  (repeat' split) <;> simp [hwf]

end Sys2Proof.Machine

/-! ### Memory stays canonical: the functions of `Sys2Proof/Machine/Health.lean` -/

namespace Sys2Proof.Machine

@[simp] theorem State.setPort_mem (s : State) (r : PortReq) : (s.setPort r).mem = s.mem := rfl

@[simp] theorem State.dropPort_mem (s : State) (r : PortReq) : (s.dropPort r).mem = s.mem := rfl

@[simp] theorem State.perform_wf {s : State} (hwf : s.mem.wf = true) (ch tag : Nat) (kind : PortKind) :
    WfOpt (s.perform ch tag kind) := by
  unfold State.perform
  (repeat' split) <;> simp [hwf]

@[simp] theorem State.readReply_wf {s : State} (hwf : s.mem.wf = true) (ch tag : Nat) : WfOpt (s.readReply ch tag) := by
  unfold State.readReply
  (repeat' split) <;> simp [hwf]

@[simp] theorem State.writeReply_wf {s : State} (hwf : s.mem.wf = true) (ch tag : Nat) : WfOpt (s.writeReply ch tag) := by
  unfold State.writeReply
  (repeat' split) <;> simp [hwf]

@[simp] theorem State.retire_mem (s : State) (ch sec : Nat) : (s.retire ch sec).mem = s.mem := by
  unfold State.retire
  dsimp only
  (repeat' split) <;> simp

@[simp] theorem State.scrub_mem (s : State) (ch sec : Nat) : (s.scrub ch sec).2.mem = s.mem := by
  unfold State.scrub
  dsimp only
  (repeat' split) <;> simp

@[simp] theorem State.scrubRead_wf {s : State} (hwf : s.mem.wf = true) (ch sec : Nat) : WfOpt (s.scrubRead ch sec) := by
  unfold State.scrubRead
  (repeat' split) <;> simp [hwf]

@[simp] theorem State.copyRow_mem (s : State) (ch row : Nat) : (s.copyRow ch row).mem = s.mem := rfl

@[simp] theorem State.replaceCluster_wf {s : State} (hwf : s.mem.wf = true) (k : Nat) : (s.replaceCluster k).mem.wf = true := by
  unfold State.replaceCluster
  simp [hwf]

@[simp] theorem State.spareTakeover_wf {s : State} (hwf : s.mem.wf = true) (k : Nat) : WfOpt (s.spareTakeover k) := by
  unfold State.spareTakeover
  dsimp only
  (repeat' split) <;> simp [hwf]

@[simp] theorem State.loseCluster_wf {s : State} (hwf : s.mem.wf = true) (k : Nat) :
    (s.loseCluster k).mem.wf = true := wf_foldl (fun _ _ h => by simp [h]) hwf

@[simp] theorem State.bringUpFail_mem (s : State) (step code : Nat) : (s.bringUpFail step code).mem = s.mem := rfl

@[simp] theorem State.trainChannels_mem (s : State) : s.trainChannels.mem = s.mem :=
  mem_foldl fun _ _ => (State.updPf_mem ..).trans (State.pick_mem ..)

@[simp] theorem State.bringUp_wf {s : State} (hwf : s.mem.wf = true) : s.bringUp.mem.wf = true := by
  unfold State.bringUp
  extract_lets n s1 a b c
  have hs1 : s1.mem.wf = true := hwf
  have hc : c.mem.wf = true := by simp [c, b, a, hs1]
  split
  · simp [hs1]
  split
  · simp [hs1]
  split
  · simp [hs1]
  · exact Memory.filled_wf (Memory.zeroed_wf hc _) _

@[simp] theorem State.setClocks_mem (s : State) : s.setClocks.mem = s.mem := rfl

@[simp] theorem State.lostAll_wf {s : State} (hwf : s.mem.wf = true) : s.lostAll.mem.wf = true :=
  Memory.filled_wf (Memory.zeroed_wf hwf _) _

@[simp] theorem State.shutDown_wf {s : State} (hwf : s.mem.wf = true) : s.shutDown.mem.wf = true := by
  unfold State.shutDown
  simp [hwf]

@[simp] theorem execReadSector_wf {s : State} (hwf : s.mem.wf = true) (ch tag : Nat) : WfOut (execReadSector ch tag s) := by
  unfold execReadSector
  simp [hwf]

@[simp] theorem execReadLine_wf {s : State} (hwf : s.mem.wf = true) (ch tag : Nat) : WfOut (execReadLine ch tag s) := by
  unfold execReadLine
  simp [hwf]

@[simp] theorem execWriteSector_wf {s : State} (hwf : s.mem.wf = true) (ch tag : Nat) : WfOut (execWriteSector ch tag s) := by
  unfold execWriteSector
  simp [hwf]

@[simp] theorem execWriteLine_wf {s : State} (hwf : s.mem.wf = true) (ch tag : Nat) : WfOut (execWriteLine ch tag s) := by
  unfold execWriteLine
  simp [hwf]

@[simp] theorem execPartialWrite_wf {s : State} (hwf : s.mem.wf = true) (ch tag : Nat) : WfOut (execPartialWrite ch tag s) := by
  unfold execPartialWrite
  simp [hwf]

@[simp] theorem execScrubRead_wf {s : State} (hwf : s.mem.wf = true) (ch sector : Nat) : WfOut (execScrubRead ch sector s) := by
  unfold execScrubRead
  (repeat' split) <;> simp [hwf]

@[simp] theorem execPortReservedKind_wf {s : State} (hwf : s.mem.wf = true) (ch : Nat) (hdr : DWord) :
    WfOut (execPortReservedKind ch hdr s) := by
  unfold execPortReservedKind
  simp [hwf]

@[simp] theorem execReadData_wf {s : State} (hwf : s.mem.wf = true) (ch tag : Nat) : WfOut (execReadData ch tag s) := by
  unfold execReadData
  simp [hwf]

@[simp] theorem execWriteDone_wf {s : State} (hwf : s.mem.wf = true) (ch tag : Nat) : WfOut (execWriteDone ch tag s) := by
  unfold execWriteDone
  simp [hwf]

@[simp] theorem execSpareRowCopy_wf {s : State} (hwf : s.mem.wf = true) (ch row : Nat) : WfOut (execSpareRowCopy ch row s) := by
  unfold execSpareRowCopy
  simp [hwf]

@[simp] theorem execSpareChannelTakeover_wf {s : State} (hwf : s.mem.wf = true) (ch : Nat) (readable : Bool) :
    WfOut (execSpareChannelTakeover ch readable s) := by
  unfold execSpareChannelTakeover
  (repeat' split) <;> simp [hwf]

@[simp] theorem execClusterSpareTakeover_wf {s : State} (hwf : s.mem.wf = true) (k : Nat) : WfOut (execClusterSpareTakeover k s) := by
  unfold execClusterSpareTakeover
  (repeat' split) <;> simp [hwf]

@[simp] theorem execClusterLost_wf {s : State} (hwf : s.mem.wf = true) (k : Nat) : WfOut (execClusterLost k s) := by
  unfold execClusterLost
  (repeat' split) <;> simp [hwf]

@[simp] theorem execPowerGood_wf {s : State} (hwf : s.mem.wf = true) : WfOut (execPowerGood s) :=
  wfOut_ev (wfOpt_some.2 (State.bringUp_wf (State.lostAll_wf hwf)))

@[simp] theorem execPowerThrottle_wf {s : State} (hwf : s.mem.wf = true) (part watts : Nat) : WfOut (execPowerThrottle part watts s) := by
  unfold execPowerThrottle
  dsimp only
  (repeat' split) <;> simp [hwf]

@[simp] theorem execThermalTrip_wf {s : State} (hwf : s.mem.wf = true) : WfOut (execThermalTrip s) := by
  unfold execThermalTrip
  simp [hwf]

@[simp] theorem execThermalShutdown_wf {s : State} (hwf : s.mem.wf = true) : WfOut (execThermalShutdown s) := by
  unfold execThermalShutdown
  (repeat' split) <;> simp [hwf]

@[simp] theorem execTemperatureFall_wf {s : State} (hwf : s.mem.wf = true) : WfOut (execTemperatureFall s) := by
  unfold execTemperatureFall
  (repeat' split) <;> simp [hwf]

@[simp] theorem execVfReset_wf {s : State} (hwf : s.mem.wf = true) (part : Nat) : WfOut (execVfReset part s) := by
  unfold execVfReset
  refine wfOut_ev (wfOpt_ite wfOpt_none (wfOpt_some.2 ?_))
  exact wf_foldl (fun _ _ h => State.loseSession_wf h _ _) (wf_foldl (fun _ _ h => State.endContext_wf h _ _ _) hwf)

@[simp] theorem execPfReset_wf {s : State} (hwf : s.mem.wf = true) : WfOut (execPfReset s) := by
  unfold execPfReset
  refine wfOut_ev (wfOpt_ite wfOpt_none (wfOpt_some.2 ?_))
  exact (State.setClocks_mem ..).symm ▸ State.bringUp_wf (by exact State.lostAll_wf hwf)

@[simp] theorem execGetMeasurements_wf {s : State} (hwf : s.mem.wf = true) (k : Nat) : WfOut (execGetMeasurements k s) := by
  unfold execGetMeasurements
  simp [hwf]

@[simp] theorem execHostLinkLoss_wf {s : State} (hwf : s.mem.wf = true) : WfOut (execHostLinkLoss s) := by
  unfold execHostLinkLoss
  simp [hwf]

@[simp] theorem execHostCxlRead_wf {s : State} (hwf : s.mem.wf = true) (addr size : Nat) : WfOut (execHostCxlRead addr size s) := by
  unfold execHostCxlRead
  (repeat' split) <;> simp [hwf]

@[simp] theorem execHostCxlWrite_wf {s : State} (hwf : s.mem.wf = true) (addr : Nat) (data : List Byte) :
    WfOut (execHostCxlWrite addr data s) := by
  unfold execHostCxlWrite
  (repeat' split) <;> simp [hwf]

@[simp] theorem execCxlCacheSnoop_wf {s : State} (hwf : s.mem.wf = true) (addr : Nat) (data : List Byte) :
    WfOut (execCxlCacheSnoop addr data s) :=
  wfOut_ev (wfOpt_ite wfOpt_none (wfOpt_some.2 (State.scanKeys_wf (Memory.writeBytes_wf hwf _ _) _)))

end Sys2Proof.Machine

/-! ### Memory stays canonical: the functions of `Sys2Proof/Machine/Migrate.lean` -/

namespace Sys2Proof.Machine

@[simp] theorem State.clearBitmap_wf {s : State} (hwf : s.mem.wf = true) (m : Migration) : (s.clearBitmap m).mem.wf = true :=
  Memory.zeroed_wf hwf _

theorem Memory.copyLines_wf {m : Memory} (h : m.wf = true) (old new size : Nat) (p : Nat → Bool) :
    (m.copyLines old new size p).wf = true :=
  Memory.foldl_wf _ (fun _ _ h => Memory.setFull_wf h ..) _
    (Memory.foldl_wf _ (fun _ _ h => Memory.setByte_wf h ..) _ (Memory.filled_wf (Memory.zeroed_wf h _) _))

@[simp] theorem State.copyFrame_wf {s : State} (hwf : s.mem.wf = true) (m : Migration) (p : Nat → Bool) :
    (s.copyFrame m p).mem.wf = true := by
  rw [State.copyFrame_mem]
  split
  · exact Memory.copyLines_wf hwf ..
  · exact hwf

@[simp] theorem State.setMigration_mem (s : State) (m : Migration) : (s.setMigration m).mem = s.mem := rfl

@[simp] theorem State.carry_mem (s : State) (m : Migration) : (s.carry m).mem = s.mem := rfl

@[simp] theorem execMigrationStart_wf {s : State} (hwf : s.mem.wf = true) (part old new size bitmap : Nat) (checkpoint : Bool) :
    WfOut (execMigrationStart part old new size bitmap checkpoint s) := by
  unfold execMigrationStart
  refine wfOut_ev (wfOpt_ite wfOpt_none (wfOpt_some.2 (State.copyFrame_wf (State.clearBitmap_wf ?_ _) ..)))
  exact hwf

@[simp] theorem execMigrationRound_wf {s : State} (hwf : s.mem.wf = true) (m : Nat) : WfOut (execMigrationRound m s) := by
  unfold execMigrationRound
  refine wfOut_ev ?_
  split
  · exact wfOpt_none
  split
  · exact wfOpt_ite wfOpt_none (wfOpt_some.2 (State.copyFrame_wf (State.clearBitmap_wf hwf _) ..))
  · exact wfOpt_none

@[simp] theorem execMigrationFreeze_wf {s : State} (hwf : s.mem.wf = true) (m : Nat) : WfOut (execMigrationFreeze m s) := by
  unfold execMigrationFreeze
  refine wfOut_ev ?_
  split
  · exact wfOpt_none
  split
  · refine wfOpt_ite wfOpt_none (wfOpt_some.2 ?_)
    have hcopy := fun x p => State.copyFrame_wf (State.clearBitmap_wf hwf x) x p
    split
    · exact hcopy _ _
    · simp [hcopy]
  · exact wfOpt_none

@[simp] theorem execMigrationEndForwarding_wf {s : State} (hwf : s.mem.wf = true) (m : Nat) : WfOut (execMigrationEndForwarding m s) := by
  unfold execMigrationEndForwarding
  (repeat' split) <;> simp [hwf]

end Sys2Proof.Machine

/-! ### Memory stays canonical: the functions of `Sys2Proof/Machine/Models.lean` -/

namespace Sys2Proof.Machine

@[simp] theorem State.setModel_mem (s : State) (p m : Nat) (f : ModelRec → ModelRec) : (s.setModel p m f).mem = s.mem := rfl

@[simp] theorem State.updLayer_mem (s : State) (p m l : Nat) (f : LayerSt → LayerSt) : (s.updLayer p m l f).mem = s.mem := rfl

@[simp] theorem State.readTables_mem (s : State) (p : Nat) (keys : List Nat) : (s.readTables p keys).mem = s.mem := by
  unfold State.readTables
  (repeat' split) <;> simp

@[simp] theorem State.enableModel_wf {s : State} (hwf : s.mem.wf = true) (p m : Nat) (cid : Nat) :
    (s.enableModel p m cid).mem.wf = true := by
  refine wf_foldl (fun _ _ h => State.frontWrote_wf ?_ ..) hwf
  exact Memory.setFull_wf (Memory.write_wf (Memory.write_wf h ..) ..) ..

@[simp] theorem State.markAbsent_mem (s : State) (p m l : Nat) (b : Bool) : (s.markAbsent p m l b).mem = s.mem := rfl

@[simp] theorem State.evict_wf {s : State} (hwf : s.mem.wf = true) (p m l : Nat) : (s.evict p m l).mem.wf = true := by
  unfold State.evict
  split
  · exact hwf
  · simp only [State.updLayer_mem, State.markAbsent_mem]
    exact State.frontWrote_wf (Memory.setFull_wf hwf ..) ..

@[simp] theorem State.putElem_wf {s : State} (hwf : s.mem.wf = true) (r : Region) (x : List Nat) (v : Nat) :
    (s.putElem r x v).mem.wf = true := by
  unfold State.putElem
  split
  · exact hwf
  · refine State.scanKeys_wf ?_ _
    simp only [State.frontTook_mem]
    refine State.placeWrote_wf ?_ ..
    dsimp only
    split
    · exact Loc.store_wf hwf ..
    · exact Loc.setFull_wf (Loc.store_wf hwf ..) ..

@[simp] theorem State.putRegion_wf {s : State} (hwf : s.mem.wf = true) (cid : Nat) (x : RegionEntry) (r : Region) (eb sb : List Byte) :
    (s.putRegion cid x r eb sb).mem.wf = true := by
  unfold State.putRegion
  extract_lets w scale s1 pad s2
  have hpad : ∀ t c, t.mem.wf = true → (pad t c).mem.wf = true := fun t c ht => by
    dsimp only [pad]
    split
    · simp [State.placeWrote_wf, Loc.store_wf, ht]
    · exact ht
  have hs2 : s2.mem.wf = true := wf_foldl hpad (wf_foldl (fun _ _ h => State.putElem_wf h ..) hwf)
  split
  · exact hs2
  · exact wf_foldl (fun _ _ h => State.putElem_wf h ..) hs2

@[simp] theorem State.setSwap_mem (s : State) (p : Nat) (w : Swap) : (s.setSwap p w).mem = s.mem := rfl

@[simp] theorem State.giveFrames_mem (s : State) (p : Nat) (rs : List Region) (fs : List Nat) : (s.giveFrames p rs fs).mem = s.mem := by
  induction rs generalizing s fs with
  | nil =>
    unfold State.giveFrames
    rfl
  | cons r rs ih =>
    unfold State.giveFrames
    dsimp only
    rw [ih]

@[simp] theorem State.loadLayer_wf {s0 : State} (hwf : s0.mem.wf = true) (p : Nat) (w : Swap) : (s0.loadLayer p w).mem.wf = true := by
  unfold State.loadLayer
  dsimp only
  split
  · split
    · simp [hwf]
    · split <;> simp [hwf]
    · split
      · simp [hwf]
      · simp only [State.setSwap_mem]
        refine wf_foldl (fun _ _ h => ?_) (by simpa using hwf)
        split
        · exact h
        · exact State.putRegion_wf h ..
  · simp [hwf]

@[simp] theorem State.adviseLayer_mem (s : State) (p m l : Nat) : (s.adviseLayer p m l).mem = s.mem := by
  unfold State.adviseLayer
  split
  · refine mem_foldl fun _ _ => ?_
    split
    · rfl
    · split <;> rfl
  · rfl

theorem State.makeRoom_wf {s : State} (hwf : s.mem.wf = true) (p m need n : Nat) : (s.makeRoom p m need n).mem.wf = true := by
  induction n generalizing s with
  | zero => exact hwf
  | succ n ih =>
    unfold State.makeRoom
    dsimp only
    split
    · exact hwf
    · split
      · exact hwf
      · exact ih (State.evict_wf hwf _ _ _)

@[simp] theorem State.swapStep_wf {s : State} (hwf : s.mem.wf = true) (p : Nat) (w : Swap) : WfOpt (s.swapStep p w) := by
  unfold State.swapStep
  split
  · exact wfOpt_none
  split
  · exact wfOpt_ite wfOpt_none (wfOpt_some.2 (State.loadLayer_wf hwf _ _))
  split
  · exact wfOpt_none
  extract_lets need free mine s1 s2
  split
  · simp [s2, s1, hwf]
  · exact wfOpt_ite wfOpt_none (wfOpt_some.2 (State.makeRoom_wf hwf ..))

@[simp] theorem State.disableNow_wf {s : State} (hwf : s.mem.wf = true) (p m : Nat) : (s.disableNow p m).mem.wf = true := by
  unfold State.disableNow
  extract_lets ls hs s1 upd
  split
  · simp [hwf]
  · exact wf_foldl (fun _ _ h => State.evict_wf h ..) hwf

@[simp] theorem State.swapEnded_wf {s : State} (hwf : s.mem.wf = true) (p m : Nat) : (s.swapEnded p m).mem.wf = true := by
  unfold State.swapEnded
  simp [hwf]

@[simp] theorem State.swapDone_wf {s : State} (hwf : s.mem.wf = true) (p : Nat) (w : Swap) : (s.swapDone p w).mem.wf = true := by
  unfold State.swapDone
  extract_lets old s1 key s2 ids upd s3 s4
  have hs1 : s1.mem.wf = true := State.setResidency_wf hwf ..
  have hs2 : s2.mem.wf = true := State.frontWrote_wf (Memory.setFull_wf hs1 ..) ..
  have hs3 : s3.mem.wf = true := by
    simp only [s3, State.updPart_mem, State.updLayer_mem]
    exact hs2
  have hs4 : s4.mem.wf = true := State.scanAll_wf hs3 _
  exact State.swapEnded_wf (wf_foldl (fun _ _ h => by simpa using h) hs4) _ _

@[simp] theorem State.swapFail_wf {s : State} (hwf : s.mem.wf = true) (p : Nat) (w : Swap) : (s.swapFail p w).mem.wf = true := by
  unfold State.swapFail
  extract_lets old s0 s1 key waits s2 s3
  have hs0 : s0.mem.wf = true := by
    simp only [s0, State.updPart_mem, State.markAbsent_mem]
    exact hwf
  have hs1 : s1.mem.wf = true := State.setResidency_wf hs0 ..
  have hs2 : s2.mem.wf = true := wf_foldl (fun _ _ h => (State.accessTrap_mem ..).symm ▸ State.dropAcquire_wf h _) hs1
  have hs3 : s3.mem.wf = true := by simp [s3, hs2]
  exact State.swapEnded_wf (wf_foldl (fun _ _ h => by simpa using h) hs3) _ _

@[simp] theorem State.swapInNode_wf {s : State} (hwf : s.mem.wf = true) (p n : Nat) (d : Node) (ref : DWord) :
    (s.swapInNode p n d ref).mem.wf = true := by
  unfold State.swapInNode
  dsimp only
  (repeat' split) <;> simp [hwf]

@[simp] theorem State.swapOutNode_wf {s : State} (hwf : s.mem.wf = true) (p n : Nat) (d : Node) (ref : DWord) :
    (s.swapOutNode p n d ref).mem.wf = true := by
  unfold State.swapOutNode
  (repeat' split) <;> simp [hwf]

theorem State.dispatchSwap_wf {s : State} (hwf : s.mem.wf = true) (p n : Nat) (d : Node) (e : Bool) {f : DWord → State}
    (hf : ∀ x, (f x).mem.wf = true) : WfOpt (s.dispatchSwap p n d e f) := by
  unfold State.dispatchSwap
  split
  · exact wfOpt_ite wfOpt_none (wfOpt_some.2 (State.payloadStop_wf hwf ..))
  split
  · split <;> simp [hwf]
  · exact wfOpt_ite (wfOpt_some.2 (hf _)) wfOpt_none

@[simp] theorem execModelRecordWrite_wf {s : State} (hwf : s.mem.wf = true) (part m k : Nat) (v : DWord) :
    WfOut (execModelRecordWrite part m k v s) := by
  unfold execModelRecordWrite
  dsimp only
  (repeat' split) <;> simp [hwf]

@[simp] theorem execModelEnable_wf {s : State} (hwf : s.mem.wf = true) (part m : Nat) : WfOut (execModelEnable part m s) := by
  unfold execModelEnable
  refine wfOut_evPort (vfWrite_wf hwf (wfOpt_ite wfOpt_none ?_))
  split
  · extract_lets s1
    have hs1 : s1.mem.wf = true := by
      dsimp only [s1]
      split
      · exact State.enableModel_wf hwf ..
      · exact hwf
    exact wfOpt_some.2 (wf_ite hs1 (by simpa using hs1))
  · exact wfOpt_some.2 hwf

@[simp] theorem execModelDisable_wf {s : State} (hwf : s.mem.wf = true) (part m : Nat) : WfOut (execModelDisable part m s) := by
  unfold execModelDisable
  refine wfOut_evPort (vfWrite_wf hwf (wfOpt_ite wfOpt_none (wfOpt_some.2 ?_)))
  exact wf_ite hwf (State.disableNow_wf hwf _ _)

@[simp] theorem execNodeSwapIn_wf {s : State} (hwf : s.mem.wf = true) (part node : Nat) : WfOut (execNodeSwapIn part node s) :=
  wfOut_evPort (State.dispatch_wf hwf _ _ _ fun _ => State.dispatchSwap_wf hwf _ _ _ _ fun _ => State.swapInNode_wf hwf ..)

@[simp] theorem execNodeSwapEvict_wf {s : State} (hwf : s.mem.wf = true) (part node : Nat) : WfOut (execNodeSwapEvict part node s) :=
  wfOut_evPort (State.dispatch_wf hwf _ _ _ fun _ => State.dispatchSwap_wf hwf _ _ _ _ fun _ => State.swapOutNode_wf hwf ..)

@[simp] theorem execSwapInFrames_wf {s : State} (hwf : s.mem.wf = true) (swap : Nat) : WfOut (execSwapInFrames swap s) :=
  wfOut_evPort (wfOpt_bind fun _ _ => State.swapStep_wf hwf _ _)

@[simp] theorem execEvictionFramesReturn_wf {s : State} (hwf : s.mem.wf = true) (part m layer : Nat) :
    WfOut (execEvictionFramesReturn part m layer s) := by
  unfold execEvictionFramesReturn
  (repeat' split) <;> simp [hwf]

@[simp] theorem execSwapInComplete_wf {s : State} (hwf : s.mem.wf = true) (swap : Nat) : WfOut (execSwapInComplete swap s) := by
  unfold execSwapInComplete
  (repeat' split) <;> simp [hwf]

@[simp] theorem execSwapInFailure_wf {s : State} (hwf : s.mem.wf = true) (swap : Nat) : WfOut (execSwapInFailure swap s) := by
  unfold execSwapInFailure
  (repeat' split) <;> simp [hwf]

theorem State.nodeWork_wf {s t : State} (hwf : s.mem.wf = true) {p n e r : Nat} {d : Node} (h : s.nodeWork p n = some (t, d, e, r)) :
    t.mem.wf = true := by
  unfold State.nodeWork at h
  split at h
  · cases h
  split at h
  · split at h
    · cases h
    · cases h
      exact State.dropHolds_wf hwf _
  · split at h
    · cases h
      exact hwf
    · cases h

@[simp] theorem execNodeComplete_wf {s : State} (hwf : s.mem.wf = true) (part node : Nat) : WfOut (execNodeComplete part node s) := by
  unfold execNodeComplete
  refine wfOut_evPort ?_
  split
  · exact wfOpt_none
  next s1 d e r hwork =>
    have hs1 := State.nodeWork_wf hwf hwork
    split
    · exact wfOpt_none
    split
    · rename_i h
      exact wfOpt_some.2 (State.completeNode_wf hs1 _ _ _ _ _ _ h)
    · exact wfOpt_map fun f _ => State.frontFault_wf hwf ..

end Sys2Proof.Machine

/-! ### Words, turns and steps -/

namespace Sys2Proof.Machine

/-- Each event's own lemma stands with the file that gives the event its meaning. -/
theorem exec_event_wf {i : Instr} (hi : i.isWord = false) {s : State} (hwf : s.mem.wf = true) : WfOut (exec i s) := by
  unfold exec
  cases i
  all_goals simp [Instr.isWord, Instr.head?, hwf] at hi ⊢

theorem exec_wf {s : State} (hwf : s.mem.wf = true) (i : Instr) : WfOut (exec i s) := by
  cases hi : i.isWord with
  | true => exact fun t ht => (exec_word_leavesMem hi s t ht).form hwf
  | false => exact exec_event_wf hi hwf

namespace State

theorem attempt_wf {s : State} (hwf : s.mem.wf = true) (i : Instr) : (s.attempt i).mem.wf = true := by
  unfold attempt
  split
  · rename_i h
    exact exec_wf hwf i _ h
  · exact hwf
  · exact hwf

theorem getD_wf {s : State} (hwf : s.mem.wf = true) {o : Option State} (ho : WfOpt o) : (o.getD s).mem.wf = true := by
  cases o with
  | none => exact hwf
  | some t => exact ho t rfl

theorem take_wf {s : State} (hwf : s.mem.wf = true) (t : Turn) : (s.take t).mem.wf = true := by
  cases t with
  | ev i => exact attempt_wf hwf i
  | band b => exact getD_wf hwf (wfOpt_bind fun x _ => tryIssue_wf hwf x)
  | core g c => exact getD_wf hwf (coreTurn_wf hwf g c)
  | move j =>
    unfold take
    dsimp only
    split
    · refine wf_ite ?_ hwf
      split
      · rename_i h
        exact wf_ite hwf (moveNext_wf hwf _ _ h)
      · exact hwf
    · exact hwf
  | tick => exact tick_wf hwf
  | input =>
    unfold take
    dsimp only
    split
    · exact hwf
    next i rest _ =>
      have hrest : ({ s with inputs := rest } : State).mem.wf = true := hwf
      refine wf_ite hrest ?_
      split
      · exact hwf
      · exact attempt_wf hrest i

theorem scrubTurn_mem (s : State) : s.scrubTurn.2.mem = s.mem := by
  unfold scrubTurn
  simp

theorem anyTurn_wf {s : State} (hwf : s.mem.wf = true) : s.anyTurn.mem.wf = true := by
  refine take_wf ?_ _
  rw [pick_mem, scrubTurn_mem]
  exact hwf

theorem ready1_wf {s : State} (hwf : s.mem.wf = true) : s.ready1.mem.wf = true := by
  unfold ready1
  split
  · exact screen_wf hwf
  · exact hwf

theorem badWord_wf {s : State} (hwf : s.mem.wf = true) (e : Illegal) : (s.badWord e).mem.wf = true := trapAtIssue_wf hwf _

end State

/-- Settles O6: every function a word or a turn of the part is made of keeps memory in canonical form. -/
theorem stepKeepsInvariant : Obligations.StepKeepsInvariant := by
  unfold Obligations.StepKeepsInvariant
  intro s t hwf hstep
  unfold step at hstep
  split at hstep
  · cases hstep
    exact State.anyTurn_wf hwf
  · split at hstep
    · exact exec_wf (State.ready1_wf hwf) _ t hstep
    · cases hstep
      exact State.badWord_wf (State.ready1_wf hwf) _

end Sys2Proof.Machine

/-! ## Accesses at their places (R137, R141, R143, R229) -/

namespace Sys2Proof.Machine

/-! ### A place in scratch: the home slices take no part -/

theorem Loc.any_isScratch {l : Loc} (h : l.scratch = true) : l.keys.any isScratch = true := by
  unfold Loc.scratch Loc.first at h
  cases hk : l.keys with
  | nil => simp [hk, isScratch] at h
  | cons k ks =>
    rw [hk] at h
    simpa using Or.inl h

namespace State

theorem placeWrote_scratch {l : Loc} (h : l.scratch = true) (s : State) (u : HomeUse) (data bit : Bool) :
    s.placeWrote u l data bit = s := by
  simp [placeWrote, Loc.any_isScratch h]

theorem acked_scratch {l : Loc} (h : l.scratch = true) (s : State) (a : Access) (data bit : Bool) :
    s.acked a l data bit = s.dropAccess a.id := by
  simp [acked, h]

theorem homeReturns_scratch {l : Loc} (h : l.scratch = true) (s : State) (a : Access) : s.homeReturns a l = s := by
  simp [homeReturns, h]

theorem taken_scratch {l : Loc} (h : l.scratch = true) (s : State) (a : Access) (f : Form) :
    s.taken a l f = { s with mem := if f = .consuming then l.setFull s.mem false else s.mem } := by
  unfold taken
  by_cases hf : f = .consuming
  · simp [hf, placeWrote_scratch h]
  · simp [hf]

/-- A bank performs an access without its core's counters. -/
theorem act_updCore {l : Loc} (h : l.scratch = true) (s : State) (a : Access) (k : Nat) (f : CoreSt → CoreSt) :
    (s.updCore k f).act a l = (s.act a l).updCore k f := by
  unfold act
  cases a.op
  case rmw size g x ret =>
    simp only [acked_scratch h, homeReturns_scratch h]
    cases ret <;> rfl
  case bari v =>
    dsimp only
    have hg : (s.updCore k f).groupsOf a.gang = s.groupsOf a.gang := rfl
    rw [hg]
    cases bariWord (s.groupsOf a.gang) v <;> rfl
  case barv =>
    dsimp only [updCore_mem]
    cases (barrierArrive (BitVec.ofNat 64 (l.value s.mem))).2.2 <;> rfl
  case barw w =>
    dsimp only
    have hdet : (s.updCore k f).isDet a.gang = s.isDet a.gang := rfl
    rw [hdet]
    cases s.isDet a.gang with
    | true => rfl
    | false =>
      dsimp only [updCore_mem]
      have hf : (s.updCore k f).fibre a.fibre = s.fibre a.fibre := rfl
      rw [hf]
      generalize ((s.fibre a.fibre).ctl.electAddr == a.addr && (s.fibre a.fibre).ctl.electWord == BitVec.ofNat 32 (2 ^ 31 + w)) = e
      cases e <;> rfl
  case ldt =>
    simp only [taken_scratch h]
    split <;> rfl
  all_goals simp only [acked_scratch h, homeReturns_scratch h, taken_scratch h] <;> rfl

section
variable {l : Loc} (h : l.scratch = true) {s : State} {a : Access}
include h

theorem act_load_scratch {n : Nat} {sx : Bool} {f : Form} (hop : a.op = .load n sx f) :
    s.act a l = (({ s with mem := if f = .consuming then l.setFull s.mem false else s.mem } : State).dropAccess a.id).returns a
      (loadWrites a.dst n sx (l.value s.mem)) := by
  simp only [act, hop, homeReturns_scratch h, taken_scratch h]

theorem act_store_scratch {n v : Nat} {f : Form} (hop : a.op = .store n f v) :
    s.act a l = ({ s with mem := setForm (l.store s.mem v) l f } : State).dropAccess a.id := by
  simp only [act, hop, acked_scratch h]

theorem act_rmw_scratch {n x : Nat} {f : Rmw} (hop : a.op = .rmw n f x false) :
    s.act a l = ({ s with mem := l.store s.mem (f.apply n (l.value s.mem) x) } : State).dropAccess a.id := by
  simp [act, hop, acked_scratch h]

theorem act_rmw_returning_scratch {n x : Nat} {f : Rmw} (hop : a.op = .rmw n f x true) :
    s.act a l = (({ s with mem := l.store s.mem (f.apply n (l.value s.mem) x) } : State).dropAccess a.id).returns a
      (loadWrites a.dst n false (l.value s.mem)) := by
  simp [act, hop, acked_scratch h, homeReturns_scratch h]

theorem act_tagr_scratch (hop : a.op = .tagr) :
    s.act a l = (s.dropAccess a.id).returns a [(a.dst, if l.full s.mem then 1 else 0)] := by
  simp only [act, hop, homeReturns_scratch h]

theorem act_tags_scratch {f : Bool} (hop : a.op = .tags f) :
    s.act a l = ({ s with mem := l.setFull s.mem f } : State).dropAccess a.id := by
  simp only [act, hop, acked_scratch h]

theorem act_dec_scratch (hop : a.op = .dec) :
    s.act a l = ({ s with
      mem := if l.value s.mem = 1 then l.setFull (l.store s.mem (l.value s.mem + 2 ^ 64 - 1)) true
        else l.store s.mem (l.value s.mem + 2 ^ 64 - 1) } : State).dropAccess a.id := by
  simp only [act, hop, acked_scratch h, beq_iff_eq]

end

end State

end Sys2Proof.Machine

/-! ### Nobody starts to wait when an access is performed -/

namespace Sys2Proof.Machine

namespace State

@[simp] theorem markBitmap_accesses (s : State) (keys : List Nat) : (s.markBitmap keys).accesses = s.accesses := by
  unfold markBitmap
  exact List.foldlRecOn (motive := fun t : State => t.accesses = s.accesses) _ _ rfl fun t ht m _ => by split <;> exact ht

@[simp] theorem homeWrote_accesses (s : State) (u : HomeUse) (keys words : List Nat) :
    (s.homeWrote u keys words).accesses = s.accesses := by
  unfold homeWrote
  rw [upToHomes_accesses (touchLines_homes ..), markBitmap_accesses]
  exact upToHomes_accesses (upToHomes_foldl _ (fun _ _ => writeLine_homes ..) _ _)

@[simp] theorem placeWrote_accesses (s : State) (u : HomeUse) (l : Loc) (data bit : Bool) :
    (s.placeWrote u l data bit).accesses = s.accesses := by
  unfold placeWrote
  (repeat' split) <;> simp

@[simp] theorem hostSees_accesses (s : State) (fibre : Option Nat) (p : Nat) (n : Option Nat) (keys : List Nat) :
    (s.hostSees fibre p n keys).accesses = s.accesses := by
  unfold hostSees
  split <;> rfl

@[simp] theorem storedL1_accesses (s : State) (core : Nat) (l : Loc) : (s.storedL1 core l).accesses = s.accesses := rfl

@[simp] theorem refreshL1_accesses (s : State) (core ln : Nat) : (s.refreshL1 core ln).accesses = s.accesses := by
  unfold refreshL1
  split <;> rfl

@[simp] theorem homeReturns_accesses (s : State) (a : Access) (l : Loc) : (s.homeReturns a l).accesses = s.accesses := by
  unfold homeReturns
  split <;> simp

@[simp] theorem taken_accesses (s : State) (a : Access) (l : Loc) (f : Form) : (s.taken a l f).accesses = s.accesses := by
  unfold taken
  split <;> simp

@[simp] theorem returns_accesses (s : State) (a : Access) (w : List (Nat × Word)) : (s.returns a w).accesses = s.accesses := rfl

theorem calm_acked {s : State} (h : s.calm) (a : Access) (l : Loc) (data bit : Bool) : (s.acked a l data bit).calm := by
  unfold acked
  split
  · exact calm_dropAccess h _
  · exact calm_setAccess (calm_of_accesses h fun x hx => .inl (by simpa using hx)) _ fun _ _ => nofun

/-- A performed access leaves, or stays as performed: it makes nobody wait. -/
theorem calm_act {s : State} (h : s.calm) (a : Access) (l : Loc) : (s.act a l).calm := by
  unfold act
  cases a.op
  case store | tags | stt | dec =>
    refine calm_acked ?_ _ _ _ _
    exact h
  case rmw n f x ret =>
    have hacked : (State.acked { s with mem := l.store s.mem (f.apply n (l.value s.mem) x) } a l true false).calm := by
      refine calm_acked ?_ _ _ _ _
      exact h
    refine calm_of_accesses hacked fun y hy => .inl ?_
    dsimp only at hy
    split at hy
    · simpa using hy
    · exact hy
  case bari v =>
    dsimp only
    split <;> exact calm_dropAccess h _
  case barv =>
    refine calm_of_accesses (calm_dropAccess h a.id) fun y hy => .inl ?_
    dsimp only at hy
    split at hy <;> exact hy
  case barw w =>
    refine calm_of_accesses (calm_dropAccess h a.id) fun y hy => .inl ?_
    dsimp only at hy
    (repeat' split at hy) <;> exact hy
  case layacq => exact calm_dropAccess h _
  case load | tagr | ldt => exact calm_of_accesses (calm_dropAccess h a.id) fun y hy => .inl (by simpa using hy)
  all_goals exact h

end State

end Sys2Proof.Machine

/-! ### An access that arrives, and a scan of those that wait -/

namespace Sys2Proof.Machine

namespace State

theorem arrive_of_ready {s : State} {a : Access} {l : Loc} {t : Nat} (ht : a.arrived.getD s.time = t) (hloss : s.lossCause a l = none)
    (hbudget : s.inBudget { a with arrived := some t } = true) (hready : a.op.ready s.mem l = true) :
    let b := { a with arrived := some t }
    s.arrive a l = if s.overwrites b then (s.act b l).healWords l else s.act b l := by
  have hloss' : s.lossCause { a with arrived := some t } l = none := hloss
  simp only [arrive, ht, hloss', hbudget, hready]
  rfl

theorem arrive_of_not_ready {s : State} {a : Access} {l : Loc} {t : Nat} (ht : a.arrived.getD s.time = t) (hloss : s.lossCause a l = none)
    (hbudget : s.inBudget { a with arrived := some t } = true) (hready : a.op.ready s.mem l = false) :
    s.arrive a l = s.wait { a with arrived := some t } l := by
  have hloss' : s.lossCause { a with arrived := some t } l = none := hloss
  simp only [arrive, ht, hloss', hbudget, hready]
  rfl

theorem wait_scratch {l : Loc} (h : l.scratch = true) (s : State) (a : Access) :
    s.wait a l = s.bump.setAccess { a with loc := some l, phase := .waiting s.nextId false } := by
  simp [wait, h]

theorem lossCause_scratch {s : State} (h : s.sram = []) (a : Access) {l : Loc} (hl : l.scratch = true) : s.lossCause a l = none := by
  simp [lossCause, hl, h]

theorem present_scratch {l : Loc} (h : l.scratch = true) (s : State) (a : Access) : s.present a l = s.arrive a l := by
  simp [present, onView, h]

theorem mem_insertWait {s : State} {a x : Access} {l : List Access} : x ∈ s.insertWait a l ↔ x = a ∨ x ∈ l := by
  induction l with
  | nil => simp [insertWait]
  | cons b t ih =>
    unfold insertWait
    split
    · simp
    · simp only [List.mem_cons, ih]
      tauto

theorem mem_waitersOf {s : State} {l : Loc} {w : Access} (h : w ∈ s.waitersOf l) :
    w ∈ s.accesses ∧ ∃ st p, w.phase = .waiting st p := by
  unfold waitersOf at h
  have hfold : ∀ xs : List Access, w ∈ xs.foldr (fun a acc => s.insertWait a acc) [] → w ∈ xs := by
    intro xs
    induction xs with
    | nil => exact id
    | cons x xs ih =>
      intro hw
      rcases mem_insertWait.1 hw with rfl | hw
      · exact List.mem_cons_self
      · exact List.mem_cons_of_mem _ (ih hw)
  obtain ⟨hmem, hwait⟩ := List.mem_filter.1 (hfold _ h)
  refine ⟨hmem, ?_⟩
  cases hp : w.phase <;> simp_all

/-- A scan changes nothing while no waiting access may be performed. -/
theorem scanAll_of_not_ready {s : State} {l : Loc} (h : ∀ w ∈ s.accesses, (∃ st p, w.phase = .waiting st p) →
      ∀ a, s.access w.id = some a → ∀ x, a.loc = some x → s.lossCause a x = none ∧ a.op.ready (s.seenBy a x) x = false) :
    s.scanAll l = s := by
  have hpass : s.scanPass false l = (s, l, false) := by
    unfold scanPass
    refine List.foldlRecOn (motive := fun acc : State × Loc × Bool => acc = (s, l, false)) _ _ rfl fun acc hacc w hw => ?_
    subst hacc
    obtain ⟨hmem, hwait⟩ := mem_waitersOf hw
    dsimp only
    split
    · rfl
    next a ha =>
      split
      · rfl
      next x hx =>
        obtain ⟨hloss, hready⟩ := h w hmem hwait a ha x hx
        simp [hloss, hready]
  simp [scanAll, scanGo, hpass]

end State

end Sys2Proof.Machine

/-! ### A lone request at a scratch bank (R137, R143) -/

namespace Sys2Proof.Machine

/-- Two states with the same memory, fibres, results under way and accesses. -/
def SameWork (t u : State) : Prop := t.mem = u.mem ∧ t.fibres = u.fibres ∧ t.results = u.results ∧ t.accesses = u.accesses

theorem sameWork_refl (s : State) : SameWork s s := ⟨rfl, rfl, rfl, rfl⟩

theorem SameWork.trans {s t u : State} (h1 : SameWork s t) (h2 : SameWork t u) : SameWork s u := by
  obtain ⟨hm, hf, hr, ha⟩ := h1
  obtain ⟨hm', hf', hr', ha'⟩ := h2
  exact ⟨hm.trans hm', hf.trans hf', hr.trans hr', ha.trans ha'⟩

theorem UpToHomes.sameWork {s t : State} (h : UpToHomes s t) : SameWork t s :=
  ⟨upToHomes_mem h, upToHomes_fibres h, by rw [h], upToHomes_accesses h⟩

namespace State

theorem calm_of_sameWork {t u : State} (h : SameWork t u) (hu : u.calm) : t.calm := by
  obtain ⟨-, -, -, ha⟩ := h
  exact calm_of_accesses hu fun x hx => .inl (ha ▸ hx)

/-- Performing an access heals words of SRAM beside what `act` says. -/
theorem arrive_sameWork {s : State} {a : Access} {l : Loc} {t : Nat} (ht : a.arrived.getD s.time = t) (hloss : s.lossCause a l = none)
    (hbudget : s.inBudget { a with arrived := some t } = true) (hready : a.op.ready s.mem l = true) :
    SameWork (s.arrive a l) (s.act { a with arrived := some t } l) := by
  rw [arrive_of_ready ht hloss hbudget hready]
  split <;> exact ⟨rfl, rfl, rfl, rfl⟩

section
variable {s : State} {a : Access} {g : Gang} {c : Context}

/-- A request alone at its row is presented to the bank, in the bank's turn. -/
theorem bankAccess_alone {key n : Nat} (hg : s.gang a.gang = some g) (hc : s.context g.ctx = some c) (hready : s.ready a = true)
    (halone : s.groupOf a = [a]) (hin : a.inScratch = true) (hcpyq : a.op ≠ .cpyq) (hlnkq : a.op ≠ .lnkq)
    (hkey : s.scratchOf (s.fibre a.fibre) a.addr = .ok (some key))
    (hturn : s.bankTurn ((key - 2 ^ 52) / 2 ^ 19) (a.core % 4) = true) (hsize : a.op.size = some n) :
    ∃ f : CoreSt → CoreSt, s.bankAccess a = some ((((s.updCore a.core f).present a (.ofBytes key n 0)).tookBank
      ((key - 2 ^ 52) / 2 ^ 19) (a.core % 4)).scanAll (.ofBytes key n 0)) := by
  have hfilter : [a].filter s.ready = [a] := by simp [hready]
  have hcount : ∀ n, ∃ f, (if (a.id == a.batch) = true then s.count a.core 0x15 n else s) = s.updCore a.core f := by
    intro n
    split
    · exact ⟨_, rfl⟩
    · exact ⟨id, by simp [updCore, List.modify_id]⟩
  unfold bankAccess
  simp only [hg, hc, hready, hkey, hin, hsize, Bool.not_true, Bool.false_eq_true, if_false, beq_eq_false_iff_ne.2 hcpyq,
    beq_eq_false_iff_ne.2 hlnkq, Bool.or_false, Option.getD_some, halone, hfilter]
  split
  all_goals
    simp only [List.all_cons, List.all_nil, hready, Bool.and_true, Bool.not_true, List.head?_cons, Option.map_some,
      bne_self_eq_false, Bool.false_or, hturn, Bool.false_eq_true, if_false, List.foldl_cons, List.foldl_nil, hkey, hsize,
      Option.getD_some]
    exact (hcount _).imp fun f hf => by rw [hf]

theorem exec_bankAccess_of_some {t : State} (ha : s.access a.id = some a) (hp : s.portsServe (.bankAccess a.id))
    (h : s.bankAccess a = some t) : exec (.bankAccess a.id) s = .next t :=
  exec_of_portsServe (name := "BANK_ACCESS") (by simp only [exec, execBankAccess, ha, Option.bind_some, h]) hp

theorem exec_homeRequest_of_some {t : State} (ha : s.access a.id = some a) (hl1 : s.hitsL1 a = false)
    (hp : s.portsServe (.homeRequest a.id)) (h : s.homeAccess a = some t) : exec (.homeRequest a.id) s = .next t :=
  exec_of_portsServe (name := "HOME_REQUEST") (by simp [exec, execHomeRequest, ha, hl1, h]) hp

theorem scanAll_sameWork {t u : State} (h : SameWork t u) (hu : u.calm) (l : Loc) : SameWork (t.scanAll l) u := by
  rw [scanAll_calm (calm_of_sameWork h hu)]
  exact h

/-- The bank performs a lone request whose condition holds. -/
theorem presented_ready {l : Loc} (hl : l.scratch = true) (hcalm : s.calm) (hsram : s.sram = []) (harr : a.arrived = none)
    (hbudget : s.inBudget { a with arrived := some s.time } = true) (hready : a.op.ready s.mem l = true)
    (f : CoreSt → CoreSt) (bank k : Nat) :
    SameWork ((((s.updCore a.core f).present a l).tookBank bank k).scanAll l) (s.act { a with arrived := some s.time } l) := by
  have harrive := arrive_sameWork (s := s.updCore a.core f) (t := s.time) (by rw [harr]; rfl) (lossCause_scratch hsram a hl) hbudget hready
  rw [act_updCore hl] at harrive
  rw [present_scratch hl]
  refine scanAll_sameWork ?_ (calm_act hcalm _ _) l
  exact harrive

/-- After a lone access becomes a waiter, each entry found under a waiter's number is that waiter. -/
theorem access_setAccess_waiting (hcalm : s.calm) {b w x : Access} (hw : w ∈ (s.setAccess b).accesses)
    (hwait : ∃ st p, w.phase = .waiting st p) (hx : (s.setAccess b).access w.id = some x) : x = b := by
  have hset : ∀ y ∈ (s.setAccess b).accesses, y = b ∨ (y ∈ s.accesses ∧ y.id ≠ b.id) := by
    intro y hy
    obtain ⟨z, hz, rfl⟩ := List.mem_map.1 hy
    by_cases hid : z.id = b.id
    · simp [hid]
    · simp [hid, hz]
  obtain ⟨st, p, hphase⟩ := hwait
  obtain rfl | ⟨hmem, -⟩ := hset w hw
  · have hid := List.find?_some hx
    obtain rfl | ⟨-, hne⟩ := hset x (List.mem_of_find?_eq_some hx)
    · rfl
    · simp_all
  · exact absurd hphase (hcalm w hmem st p)

/-- A lone request whose condition does not hold gets a wait entry. -/
theorem presented_waits {l : Loc} (hl : l.scratch = true) (hcalm : s.calm) (hsram : s.sram = []) (harr : a.arrived = none)
    (hbudget : s.inBudget { a with arrived := some s.time } = true) (hready : a.op.ready s.mem l = false)
    (f : CoreSt → CoreSt) (bank k : Nat) :
    SameWork ((((s.updCore a.core f).present a l).tookBank bank k).scanAll l)
      (s.setAccess { a with arrived := some s.time, loc := some l, phase := .waiting s.nextId false }) := by
  have harrive : (s.updCore a.core f).arrive a l = (s.updCore a.core f).bump.setAccess
      { a with arrived := some s.time, loc := some l, phase := .waiting s.nextId false } := by
    rw [arrive_of_not_ready (s := s.updCore a.core f) (t := s.time) (by rw [harr]; rfl) (lossCause_scratch hsram a hl) hbudget hready,
      wait_scratch hl]
    rfl
  rw [present_scratch hl, harrive, scanAll_of_not_ready]
  · exact ⟨rfl, rfl, rfl, rfl⟩
  intro w hw hwait x hx y hy
  obtain rfl := access_setAccess_waiting hcalm hw hwait hx
  cases hy
  refine ⟨lossCause_scratch hsram _ hl, ?_⟩
  simpa [seenBy, onView, hl] using hready

theorem bankAccess_past_scratch {cause : Nat} (hg : s.gang a.gang = some g) (hc : s.context g.ctx = some c) (hready : s.ready a = true)
    (hin : a.inScratch = true) (hcpyq : a.op ≠ .cpyq) (hlnkq : a.op ≠ .lnkq)
    (hkey : s.scratchOf (s.fibre a.fibre) a.addr = .error cause) :
    s.bankAccess a = some (s.accessTrap a 0x11 cause a.addr) := by
  simp [bankAccess, hg, hc, hready, hin, hcpyq, hlnkq, hkey]

end

end State

end Sys2Proof.Machine

/-! ### A lone request at its home slice (R229, R235) -/

namespace Sys2Proof.Machine
theorem AOp.tensor_of_size {o : AOp} (h : o.size.isSome = true) : o.tensor = none := by
  cases o
  case ldt | stt => cases h
  all_goals rfl

namespace State

section
variable {s : State} {a : Access} {g : Gang} {c : Context}

theorem homeAccess_of_size (hg : s.gang a.gang = some g) (hc : s.context g.ctx = some c) (hready : s.ready a = true)
    (hout : a.inScratch = false) (hsize : a.op.size.isSome = true) : s.homeAccess a = s.memAccess a c := by
  unfold homeAccess
  rw [hg]
  dsimp only
  rw [hc]
  dsimp only
  rw [if_neg (by simp [hready, hout])]
  revert hsize
  cases a.op <;> intro hsize
  case load | store | rmw | tagr | tags | dec | bari | barv | barw => rfl
  all_goals cases hsize

theorem notify_of_size (hsize : a.op.size.isSome = true) (cid : Nat) : s.notify cid a = s := by
  simp [notify, AOp.tensor_of_size hsize]

theorem notifyAhead_of_size (hsize : a.op.size.isSome = true) (cid : Nat) : s.notifyAhead cid a = s := by
  have hstream : inStream a = false := by
    unfold inStream
    revert hsize
    cases a.op <;> intro hsize
    case load | store | rmw | tagr | tags | dec | bari | barv | barw => rfl
    all_goals cases hsize
  simp [notifyAhead, streamAhead, hstream]

theorem logOf_of_empty (hlog : s.sideLog = []) (own : Bool) : s.logOf a own = false := by
  unfold logOf
  split
  · rfl
  · simp [hlog]

theorem cleanL2_of_no_sram (hsram : s.sram = []) (keys : List Nat) : s.cleanL2 keys = s := by
  simp [cleanL2, hsram]

theorem staged_of_not_det (hg : s.gang a.gang = some g) (hdet : g.det = false) : s.staged a = false := by
  simp [staged, isDet, hg, hdet]

theorem memAccess_trap {cls cause : Nat} {x : DWord} (hready : s.ready a = true) (halone : s.groupOf a = [a])
    (hsize : a.op.size.isSome = true) (hlog : s.sideLog = []) (hfind : s.find c a = .trap cls cause x) :
    s.memAccess a c = some (s.accessTrap a cls cause x) := by
  simp [memAccess, halone, notify_of_size hsize, notifyAhead_of_size hsize, logOf_of_empty hlog, hready, hfind]

theorem installL1_sameWork (s : State) (core ln expiry : Nat) : SameWork (s.installL1 core ln expiry) s := ⟨rfl, rfl, rfl, rfl⟩

theorem refreshL1_sameWork (s : State) (core ln : Nat) : SameWork (s.refreshL1 core ln) s := by
  unfold refreshL1
  split <;> exact ⟨rfl, rfl, rfl, rfl⟩

theorem grantLease_sameWork (s : State) (core p ln : Nat) : SameWork (s.grantLease core p ln) s := by
  unfold grantLease
  dsimp only
  split
  · exact (refreshL1_sameWork ..).trans ⟨rfl, rfl, rfl, rfl⟩
  · exact ⟨rfl, rfl, rfl, rfl⟩

theorem l1After_sameWork (s : State) (a : Access) (l : Loc) : SameWork (s.l1After a l) s := by
  unfold l1After
  split
  · split
    · exact sameWork_refl s
    · dsimp only
      split
      · exact (grantLease_sameWork ..).trans ⟨rfl, rfl, rfl, rfl⟩
      · exact ⟨rfl, rfl, rfl, rfl⟩
  · exact sameWork_refl s

theorem cacheXlat_sameWork (s : State) (c : Context) (va : Nat) (e : TlbEntry) : SameWork (s.cacheXlat c va e) s := by
  unfold cacheXlat
  split <;> exact ⟨rfl, rfl, rfl, rfl⟩

theorem cacheVa_sameWork (s : State) (c : Context) (va : Nat) (n : Need) : SameWork (s.cacheVa c va n) s := by
  unfold cacheVa
  split
  · exact (cacheXlat_sameWork ..).trans (homeReads_homes ..).sameWork
  · exact sameWork_refl s

theorem keepVas_sameWork (s : State) (cid : Nat) (n : Need) (vas : List Nat) : SameWork (s.keepVas cid n vas) s := by
  unfold keepVas
  split
  · exact sameWork_refl s
  · refine (redraw_homes ..).sameWork.trans ?_
    exact List.foldlRecOn (motive := fun t => SameWork t s) _ _ (sameWork_refl s) fun t ht x _ => (cacheVa_sameWork ..).trans ht

theorem keepAccess_sameWork (hsize : a.op.size.isSome = true) : SameWork (s.keepAccess c a) s := by
  unfold keepAccess
  rw [AOp.tensor_of_size hsize]
  exact keepVas_sameWork ..

theorem lineFirst_of_present {l : Loc} (hg : s.gang a.gang = some g) (hdet : g.det = false) (helem : l.elem = none)
    (hmiss : a.op.needsData = true → s.missing l.keys = none) : s.lineFirst a l = none := by
  have hkeys : placeKeys l = l.keys := by simp [placeKeys, helem]
  unfold lineFirst
  split
  · rename_i h
    rw [hkeys, hmiss (by simpa [helem, staged_of_not_det hg hdet] using h)]
    rfl
  · rfl

theorem memAccess_place {l : Loc} {e : Option TlbEntry} (hg : s.gang a.gang = some g) (hready : s.ready a = true)
    (halone : s.groupOf a = [a]) (hsize : a.op.size.isSome = true) (hlog : s.sideLog = []) (hsram : s.sram = [])
    (hdet : g.det = false) (hfind : s.find c a = .place l e) (helem : l.elem = none)
    (hmiss : a.op.needsData = true → s.missing l.keys = none) :
    s.memAccess a c = (s.atHome { a with noticed := true } l).map (fun t => (t.scanAll l).keepAccess c a) := by
  simp [memAccess, halone, notify_of_size hsize, notifyAhead_of_size hsize, logOf_of_empty hlog, hready, hfind, cleanL2_of_no_sram hsram,
    lineFirst_of_present hg hdet helem hmiss, atHomes]

/-- A home slice performs a lone request whose condition holds. -/
theorem atHome_ready {l : Loc} (hg : s.gang a.gang = some g) (hdet : g.det = false) 
    (hturn : s.coreTurnAt g.part a.core (s.sliceOf g.part l) = true) (harr : a.arrived = none)
    (hloss : s.lossCause a l = none) (hbudget : s.inBudget { a with arrived := some s.time } = true) (hready : a.op.ready s.mem l = true) :
    ∃ t, s.atHome a l = some t ∧ SameWork t (s.act { a with arrived := some s.time } l) := by
  have hpart : s.partOf a.gang = g.part := by simp [partOf, hg]
  have hpresent : SameWork (s.present a l) (s.act { a with arrived := some s.time } l) := by
    have hview : s.onView a l = false := by simp [onView, staged_of_not_det hg hdet]
    unfold present
    rw [hview]
    exact arrive_sameWork (t := s.time) (by rw [harr]; rfl) hloss hbudget hready
  have hat : s.atHome a l = some (((if s.willAct a l then (s.present a l).l1After a l else s.present a l).touchLines
      (s.useOf a l) (placeKeys l)).tookTurn (s.sliceOf g.part l) a.core) := by
    unfold atHome
    rw [hpart]
    exact if_neg (by simp [hturn])
  refine ⟨_, hat, SameWork.trans ⟨rfl, rfl, rfl, rfl⟩ ((touchLines_homes ..).sameWork.trans ?_)⟩
  split
  · exact (l1After_sameWork ..).trans hpresent
  · exact hpresent

end

end State

/-- Settles O44: the six kinds of access by their own equations in scratch; a lone request at its bank or its home by what it
presents there, with nobody left to scan. -/
theorem placedAccessesComplete : Obligations.PlacedAccessesComplete := by
  unfold Obligations.PlacedAccessesComplete
  refine ⟨fun s a l _ h => ?acts, fun s a g c ha hg hc hready harr hcalm halone hsram hbank hhome => ⟨?bank, ?past, ?home⟩⟩
  case acts =>
    refine ⟨fun n sx f hop => State.act_load_scratch h hop, fun n f v hop => ?_, fun n f x hop => State.act_rmw_scratch h hop,
      fun n f x hop => State.act_rmw_returning_scratch h hop, fun hop => State.act_tagr_scratch h hop,
      fun f hop => State.act_tags_scratch h hop, fun hop => State.act_dec_scratch h hop⟩
    rw [State.act_store_scratch h hop]
    cases f <;> rfl
  case bank =>
    intro key n hin hcpyq hlnkq hkey hturn hsize hbudget l hl
    obtain ⟨f, hsome⟩ := State.bankAccess_alone hg hc hready halone hin hcpyq hlnkq hkey hturn hsize
    have hexec := State.exec_bankAccess_of_some ha hbank hsome
    exact ⟨fun hcond => ⟨_, hexec, State.presented_ready hl hcalm hsram harr hbudget hcond ..⟩,
      fun hcond => ⟨_, hexec, State.presented_waits hl hcalm hsram harr hbudget hcond ..⟩⟩
  case past =>
    intro cause hin hcpyq hlnkq hkey
    exact State.exec_bankAccess_of_some ha hbank (State.bankAccess_past_scratch hg hc hready hin hcpyq hlnkq hkey)
  case home =>
    intro hdet hsize hout hlog hl1
    have hmem := State.homeAccess_of_size hg hc hready hout hsize
    refine ⟨fun cls cause x hfind => ?_, fun l e hfind helem _ hturn hmiss hloss hbudget hcond => ?_⟩
    · exact State.exec_homeRequest_of_some ha hl1 hhome (hmem.trans (State.memAccess_trap hready halone hsize hlog hfind))
    · obtain ⟨t, hat, hsame⟩ := State.atHome_ready (a := { a with noticed := true }) hg hdet hturn harr hloss hbudget hcond
      have hplace := State.memAccess_place hg hready halone hsize hlog hsram hdet hfind helem hmiss
      rw [hat] at hplace
      refine ⟨_, State.exec_homeRequest_of_some ha hl1 hhome (hmem.trans hplace), ?_⟩
      exact (State.keepAccess_sameWork hsize).trans (State.scanAll_sameWork hsame (State.calm_act hcalm _ _) l)

end Sys2Proof.Machine

/-! ## Scratch size, deques, rounds and carillon release (R134, R168, R169, R314, R318) -/

namespace Sys2Proof.Machine

namespace State

theorem core_updCore_same (s : State) {k : Nat} (f : CoreSt → CoreSt) (h : k < s.cores.length) :
    (s.updCore k f).core k = f (s.core k) := by
  simp [core, List.getD_eq_getElem?_getD, h]

theorem core_updCore_ne (s : State) {j k : Nat} (f : CoreSt → CoreSt) (h : j ≠ k) : (s.updCore k f).core j = s.core j := by
  simp [core, List.getD_eq_getElem?_getD, Ne.symm h]

end State

theorem halves_append (v : DWord) : v.extractLsb' 32 32 ++ v.extractLsb' 0 32 = v := by
  simpa using BitVec.extractLsb'_append_extractLsb'_eq_extractLsb' (x := v) (start₁ := 0) (start₂ := 32) (len₁ := 32) (len₂ := 32)

theorem Ctl.goto_pc (c : Ctl) (base target : DWord) : (c.goto base target).pc = target := by
  simp [Ctl.goto, Ctl.pc]

/-- The two pairs of a started fibre read as written. -/
theorem Fibre.pairN_setRegs_two_pairs (f : Fibre) (h : 4 ≤ f.regs.length) (v w : DWord) :
    (f.setRegs (pairWrites 0 v ++ pairWrites 1 w)).pairN 0 = v ∧ (f.setRegs (pairWrites 0 v ++ pairWrites 1 w)).pairN 1 = w := by
  have h0 : 0 < f.regs.length := by omega
  have h1 : 1 < f.regs.length := by omega
  have h2 : 2 < f.regs.length := by omega
  have h3 : 3 < f.regs.length := by omega
  constructor <;>
    simp [Fibre.setRegs, pairWrites, Fibre.pairN, Fibre.regN_setRegN, h0, h1, h2, h3, halves_append]

@[simp] theorem Fibre.setRegs_live (f : Fibre) (ws : List (Nat × Word)) : (f.setRegs ws).live = f.live := by
  induction ws generalizing f with
  | nil => rfl
  | cons w ws ih => exact ih _

@[simp] theorem Fibre.setRegs_ctl (f : Fibre) (ws : List (Nat × Word)) : (f.setRegs ws).ctl = f.ctl := by
  induction ws generalizing f with
  | nil => rfl
  | cons w ws ih => exact ih _

namespace State

/-- Slot k holds a fibre started on the entry e. -/
def StartedOn (t : State) (k : Nat) (e : DequeEntry) : Prop :=
  (t.fibre k).live = true ∧ (t.fibre k).pairN 0 = e.arg ∧ (t.fibre k).pairN 1 = e.join ∧ (t.fibre k).ctl.pc = e.entry

theorem fibre_of_fibres {s t : State} (h : t.fibres = s.fibres) (k : Nat) : t.fibre k = s.fibre k := by
  simp [fibre, h]

theorem takeEntry_fibre_ne (s : State) (g : Gang) {j k : Nat} (e : DequeEntry) (h : j ≠ k) : (s.takeEntry g k e).fibre j = s.fibre j := by
  unfold takeEntry
  rw [fibre_of_fibres (newBand_fibres ..)]
  rcases Nat.lt_or_ge j s.fibres.length with hj | hj
  · exact (fibre_updFibres _ _ _ _ hj).trans (if_neg (by simpa using h))
  · exact fibre_updFibres_beyond _ _ _ _ hj

/-- The fibre that an entry of a deque starts in the slot of an ended one, before its pairs are written. -/
def emptied (g : Gang) (e : DequeEntry) (born : Nat) (f : Fibre) : Fibre :=
  { f with live := true, used := true, regs := List.replicate g.regs 0, preds := 0
           ctl := (Ctl.created e.entry 0 f.ctl.wbase born).goto g.codeBase e.entry }

theorem takeEntry_fibre_same {s : State} (g : Gang) {k : Nat} (hk : k < s.fibres.length) (e : DequeEntry) :
    (s.takeEntry g k e).fibre k = (emptied g e s.nextId (s.fibre k)).setRegs (pairWrites 0 e.arg ++ pairWrites 1 e.join) := by
  unfold takeEntry
  rw [fibre_of_fibres (newBand_fibres ..)]
  exact (fibre_updFibres _ _ _ _ hk).trans (if_pos List.mem_cons_self)

theorem takeEntry_startedOn {s : State} {g : Gang} {k : Nat} (hk : k < s.fibres.length) (hregs : 4 ≤ g.regs) (e : DequeEntry) :
    (s.takeEntry g k e).StartedOn k e := by
  have hlength : 4 ≤ (emptied g e s.nextId (s.fibre k)).regs.length := by simpa [emptied] using hregs
  obtain ⟨harg, hjoin⟩ := Fibre.pairN_setRegs_two_pairs _ hlength e.arg e.join
  rw [StartedOn, takeEntry_fibre_same g hk]
  exact ⟨Fibre.setRegs_live .., harg, hjoin, by rw [Fibre.setRegs_ctl]; exact Ctl.goto_pc ..⟩

@[simp] theorem takeEntry_cores (s : State) (g : Gang) (k : Nat) (e : DequeEntry) : (s.takeEntry g k e).cores = s.cores := rfl

theorem freeSlot_lt {s : State} {g : Gang} {wg k : Nat} (h : s.freeSlot g wg = some k) : k < s.fibres.length := by
  have hmem := List.mem_of_find?_eq_some h
  exact List.mem_range.1 (List.mem_filter.1 hmem).1

end State

end Sys2Proof.Machine

/-! ### The events of a core and the round -/

namespace Sys2Proof.Machine

theorem CoreSt.count_stole (c : CoreSt) (e n : Nat) : (c.count e n).stole = c.stole := by
  unfold CoreSt.count
  refine List.foldlRecOn (motive := fun x : CoreSt => x.stole = c.stole) _ _ rfl fun x hx i _ => ?_
  dsimp only
  split <;> exact hx

namespace State

theorem popEntry_entry (c : CoreSt) (tail : Bool) : (popEntry c tail).1 = if tail then c.entry 0 else c.entry (c.dqCount - 1) := by
  cases tail <;> rfl

theorem popEntry_dqCount (c : CoreSt) (tail : Bool) : (popEntry c tail).2.dqCount = c.dqCount - 1 := by
  cases tail <;> rfl

section
variable {s : State} {core : Nat} {g : Gang} {wg k : Nat}

theorem exec_carveApply (hcore : core < 192) (hpend : (s.core core).pendCarve = some k)
    (hfit : ∀ x ∈ onCore ((s.occupying (s.nextId, 0)).filter (fun y => y.phase != .saved)) core,
      x.1.scratch = 0 ∨ x.1.scratchBase.getD x.2 0 + x.1.scratch ≤ 65536 * k) :
    exec (.carveApply core) s = .next { s.updCore core (fun c => { c with carve := k, pendCarve := none }) with
      l1 := s.l1.filter (fun x => x.core != core || decide (x.way < 8 - k)) } := by
  have hall : (onCore ((s.occupying (s.nextId, 0)).filter (fun y => y.phase != .saved)) core).all (fun x =>
      decide (x.1.scratch = 0) || decide (x.1.scratchBase.getD x.2 0 + x.1.scratch ≤ 65536 * k)) = true :=
    List.all_eq_true.2 fun x hx => by simpa using hfit x hx
  simp only [exec, execCarveApply, hpend, hall, Config.cores, hcore]
  rfl

theorem exec_dequeTake (hg : s.forkGang core = some (g, wg)) (hcount : (s.core core).dqCount ≠ 0) (hk : s.freeSlot g wg = some k) :
    exec (.dequeTake core) s = .next ((s.updCore core (fun _ => (popEntry (s.core core) g.det).2)).takeEntry g k
      (popEntry (s.core core) g.det).1) := by
  simp [exec, execDequeTake, hg, hcount, hk, ev]

theorem exec_dequeSteal {c : Nat} (hg : s.forkGang core = some (g, wg)) (hdet : g.det = false) (hcount : (s.core core).dqCount = 0)
    (hk : s.freeSlot g wg = some k) (hc : let others := ((List.range g.size).map g.core).filter (fun x => x != core)
      (others.filter (fun x => decide ((s.core core).stole < x)) ++ others.filter (fun x => decide (x ≤ (s.core core).stole))).find?
        (fun x => (s.core x).dqCount != 0) = some c) :
    exec (.dequeSteal core) s = .next ((((s.updCore c (fun _ => (popEntry (s.core c) true).2)).updCore core
      (fun x => { x with stole := c })).count core 0x18 1).takeEntry g k ((s.core c).entry 0)) := by
  dsimp only at hc
  simp only [exec, execDequeSteal, hg, hdet, hcount, hk, hc]
  rfl

theorem exec_detRound (hg : s.gang g.id = some g) (hdet : g.det = true) (hphase : g.phase = .resident) (hended : s.roundEnded g = true) :
    exec (.detRound g.id) s = .next (s.setGang { g with round := g.round + 1, turns := [] }) := by
  simp [exec, execDetRound, hg, hdet, hphase, hended, ev]

end

end State

end Sys2Proof.Machine

/-! ### Staged stores of a finished gang (R318) -/

namespace Sys2Proof.Machine

namespace State

theorem placeWrote_homes {s : State} (h : s.migrations = []) (u : HomeUse) (l : Loc) (data bit : Bool) :
    UpToHomes s (s.placeWrote u l data bit) := by
  unfold placeWrote
  split
  · exact upToHomes_refl s
  · dsimp only
    split <;> exact homeWrote_homes h ..

/-- Where it stands and what it does, for a staged access to bytes: the state does not matter. -/
theorem staged_bytes {s : State} {ctx : Nat} {e : Staged} {l : Loc} (helem : s.stagedElem ctx e = none) (hloc : s.stagedLoc ctx e = some l)
    (t : State) : t.stagedLoc ctx e = some l ∧ ∀ m, t.applyStaged ctx m e = s.applyStaged ctx m e := by
  unfold stagedLoc at *
  rw [helem] at hloc
  unfold applyStaged
  cases hop : e.op
  case store | rmw | tags | dec | tagr =>
    rw [hop] at hloc
    exact ⟨hloc, fun m => rfl⟩
  case load n sx f =>
    rw [hop] at hloc
    cases f <;> exact ⟨hloc, fun m => rfl⟩
  all_goals
    rw [hop] at hloc
    cases hloc

/-- Nothing differs of what fibres, gangs, migrations and accesses are. -/
def KeepsGangs (s t : State) : Prop :=
  t.fibres = s.fibres ∧ t.gangs = s.gangs ∧ t.migrations = s.migrations ∧ t.accesses = s.accesses

theorem keepsGangs_refl (s : State) : KeepsGangs s s := ⟨rfl, rfl, rfl, rfl⟩

theorem KeepsGangs.trans {s t u : State} (h1 : KeepsGangs s t) (h2 : KeepsGangs t u) : KeepsGangs s u := by
  obtain ⟨hf, hg, hm, ha⟩ := h1
  obtain ⟨hf', hg', hm', ha'⟩ := h2
  exact ⟨hf'.trans hf, hg'.trans hg, hm'.trans hm, ha'.trans ha⟩

theorem keepsGangs_of_homes {s t : State} (h : UpToHomes s t) : KeepsGangs s t :=
  ⟨upToHomes_fibres h, by rw [h], upToHomes_migrations h, upToHomes_accesses h⟩

theorem hostSees_keepsGangs (s : State) (fibre : Option Nat) (p : Nat) (n : Option Nat) (keys : List Nat) :
    KeepsGangs s (s.hostSees fibre p n keys) := by
  unfold hostSees
  split
  · exact ⟨rfl, rfl, rfl, rfl⟩
  · exact keepsGangs_refl s

theorem joinLaunch_keepsGangs (s : State) (gid t : Nat) : KeepsGangs s (s.joinLaunch gid t) := by
  unfold joinLaunch
  split
  · exact keepsGangs_refl s
  · split
    · exact keepsGangs_refl s
    · exact ⟨rfl, rfl, rfl, rfl⟩

theorem scanReleased_calm {s : State} (h : s.calm) (l : Loc) : s.scanReleased l = s := by
  simp [scanReleased, scanGo, scanPass, waitersOf_calm h]

theorem foldl_scanReleased_calm {s : State} (h : s.calm) (ls : List Loc) : ls.foldl (fun s x => s.scanReleased x) s = s := by
  induction ls with
  | nil => rfl
  | cons l ls ih => rw [List.foldl_cons, scanReleased_calm h, ih]

theorem KeepsGangs.calm {s t : State} (h : KeepsGangs s t) (hs : s.calm) : t.calm := by
  obtain ⟨-, -, -, ha⟩ := h
  exact calm_of_accesses hs fun x hx => .inl (ha ▸ hx)

theorem placeWrote_of_mem {s : State} (h : s.migrations = []) (m : Memory) (u : HomeUse) (l : Loc) (data bit : Bool) :
    KeepsGangs s (placeWrote { s with mem := m } u l data bit) ∧ (placeWrote { s with mem := m } u l data bit).mem = m := by
  have hhomes := placeWrote_homes (s := { s with mem := m }) h u l data bit
  obtain ⟨hfibres, hgangs, hmigrations, haccesses⟩ := keepsGangs_of_homes hhomes
  exact ⟨⟨hfibres, hgangs, hmigrations, haccesses⟩, upToHomes_mem hhomes⟩

/-- With nobody waiting, a released access to bytes changes memory and what the homes and the launch keep of it. -/
theorem presentStaged_bytes {s : State} {g : Gang} {e : Staged} {l : Loc} (hmig : s.migrations = []) (hcalm : s.calm)
    (hloc : s.stagedLoc g.ctx e = some l) (happly : ∀ t : State, t.applyStaged g.ctx s.mem e = s.applyStaged g.ctx s.mem e) :
    KeepsGangs s (s.presentStaged g e) ∧ (s.presentStaged g e).mem = s.applyStaged g.ctx s.mem e := by
  unfold presentStaged
  split
  case h_1 h => cases hloc.symm.trans h
  case h_2 l' h =>
  obtain rfl : l = l' := Option.some.inj (hloc.symm.trans h)
  extract_lets keys u engine s0 s1 s2 locs
  have hs0 : UpToHomes s s0 := by
    dsimp only [s0]
    split
    · exact homeReads_homes ..
    · exact upToHomes_refl s
  have hkeep0 := keepsGangs_of_homes hs0
  obtain ⟨hplace, hmem⟩ := placeWrote_of_mem ((upToHomes_migrations hs0).trans hmig) (s0.applyStaged g.ctx s0.mem e) u l
    (engine || e.op.writesData) (engine || e.op.writesBit)
  have hs1 : KeepsGangs s s1 := (hkeep0.trans hplace).trans (hostSees_keepsGangs ..)
  have hs2 : KeepsGangs s s2 := hs1.trans ((keepsGangs_of_homes (frontTook_homes ..)).trans (joinLaunch_keepsGangs ..))
  have hmem1 : s1.mem = s.applyStaged g.ctx s.mem e :=
    calc s1.mem = s0.applyStaged g.ctx s0.mem e := (hostSees_mem ..).trans hmem
      _ = s.applyStaged g.ctx s.mem e := by rw [upToHomes_mem hs0, happly]
  rw [foldl_scanReleased_calm (hs2.calm hcalm)]
  exact ⟨hs2, (joinLaunch_mem ..).trans ((frontTook_mem ..).trans hmem1)⟩

/-- Staged accesses to bytes are performed in order, each on what the ones before it left. -/
theorem foldl_presentStaged_bytes {s0 : State} {g : Gang} (es : List Staged)
    (hes : ∀ e ∈ es, s0.stagedElem g.ctx e = none ∧ s0.stagedLoc g.ctx e ≠ none) {s : State}
    (hmig : s.migrations = []) (hcalm : s.calm) :
    KeepsGangs s (es.foldl (fun s e => s.presentStaged g e) s) ∧
      (es.foldl (fun s e => s.presentStaged g e) s).mem = es.foldl (fun m e => s0.applyStaged g.ctx m e) s.mem := by
  induction es generalizing s with
  | nil => exact ⟨keepsGangs_refl s, rfl⟩
  | cons e es ih =>
    obtain ⟨helem, hne⟩ := hes e List.mem_cons_self
    obtain ⟨l, hloc⟩ := Option.ne_none_iff_exists'.1 hne
    have hbytes := staged_bytes helem hloc
    obtain ⟨hkeep, hmem⟩ := presentStaged_bytes hmig hcalm (hbytes s).1 fun t => ((hbytes t).2 _).trans ((hbytes s).2 _).symm
    have hmig' : (s.presentStaged g e).migrations = [] := by
      obtain ⟨-, -, hm, -⟩ := hkeep
      exact hm.trans hmig
    obtain ⟨hkeep', hmem'⟩ := ih (fun x hx => hes x (List.mem_cons_of_mem _ hx)) hmig' (hkeep.calm hcalm)
    refine ⟨hkeep.trans hkeep', ?_⟩
    rw [List.foldl_cons, List.foldl_cons, hmem', hmem, (hbytes s).2]

theorem releaseFault_bytes {s : State} {g : Gang} (h : ∀ e ∈ g.staged, s.stagedElem g.ctx e = none) : s.releaseFault g = none := by
  unfold releaseFault
  rw [List.findSome?_eq_none_iff]
  intro e he
  simp [h e he]

theorem exec_carillonRelease {s : State} {p n : Nat} {l : Launch} {g : Gang}
    (hl : s.launches.find? (fun x => x.part == p && x.node == n) = some l) (hdet : l.det = true) (herror : l.error = 0)
    (hg : s.nextRelease l = some g) (hfault : s.releaseFault g = none) (hp : s.portsServe (.carillonRelease p n)) :
    exec (.carillonRelease p n) s = .next (s.releaseGang l g) :=
  exec_of_portsServe (name := "CARILLON_RELEASE") (by simp [exec, execCarillonRelease, hl, hdet, herror, hg, hfault]) hp

end State

/-- Settles O49: each event's own result; a started fibre by what an entry writes, the release by induction on the staged stores. -/
theorem coreAndRoundEventsComplete : Obligations.CoreAndRoundEventsComplete := by
  unfold Obligations.CoreAndRoundEventsComplete
  intro s core g
  refine ⟨?carve, ?take, ?steal, State.exec_detRound, ?release⟩
  case carve =>
    intro k hcore hlen hpend hfit
    exact ⟨_, State.exec_carveApply hcore hpend hfit, rfl, State.core_updCore_same s _ hlen, rfl⟩
  case take =>
    intro wg k hlen hg hcount hk hregs e
    obtain ⟨hlive, harg, hjoin, hpc⟩ := State.takeEntry_startedOn
      (s := s.updCore core (fun _ => (State.popEntry (s.core core) g.det).2)) (State.freeSlot_lt hk) hregs e
    refine ⟨_, State.exec_dequeTake hg hcount hk, ?_⟩
    rw [State.popEntry_entry]
    refine ⟨rfl, ?_, hlive, harg, hjoin, hpc, fun j hj => State.takeEntry_fibre_ne _ g e hj⟩
    exact (congrArg CoreSt.dqCount (State.core_updCore_same s _ hlen)).trans (State.popEntry_dqCount ..)
  case steal =>
    intro wg k c hlen hc hg hdet hcount hk hregs others hfind e
    have hothers : c ∈ others := by
      have := List.mem_of_find?_eq_some hfind
      simp only [List.mem_append, List.mem_filter] at this
      rcases this with ⟨h, -⟩ | ⟨h, -⟩ <;> exact h
    have hne : c ≠ core := by simpa using (List.mem_filter.1 hothers).2
    let stolen := s.updCore c (fun _ => (State.popEntry (s.core c) true).2)
    let marked := stolen.updCore core (fun x => { x with stole := c })
    obtain ⟨hlive, harg, hjoin, hpc⟩ := State.takeEntry_startedOn (s := marked.count core 0x18 1) (State.freeSlot_lt hk) hregs e
    refine ⟨_, State.exec_dequeSteal hg hdet hcount hk hfind, rfl, ?_, ?_, hlive, harg, hjoin, hpc,
      fun j hj => State.takeEntry_fibre_ne _ g e hj⟩
    · calc ((marked.count core 0x18 1).core c).dqCount = (stolen.core c).dqCount := by
            rw [State.count, State.core_updCore_ne _ _ hne, State.core_updCore_ne _ _ hne]
        _ = (s.core c).dqCount - 1 := by rw [State.core_updCore_same s _ hc, State.popEntry_dqCount]
    · have hmarked : core < stolen.cores.length := by simpa [stolen] using hlen
      have hcounted : core < marked.cores.length := by simpa [marked] using hmarked
      calc ((marked.count core 0x18 1).core core).stole = (marked.core core).stole := by
            rw [State.count, State.core_updCore_same _ _ hcounted, CoreSt.count_stole]
        _ = c := by rw [State.core_updCore_same _ _ hmarked]
  case release =>
    intro p n l hl hdet herror hg hposts hmig hcalm hstaged hp
    have hfault := State.releaseFault_bytes fun e he => (hstaged e he).1
    refine ⟨_, State.exec_carillonRelease hl hdet herror hg hfault hp, ?_⟩
    obtain ⟨⟨hfibres, hgangs, -, -⟩, hmem⟩ := State.foldl_presentStaged_bytes g.staged hstaged hmig hcalm
    rw [State.releaseGang, hposts]
    exact ⟨hfibres, hmem, by rw [← hgangs]; rfl⟩

end Sys2Proof.Machine

/-! ## Engine events (R160, R178, R192, R203, R206, R208, R209, R212, R217) -/

namespace Sys2Proof.Machine

namespace State

/-! ### Jobs and what leaves them alone -/

/-- Nothing differs of fibres, jobs and contexts. -/
def KeepsJobs (s t : State) : Prop := t.fibres = s.fibres ∧ t.jobs = s.jobs ∧ t.contexts = s.contexts

theorem keepsJobs_refl (s : State) : KeepsJobs s s := ⟨rfl, rfl, rfl⟩

theorem KeepsJobs.trans {s t u : State} (h1 : KeepsJobs s t) (h2 : KeepsJobs t u) : KeepsJobs s u := by
  obtain ⟨hf, hj, hc⟩ := h1
  obtain ⟨hf', hj', hc'⟩ := h2
  exact ⟨hf'.trans hf, hj'.trans hj, hc'.trans hc⟩

theorem keepsJobs_foldl {α : Type} {f : State → α → State} (h : ∀ s x, KeepsJobs s (f s x)) (l : List α) (s : State) :
    KeepsJobs s (l.foldl f s) :=
  List.foldlRecOn (motive := fun t => KeepsJobs s t) _ _ (keepsJobs_refl s) fun t ht x _ => ht.trans (h t x)

theorem KeepsJobs.job {s t : State} (h : KeepsJobs s t) (id : Nat) : t.job id = s.job id := by
  obtain ⟨-, hj, -⟩ := h
  simp [State.job, hj]

theorem KeepsJobs.context {s t : State} (h : KeepsJobs s t) (id : Nat) : t.context id = s.context id := by
  obtain ⟨-, -, hc⟩ := h
  simp [State.context, hc]

theorem keepsJobs_of_homes {s t : State} (h : UpToHomes s t) : KeepsJobs s t := ⟨upToHomes_fibres h, by rw [h], by rw [h]⟩

theorem job_setJob {s : State} {j y : Job} (h : s.job j.id = some j) (hy : y.id = j.id) : (s.setJob y).job j.id = some y := by
  unfold State.job at *
  rw [setJob_jobs, List.find?_map]
  have hcomp : (fun x : Job => x.id == j.id) ∘ (fun x => if (x.id == y.id) = true then y else x) = fun x => x.id == j.id := by
    funext x
    by_cases hx : x.id = j.id <;> simp [hy, hx]
  rw [hcomp, h]
  simp [hy]

theorem markBitmap_keepsJobs (s : State) (keys : List Nat) : KeepsJobs s (s.markBitmap keys) := by
  unfold markBitmap
  refine keepsJobs_foldl (fun t m => ?_) _ _
  split
  · exact ⟨rfl, rfl, rfl⟩
  · exact keepsJobs_refl t

theorem homeWrote_keepsJobs (s : State) (u : HomeUse) (keys words : List Nat) : KeepsJobs s (s.homeWrote u keys words) := by
  unfold homeWrote
  exact (keepsJobs_foldl (fun _ _ => keepsJobs_of_homes (writeLine_homes ..)) _ _).trans
    ((markBitmap_keepsJobs ..).trans (keepsJobs_of_homes (touchLines_homes ..)))

theorem track_keepsJobs (s : State) (gid ln : Nat) (rd wr : Bool) : KeepsJobs s (s.track gid ln rd wr) := by
  unfold track
  dsimp only
  (repeat' split) <;> exact ⟨rfl, rfl, rfl⟩

theorem trackKeys_keepsJobs (s : State) (gid : Nat) (keys : List Nat) (rd wr : Bool) : KeepsJobs s (s.trackKeys gid keys rd wr) :=
  keepsJobs_foldl (fun _ _ => track_keepsJobs ..) _ _

theorem trackReads_keepsJobs (s : State) (j : Job) (keys : List Nat) : KeepsJobs s (s.trackReads j keys) := by
  unfold trackReads
  split
  · exact trackKeys_keepsJobs ..
  · exact keepsJobs_refl s

theorem engineNotices_keepsJobs (s : State) (r : Nat) (j : Job) (xs : List (List Nat)) : KeepsJobs s (s.engineNotices r j xs) := by
  unfold engineNotices
  split
  · exact keepsJobs_refl s
  · exact ⟨rfl, rfl, rfl⟩

theorem cacheXlat_keepsJobs (s : State) (c : Context) (va : Nat) (e : TlbEntry) : KeepsJobs s (s.cacheXlat c va e) := by
  unfold cacheXlat
  split <;> exact ⟨rfl, rfl, rfl⟩

theorem cacheVa_keepsJobs (s : State) (c : Context) (va : Nat) (n : Need) : KeepsJobs s (s.cacheVa c va n) := by
  unfold cacheVa
  split
  · exact (keepsJobs_of_homes (homeReads_homes ..)).trans (cacheXlat_keepsJobs ..)
  · exact keepsJobs_refl s

theorem keepElems_keepsJobs (s : State) (r : Region) (n : Need) (xs : List (List Nat)) : KeepsJobs s (s.keepElems r n xs) := by
  unfold keepElems
  split
  · exact keepsJobs_refl s
  unfold keepVas
  split
  · exact keepsJobs_refl s
  · exact (keepsJobs_foldl (fun _ _ => cacheVa_keepsJobs ..) _ _).trans (keepsJobs_of_homes (redraw_homes ..))

theorem engineTook_keepsJobs (s : State) (p cluster bank : Nat) (keys : List Nat) : KeepsJobs s (s.engineTook p cluster bank keys) := by
  unfold engineTook
  refine KeepsJobs.trans (keepsJobs_foldl (fun _ _ => ?_) _ _) (keepsJobs_foldl (fun _ _ => ?_) _ _)
  · exact ⟨rfl, rfl, rfl⟩
  · exact ⟨rfl, rfl, rfl⟩

theorem noteLoss_keepsJobs (s : State) (k cause : Nat) : KeepsJobs s (s.noteLoss k cause) := by
  unfold noteLoss
  split <;> exact ⟨rfl, rfl, rfl⟩

/-! ### Commands, raises and copy starts (R192, R206, R209) -/

section
variable {s : State} {j : Job} (hj : s.job j.id = some j)
include hj

theorem exec_commandPost {g : Gang} (hphase : j.phase = .counted) (hgang : j.gang = some g.id) (hg : s.gang g.id = some g)
    (hres : g.phase = .resident) (hroom : (s.entries j.kind j.cluster).length < 32)
    (hfirst : ∀ x ∈ s.jobs, x.kind = j.kind → x.gang = j.gang → x.phase = .counted → j.id ≤ x.id) :
    exec (.commandPost j.id) s = .next (s.setJob { j with phase := .queued, since := (s.cluster j.cluster).cycle, raised := none }) := by
  have hany : s.jobs.any (fun x => x.kind == j.kind && x.gang == j.gang && x.phase == .counted && decide (x.id < j.id)) = false := by
    rw [List.any_eq_false]
    intro x hx
    simp only [Bool.and_eq_true, beq_iff_eq, decide_eq_true_eq, not_and, Nat.not_lt, and_imp]
    exact hfirst x hx
  have hmost : (s.entries j.kind j.cluster).length < if (j.kind == .matrix) = true then Config.tableMax else Config.copyMax := by
    split <;> exact hroom
  rw [hgang] at hany
  simp [exec, execCommandPost, hj, hphase, hgang, hg, hres, -beq_iff_eq, hmost, hany, ev]

theorem exec_entryRaise (hraised : j.raised = none) (hwait : j.since + 4096 < (s.cluster j.cluster).cycle)
    (hmatrix : j.kind = .matrix → s.eligible j = true)
    (hcopy : j.kind = .copy → j.phase = .queued ∧ s.holdsEntry j = true ∧ s.edgesClear j = true) :
    exec (.entryRaise j.id) s = .next { s.setJob { j with raised := some s.nextId } with nextId := s.nextId + 1 } := by
  have hlate : ¬ (s.cluster j.cluster).cycle ≤ j.since + 4096 := by omega
  cases hkind : j.kind with
  | matrix => simp [exec, execEntryRaise, hj, hraised, hlate, hkind, hmatrix hkind, ev]
  | copy =>
    obtain ⟨hphase, hholds, hclear⟩ := hcopy hkind
    simp [exec, execEntryRaise, hj, hraised, hlate, hkind, hphase, hholds, hclear, ev]

theorem exec_copyJobStart
    (hfirst : (firstRank ((s.entries .copy j.cluster).filter (fun x => x.phase == .queued && s.edgesClear x))).map (·.id) = some j.id)
    (hroom : ((s.entries .copy j.cluster).filter (fun x => x.phase == .running)).length < 4)
    (hpresent : (s.cluster j.cluster).present = true) :
    exec (.copyJobStart j.id) s = .next (s.setJob { j with phase := .running, since := (s.cluster j.cluster).cycle, raised := none }) := by
  simp [exec, execCopyJobStart, hj, hfirst, Config.copyRunning, hroom, hpresent, ev]

end

/-! ### Stream fetches (R203, R217) -/

section
variable {s : State} {j : Job}

/-- What STREAM_FETCH_RETURN asks of a job before it looks at the operand. -/
structure Fetching (s : State) (j : Job) : Prop where
  found : s.job j.id = some j
  matrix : j.kind = .matrix
  mma : (mcard j.card).op = 0
  streamed : (mcard j.card).bs = true
  entry : j ∈ s.entries .matrix j.cluster
  running : j.stalled = false
  sound : j.error = 0
  more : j.fetched < s.passes j
  near : j.fetched < j.pos + 4
  clear : s.edgesClear j = true
  checked : j.phase = .queued → s.jobCheck j = 0
  serves : s.portsServe (.streamFetchReturn j.id)

theorem Fetching.guard (h : s.Fetching j) : (j.kind != .matrix || (mcard j.card).op != 0 || !(mcard j.card).bs ||
    !(s.entries .matrix j.cluster).any (fun x => x.id == j.id) || j.stalled || j.error != 0 || decide (s.passes j ≤ j.fetched) ||
    decide (j.pos + 4 ≤ j.fetched) || !s.edgesClear j) = false := by
  obtain ⟨-, hkind, hop, hbs, hentry, hstalled, herror, hmore, hnear, hclear, -, -⟩ := h
  have hany : (s.entries .matrix j.cluster).any (fun x => x.id == j.id) = true := List.any_eq_true.2 ⟨j, hentry, by simp⟩
  simp [hkind, hop, hbs, hany, hstalled, herror, hmore, hnear, hclear]

theorem Fetching.guard_check (h : s.Fetching j) : (j.phase == .queued && s.jobCheck j != 0) = false := by
  by_cases hp : j.phase = .queued
  · simp [h.checked hp]
  · simp [hp]

theorem Fetching.exec_destroyed (h : s.Fetching j) (hr : s.streamRegion j = none) :
    exec (.streamFetchReturn j.id) s = .next (s.failJob j 5) := by
  refine exec_of_portsServe (name := "STREAM_FETCH_RETURN") ?_ h.serves
  simp only [exec, execStreamFetchReturn, h.found, h.guard, h.guard_check, hr]
  rfl

theorem Fetching.exec_lost (h : s.Fetching j) {r : Region} {cause : Nat} (hr : s.streamRegion j = some r)
    (hfault : s.streamFault j j.fetched = none) (hturn : s.engineTurn j.part j.cluster 5 (s.streamKeys j j.fetched) = true)
    (hlost : s.lostOf (s.streamKeys j j.fetched) = some cause) :
    exec (.streamFetchReturn j.id) s = .next ((s.noteLoss j.cluster cause).failJob j 7) := by
  refine exec_of_portsServe (name := "STREAM_FETCH_RETURN") ?_ h.serves
  simp only [exec, execStreamFetchReturn, h.found, h.guard, h.guard_check, hr, hfault, hturn, hlost]
  rfl

theorem Fetching.exec_arrives (h : s.Fetching j) {r : Region} (hr : s.streamRegion j = some r)
    (hfault : s.streamFault j j.fetched = none) (hturn : s.engineTurn j.part j.cluster 5 (s.streamKeys j j.fetched) = true)
    (hlost : s.lostOf (s.streamKeys j j.fetched) = none) :
    exec (.streamFetchReturn j.id) s =
      .next ((s.streamArrives j j.fetched).engineTook j.part j.cluster 5 (s.streamKeys j j.fetched)) := by
  refine exec_of_portsServe (name := "STREAM_FETCH_RETURN") ?_ h.serves
  simp only [exec, execStreamFetchReturn, h.found, h.guard, h.guard_check, hr, hfault, hturn, hlost]
  rfl

theorem Fetching.exec_fault (h : s.Fetching j) {r : Region} {cause gpa va : Nat} (hr : s.streamRegion j = some r)
    (hfault : s.streamFault j j.fetched = some (cause, gpa, va)) :
    exec (.streamFetchReturn j.id) s = .next ((s.setJob { j with stalled := true }).pageRequest j.ctx va cause gpa 4) := by
  refine exec_of_portsServe (name := "STREAM_FETCH_RETURN") ?_ h.serves
  simp only [exec, execStreamFetchReturn, h.found, h.guard, h.guard_check, hr, hfault]
  rfl

theorem lostOf_of_lost {keys : List Nat} (h : ∃ k ∈ keys, s.lostKey k = true) : ∃ cause, s.lostOf keys = some cause := by
  obtain ⟨k, hk, hlost⟩ := h
  exact Option.isSome_iff_exists.1 (List.findSome?_isSome_iff.2 ⟨k, hk, hlost⟩)

theorem lostOf_of_intact {keys : List Nat} (h : ∀ k ∈ keys, s.lostKey k = false) : s.lostOf keys = none :=
  List.findSome?_eq_none_iff.2 fun k hk => Option.not_isSome_iff_eq_none.1 (by simpa [lostKey] using h k hk)

theorem noteLoss_eccLost (s : State) (k cause : Nat) : (s.noteLoss k cause).pf.eccLost = min (s.pf.eccLost + 1) (2 ^ 64 - 1) := by
  unfold noteLoss
  split <;> rfl

/-- The operand that arrives stands at the end of the job's stream. -/
theorem streamArrives_keepsJobs {r : Region} (hr : s.streamRegion j = some r) (p : Nat) :
    KeepsJobs (s.setJob { j with
      fetched := j.fetched + 1, stream := j.stream ++ [(s.streamBox j p).map (s.streamElem (s.jobView j) r)] }) (s.streamArrives j p) := by
  unfold streamArrives
  rw [hr]
  exact (engineNotices_keepsJobs ..).trans ((trackReads_keepsJobs ..).trans
    ((keepsJobs_of_homes (homeReads_homes ..)).trans (keepElems_keepsJobs ..)))

theorem queueBytes_keepsJobs (s : State) (p hpa : Nat) (bytes : List Byte) : KeepsJobs s (s.queueBytes p hpa bytes) := by
  unfold queueBytes
  exact KeepsJobs.trans ⟨rfl, rfl, rfl⟩ (homeWrote_keepsJobs ..)

theorem context_setContext {cid : Nat} {c y : Context} (h : s.context cid = some c) (hy : y.id = c.id) :
    (s.setContext y).context cid = some y := by
  have hid : c.id = cid := by simpa using List.find?_some h
  unfold State.context at *
  rw [setContext_contexts, List.find?_map]
  have hcomp : (fun x : Context => x.id == cid) ∘ (fun x => if (x.id == y.id) = true then y else x) = fun x => x.id == cid := by
    funext x
    by_cases hx : x.id = cid <;> simp [hy, hid, hx]
  rw [hcomp, h]
  simp [hy]

/-- Fibres and jobs are as before, and the context has the requests `rs`. -/
def Requested (s t : State) (cid : Nat) (rs : List PageRequest) : Prop :=
  t.fibres = s.fibres ∧ t.jobs = s.jobs ∧ ∃ y, t.context cid = some y ∧ y.requests = rs

theorem Requested.keeps {t u : State} {cid : Nat} {rs : List PageRequest} (h : Requested s t cid rs) (hu : KeepsJobs t u) :
    Requested s u cid rs := by
  obtain ⟨hf, hj, y, hy, hr⟩ := h
  have hctx := hu.context cid
  obtain ⟨hfu, hju, -⟩ := hu
  exact ⟨hfu.trans hf, hju.trans hj, y, hctx.trans hy, hr⟩

theorem Requested.setContext {t : State} {cid : Nat} {c y : Context} {rs : List PageRequest} (h : KeepsJobs s t)
    (hc : t.context cid = some c) (hy : y.id = c.id) (hr : y.requests = rs) : Requested s (t.setContext y) cid rs := by
  obtain ⟨hf, hj, -⟩ := h
  exact ⟨hf, hj, y, context_setContext hc hy, hr⟩

/-- A record in a context's queue moves its tail and leaves its requests. -/
theorem Requested.faultRecord {t : State} {cid : Nat} {rs : List PageRequest} (h : Requested s t cid rs) (bytes : List Byte) :
    Requested s (t.faultRecord cid bytes) cid rs := by
  obtain ⟨hf, hj, y, hy, hr⟩ := h
  have hset : ∀ u, KeepsJobs t u → Requested s (u.setContext { y with fqTail := (y.fqTail + 1) % 2 ^ y.fqSize }) cid rs := by
    intro u hu
    obtain ⟨hf', hj', hctx⟩ := Requested.setContext (y := { y with fqTail := (y.fqTail + 1) % 2 ^ y.fqSize }) hu
      ((hu.context cid).trans hy) rfl hr
    exact ⟨hf'.trans hf, hj'.trans hj, hctx⟩
  unfold State.faultRecord
  rw [hy]
  dsimp only
  split
  · exact hset _ (queueBytes_keepsJobs ..)
  · exact hset _ (keepsJobs_refl t)

theorem hvBytes_keepsJobs (s : State) (bytes : List Byte) : KeepsJobs s (s.hvBytes bytes) := by
  unfold hvBytes
  exact (queueBytes_keepsJobs ..).trans ⟨rfl, rfl, rfl⟩

/-- A fault on a range with no request under way enters one. -/
theorem pageRequest_new {cid va cause gpa kind : Nat} {c : Context} (h : s.context cid = some c) (hcause : cause ≠ 5)
    (hnew : ∀ q ∈ c.requests, q.range ≠ va / 65536) :
    Requested s (s.pageRequest cid va cause gpa kind) cid (c.requests ++ [⟨c.nextRequest, va / 65536, cause⟩]) := by
  have hany : c.requests.any (fun r => r.range == va / 65536) = false := by simpa using hnew
  unfold pageRequest
  simp only [h, beq_eq_false_iff_ne.2 hcause, hany, Bool.false_eq_true, if_false]
  have hreads := keepsJobs_of_homes (homeReads_homes s { part := c.part } (s.leafKeys c va))
  have hset := Requested.setContext (y := { c with
    nextRequest := (c.nextRequest + 1) % 2 ^ 32, requests := c.requests ++ [⟨c.nextRequest, va / 65536, cause⟩] })
    hreads ((hreads.context cid).trans h) rfl rfl
  refine Requested.keeps ?_ (keepsJobs_of_homes (redraw_homes _))
  split
  · exact hset.faultRecord _
  · exact hset.keeps (hvBytes_keepsJobs ..)

end

/-! ### The end of a job's work (R208, R212) -/

theorem fibre_updCtls_ne (s : State) {i k : Nat} (f : Nat → Ctl → Ctl) (h : i ≠ k) : (s.updCtls [k] f).fibre i = s.fibre i := by
  rcases Nat.lt_or_ge i s.fibres.length with hi | hi
  · exact (fibre_updFibres _ _ _ _ hi).trans (if_neg (by simpa using h))
  · exact fibre_updFibres_beyond _ _ _ _ hi

theorem fibre_updCtls_same (s : State) {k : Nat} (f : Nat → Ctl → Ctl) (h : k < s.fibres.length) :
    (s.updCtls [k] f).fibre k = { s.fibre k with ctl := f k (s.fibre k).ctl } :=
  (fibre_updFibres _ _ _ _ h).trans (if_pos List.mem_cons_self)

/-- Where a copy job quantised, the fibre of it takes the count of saturated elements. -/
def satTaken (s t : State) (j : Job) : State :=
  let c := ccard j.card
  match j.fibre with
  | some k =>
    if j.kind == .copy && quantising (s.sideFmt j.ctx c.sh c.src c.sfmt) (s.sideFmt j.ctx c.dh c.dst c.dfmt) (c.sc != 0) c.chain then
      t.updCtls [k] (fun _ x => { x with satcnt := BitVec.ofNat 32 j.sat }) else t
  | none => t

section
variable {s t : State} {j : Job}

theorem satTaken_rest : (s.satTaken t j).mem = t.mem ∧ (s.satTaken t j).jobs = t.jobs ∧ (s.satTaken t j).contexts = t.contexts := by
  unfold satTaken
  dsimp only
  (repeat' split) <;> exact ⟨rfl, rfl, rfl⟩

theorem satTaken_fibre_ne {k : Nat} (h : some k ≠ j.fibre) : (s.satTaken t j).fibre k = t.fibre k := by
  unfold satTaken
  dsimp only
  split
  next i hi =>
    split
    · exact fibre_updCtls_ne t _ fun e => h (by rw [hi, e])
    · rfl
  · rfl

theorem satTaken_fibre {k : Nat} (h : j.fibre = some k) (hk : k < t.fibres.length) :
    ((s.satTaken t j).fibre k).regs = (t.fibre k).regs ∧
      let c := ccard j.card
      (j.kind = .copy → quantising (s.sideFmt j.ctx c.sh c.src c.sfmt) (s.sideFmt j.ctx c.dh c.dst c.dfmt) (c.sc != 0) c.chain = true →
        ((s.satTaken t j).fibre k).ctl.satcnt = BitVec.ofNat 32 j.sat) := by
  unfold satTaken
  rw [h]
  dsimp only
  split
  · rw [fibre_updCtls_same t _ hk]
    exact ⟨rfl, fun _ _ => rfl⟩
  next hcond => exact ⟨rfl, fun hkind hquant => absurd (by simp [hkind, hquant]) hcond⟩

theorem noteFatal_rest (s : State) (cid kind value : Nat) :
    (s.noteFatal cid kind value).mem = s.mem ∧ (s.noteFatal cid kind value).fibres = s.fibres ∧
      (s.noteFatal cid kind value).jobs = s.jobs := by
  unfold noteFatal
  split <;> exact ⟨rfl, rfl, rfl⟩

theorem noteFatal_context {cid : Nat} {c : Context} (h : s.context cid = some c) (kind value : Nat) :
    ∃ z, (s.noteFatal cid kind value).context cid = some z ∧ z.fatal = c.fatal ++ [(kind, value)] := by
  unfold noteFatal
  rw [h]
  exact ⟨_, context_setContext h rfl, rfl⟩

/-- A job's error is noted with its status in the fatal record of its context. -/
def errorNoted (s : State) (j : Job) : State := if j.error = 0 then s else s.noteFatal j.ctx 4 j.status

theorem errorNoted_rest (s : State) (j : Job) :
    (s.errorNoted j).mem = s.mem ∧ (s.errorNoted j).fibres = s.fibres ∧ (s.errorNoted j).jobs = s.jobs := by
  unfold errorNoted
  split
  · exact ⟨rfl, rfl, rfl⟩
  · exact noteFatal_rest ..

theorem errorNoted_context {c : Context} (h : s.context j.ctx = some c) : ∃ z, (s.errorNoted j).context j.ctx = some z ∧
    z.fatal = if j.error = 0 then c.fatal else c.fatal ++ [(4, j.status)] := by
  unfold errorNoted
  split
  · exact ⟨c, h, rfl⟩
  · exact noteFatal_context h ..

theorem exec_jobComplete (hj : s.job j.id = some j) (hcomplete : j.phase ≠ .complete) (hcounted : j.phase ≠ .counted)
    (hdone : s.jobDone j = true) (hfree : j.kind = .matrix → s.bankFree j ≤ (s.cluster j.cluster).cycle) :
    let y := { j with phase := .complete, stalled := false, ctime := if j.ctime = 0 then s.time else j.ctime }
    exec (.jobComplete j.id) s = .next ((s.satTaken (s.setJob y) j).errorNoted j) := by
  have hmay : (j.kind == .copy || decide (s.bankFree j ≤ (s.cluster j.cluster).cycle)) = true := by
    cases hkind : j.kind with
    | copy => rfl
    | matrix => simp [hfree hkind]
  simp only [exec, execJobComplete, hj, beq_eq_false_iff_ne.2 hcomplete, beq_eq_false_iff_ne.2 hcounted, hdone, hmay,
    beq_iff_eq, errorNoted]
  rfl

end

/-! ### Completion actions (R160, R178, R212) -/

/-- Fibre k differs at most in the time its jobs end, and not at all unless it is the job's own. -/
def OnlyJobsTill (s t : State) (own : Option Nat) : Prop := ∀ k, (some k ≠ own → t.fibre k = s.fibre k) ∧
  t.fibre k = { s.fibre k with ctl := { (s.fibre k).ctl with jobsTill := (t.fibre k).ctl.jobsTill } }

theorem onlyJobsTill_of_fibres {s t : State} (h : t.fibres = s.fibres) (own : Option Nat) : OnlyJobsTill s t own := by
  intro k
  rw [fibre_of_fibres h]
  exact ⟨fun _ => rfl, rfl⟩

theorem OnlyJobsTill.of_fibres {s t u : State} {own : Option Nat} (h : OnlyJobsTill t u own) (ht : t.fibres = s.fibres) :
    OnlyJobsTill s u own := by
  intro k
  rw [← fibre_of_fibres ht]
  exact h k

theorem OnlyJobsTill.then_fibres {s t u : State} {own : Option Nat} (h : OnlyJobsTill s t own) (hu : u.fibres = t.fibres) :
    OnlyJobsTill s u own := by
  intro k
  rw [fibre_of_fibres hu]
  exact h k

theorem jobsUntil_onlyJobsTill (s : State) (own : Option Nat) (post t : Nat) : OnlyJobsTill s (s.jobsUntil own post t) own := by
  unfold jobsUntil
  split
  · exact onlyJobsTill_of_fibres rfl _
  next i =>
    split
    · intro k
      by_cases hk : k = i
      · subst hk
        refine ⟨fun h => absurd rfl h, ?_⟩
        rcases Nat.lt_or_ge k s.fibres.length with hlt | hge
        · rw [fibre_updCtls_same _ _ hlt]
        · have hsame : (s.updCtls [k] fun _ c => { c with jobsTill := max c.jobsTill t }).fibre k = s.fibre k :=
            fibre_updFibres_beyond _ _ _ _ hge
          rw [hsame]
      · rw [fibre_updCtls_ne _ _ hk]
        exact ⟨fun _ => rfl, rfl⟩
    · exact onlyJobsTill_of_fibres rfl _

theorem jobsUntil_rest (s : State) (own : Option Nat) (post t : Nat) :
    (s.jobsUntil own post t).mem = s.mem ∧ (s.jobsUntil own post t).jobs = s.jobs := by
  unfold jobsUntil
  (repeat' split) <;> exact ⟨rfl, rfl⟩

theorem joinLaunch_rest (s : State) (gid t : Nat) :
    (s.joinLaunch gid t).mem = s.mem ∧ (s.joinLaunch gid t).fibres = s.fibres ∧ (s.joinLaunch gid t).jobs = s.jobs := by
  unfold joinLaunch
  (repeat' split) <;> exact ⟨rfl, rfl, rfl⟩

section
variable {s : State} {j : Job}

theorem jobGone_of_no_node (s : State) (hnode : j.node = none) :
    (s.jobGone j).mem = s.mem ∧ (s.jobGone j).jobs = s.jobs.filter (fun x => x.id != j.id) ∧ OnlyJobsTill s (s.jobGone j) j.fibre := by
  obtain ⟨t, hgone⟩ : ∃ t, s.jobGone j = match j.gang with
      | some g => ((s.dropJob j.id).jobsUntil j.fibre j.post t).joinLaunch g t
      | none => (s.dropJob j.id).jobsUntil j.fibre j.post t := by
    unfold jobGone
    rw [hnode]
    exact ⟨_, rfl⟩
  rw [hgone]
  obtain ⟨hmem, hjobs⟩ := (s.dropJob j.id).jobsUntil_rest j.fibre j.post t
  have honly : OnlyJobsTill s ((s.dropJob j.id).jobsUntil j.fibre j.post t) j.fibre :=
    (jobsUntil_onlyJobsTill _ j.fibre j.post t).of_fibres rfl
  split
  next g hg =>
    obtain ⟨hmem', hfibres', hjobs'⟩ := joinLaunch_rest ((s.dropJob j.id).jobsUntil j.fibre j.post t) g t
    exact ⟨hmem'.trans hmem, hjobs'.trans hjobs, honly.then_fibres hfibres'⟩
  · exact ⟨hmem, hjobs, honly⟩

theorem hostSees_keepsJobs (s : State) (fibre : Option Nat) (p : Nat) (n : Option Nat) (keys : List Nat) :
    KeepsJobs s (s.hostSees fibre p n keys) := by
  unfold hostSees
  split <;> exact ⟨rfl, rfl, rfl⟩

/-- Setting a job touches none of the others. -/
theorem setJob_filter_ne (s : State) {y : Job} (hy : y.id = j.id) :
    (s.setJob y).jobs.filter (fun x => x.id != j.id) = s.jobs.filter (fun x => x.id != j.id) := by
  rw [setJob_jobs, hy]
  induction s.jobs with
  | nil => rfl
  | cons x xs ih => by_cases hx : x.id = j.id <;> simp_all

/-- What a job's write at its place leaves behind, with nobody waiting there and no migration under way. -/
theorem jobWrote_calm (hmig : s.migrations = []) (hcalm : s.calm) (l : Loc) (keys words : List Nat) :
    (s.jobWrote j l keys words).mem = s.mem ∧ (s.jobWrote j l keys words).fibres = s.fibres ∧
      (s.jobWrote j l keys words).jobs.filter (fun x => x.id != j.id) = s.jobs.filter (fun x => x.id != j.id) := by
  unfold jobWrote
  dsimp only
  generalize hs1 : (s.homeWrote (jobUse j l.attr) keys words).hostSees j.fibre j.part (s.jobNode j) (placeKeys l) = s1
  obtain ⟨hfibres, hjobs, -⟩ : KeepsJobs s s1 := hs1 ▸ (homeWrote_keepsJobs ..).trans (hostSees_keepsJobs ..)
  have hmem : s1.mem = s.mem := hs1 ▸ (hostSees_mem ..).trans (upToHomes_mem (homeWrote_homes hmig ..))
  have hcalm1 : s1.calm := calm_of_accesses hcalm fun x hx => .inl (by rw [← hs1] at hx; simpa using hx)
  split
  next x hx =>
    rw [scanKeys_calm (show ((s1.setJob _).healWords l).calm from hcalm1)]
    have hid : x.id = j.id := by simpa using List.find?_some hx
    exact ⟨hmem, hfibres, (setJob_filter_ne s1 (by exact hid)).trans (by rw [hjobs])⟩
  · rw [scanKeys_calm (show (s1.healWords l).calm from hcalm1)]
    exact ⟨hmem, hfibres, by rw [← hjobs]; rfl⟩

/-- The completion action that writes the status: its word is full of it afterwards (R212). -/
theorem completeAt_status (hmig : s.migrations = []) (hcalm : s.calm) {l : Loc} (hplace : s.jobStages j l = false) :
    (s.completeAt j 1 l).mem = (l.store s.mem j.status).setFull (l.first / 8) true ∧ (s.completeAt j 1 l).fibres = s.fibres ∧
      (s.completeAt j 1 l).jobs.filter (fun x => x.id != j.id) = s.jobs.filter (fun x => x.id != j.id) := by
  unfold completeAt jobWrite
  rw [hplace]
  exact jobWrote_calm (s := { s with mem := (l.store s.mem j.status).setFull (l.first / 8) true }) hmig hcalm l ..

/-- The completion action that arrives at a barrier (R160, R212). -/
theorem completeAt_arrival (hcalm : s.calm) (l : Loc) {action : Nat} (h : action ≠ 1) :
    s.completeAt j action l = { s with mem := l.store s.mem (barrierArrive (BitVec.ofNat 64 (l.value s.mem))).1.toNat } := by
  unfold completeAt
  rw [if_neg (by simpa using h)]
  refine scanAll_calm ?_ l
  exact hcalm

/-- A job whose completion action takes place: after its time, unstalled, its context alive (R178, R212). -/
structure Completing (s : State) (j : Job) : Prop where
  found : s.job j.id = some j
  complete : j.phase = .complete
  due : j.ctime ≤ s.time
  moving : j.stalled = false
  alive : ∃ c, s.context j.ctx = some c ∧ c.live = true
  serves : s.portsServe (.completionAction j.id)

theorem Completing.exec_none (h : s.Completing j) (hnone : j.completion.1 = 0) :
    exec (.completionAction j.id) s = .next (s.jobGone j) := by
  refine exec_of_portsServe (name := "COMPLETION_ACTION") ?_ h.serves
  simp [exec, execCompletionAction, h.found, h.complete, Nat.not_lt.2 h.due, h.moving, hnone]

theorem Completing.exec_at (h : s.Completing j) (hsome : j.completion.1 ≠ 0) {l : Loc}
    (hl : s.sideLoc j j.completion.2 (0, 0) 64 .write = .ok l) (hturn : s.engineTurn j.part j.cluster j.bankKey l.keys = true) :
    exec (.completionAction j.id) s =
      .next (((s.completeAt j j.completion.1 l).engineTook j.part j.cluster j.bankKey l.keys).jobGone j) := by
  obtain ⟨c, hc, hlive⟩ := h.alive
  refine exec_of_portsServe (name := "COMPLETION_ACTION") ?_ h.serves
  simp [exec, execCompletionAction, h.found, h.complete, Nat.not_lt.2 h.due, h.moving, hsome, hc, hlive, hl, hturn]

/-- What is left of a job whose action has had its effect on memory alone. -/
theorem taken_gone {u : State} (hnode : j.node = none) (hfibres : u.fibres = s.fibres)
    (hjobs : u.jobs.filter (fun x => x.id != j.id) = s.jobs.filter (fun x => x.id != j.id)) (p cluster bank : Nat) (keys : List Nat) :
    let t := (u.engineTook p cluster bank keys).jobGone j
    t.mem = u.mem ∧ OnlyJobsTill s t j.fibre ∧ t.jobs = s.jobs.filter (fun x => x.id != j.id) := by
  obtain ⟨hmem, hrest, honly⟩ := jobGone_of_no_node (u.engineTook p cluster bank keys) hnode
  obtain ⟨htook, htaken, -⟩ := engineTook_keepsJobs u p cluster bank keys
  exact ⟨hmem.trans (engineTook_mem ..), honly.of_fibres (htook.trans hfibres), hrest.trans (by rw [htaken, hjobs])⟩

theorem completion_eq (j : Job) :
    j.completion =
      if j.kind = .copy then ((ccard j.card).action, (ccard j.card).comp) else ((mcard j.card).action, (mcard j.card).comp) := by
  unfold Job.completion
  cases j.kind <;> rfl

theorem status_eq (j : Job) :
    j.status = (if j.kind = .copy then j.sat else j.pos) % 2 ^ 32 * 2 ^ 32 + j.error * 2 ^ 24 + 32
      + (if j.kind = .matrix then j.flags.toNat else 0) := by
  unfold Job.status
  cases j.kind <;> rfl

theorem bankKey_eq (j : Job) : j.bankKey = if j.kind = .copy then 4 else 5 := by
  unfold Job.bankKey
  cases j.kind <;> rfl

end

end State

/-- Settles O52: each event's own result; the stream fetch by what it finds at its operand, the completion action by its kind. -/
theorem engineEventsComplete : Obligations.EngineEventsComplete := by
  unfold Obligations.EngineEventsComplete
  intro s j hj
  refine ⟨fun g => State.exec_commandPost hj, State.exec_entryRaise hj, ?fetch, fun _ => State.exec_copyJobStart hj, ?complete, ?action⟩
  case fetch =>
    intro hkind hop hbs hentry hstalled herror hmore hnear hclear hchecked hserves
    have hfetch : s.Fetching j := ⟨hj, hkind, hop, hbs, hentry, hstalled, herror, hmore, hnear, hclear, hchecked, hserves⟩
    refine ⟨hfetch.exec_destroyed, fun r hr hfault hturn => ⟨fun hlost => ?_, fun hintact => ?_⟩,
      fun r cause gpa va c hr hfault hc hcause hnew => ?_⟩
    · obtain ⟨cause, hcause⟩ := State.lostOf_of_lost hlost
      obtain ⟨hfibres, hjobs, -⟩ := State.noteLoss_keepsJobs s j.cluster cause
      refine ⟨_, hfetch.exec_lost hr hfault hturn hcause, State.noteLoss_mem .., hfibres, ?_, State.noteLoss_eccLost ..⟩
      exact congrArg (List.map _) hjobs
    · have hkeeps := (State.streamArrives_keepsJobs hr j.fetched).trans
        (State.engineTook_keepsJobs _ j.part j.cluster 5 (s.streamKeys j j.fetched))
      refine ⟨_, hfetch.exec_arrives hr hfault hturn (State.lostOf_of_intact hintact), ?_, hkeeps.1, ?_⟩
      · rw [State.engineTook_mem, State.streamArrives_mem]
      · exact (hkeeps.job j.id).trans (State.job_setJob hj rfl)
    · obtain ⟨hfibres, hjobs, y, hy, hrequests⟩ :=
        State.pageRequest_new (s := s.setJob { j with stalled := true }) (gpa := gpa) (kind := 4) hc hcause hnew
      refine ⟨_, y, hfetch.exec_fault hr hfault, hfibres, ?_, hy, hrequests⟩
      unfold State.job
      rw [hjobs]
      exact State.job_setJob hj rfl
  case complete =>
    intro hcomplete hcounted hdone hfree
    refine ⟨_, State.exec_jobComplete hj hcomplete hcounted hdone hfree, ?_⟩
    generalize hu : s.setJob { j with phase := .complete, stalled := false, ctime := if j.ctime = 0 then s.time else j.ctime } = u
    obtain ⟨humem, hufibres, hucontexts⟩ : u.mem = s.mem ∧ u.fibres = s.fibres ∧ u.contexts = s.contexts :=
      hu ▸ ⟨rfl, rfl, rfl⟩
    obtain ⟨hmem, hjobs, hcontexts⟩ := State.satTaken_rest (s := s) (t := u) (j := j)
    obtain ⟨hmem', hfibres', hjobs'⟩ := (s.satTaken u j).errorNoted_rest j
    have hfibre : ∀ k, ((s.satTaken u j).errorNoted j).fibre k = (s.satTaken u j).fibre k := State.fibre_of_fibres hfibres'
    refine ⟨hjobs'.trans (hjobs.trans (by rw [← hu]; rfl)), fun k hk => ?others, hmem'.trans (hmem.trans humem), fun k hk hlt => ?own,
      fun x hx => ?record⟩
    case others => rw [hfibre, State.satTaken_fibre_ne hk, State.fibre_of_fibres hufibres]
    case own =>
      obtain ⟨hregs, hsat⟩ := State.satTaken_fibre (s := s) hk (hufibres ▸ hlt)
      rw [hfibre, ← State.fibre_of_fibres hufibres]
      exact ⟨hregs, hsat⟩
    case record =>
      refine State.errorNoted_context ?_
      unfold State.context at *
      rw [hcontexts, hucontexts]
      exact hx
  case action =>
    intro c hphase hdue hstalled hnode hc hlive hserves
    have hgo : s.Completing j := ⟨hj, hphase, hdue, hstalled, ⟨c, hc, hlive⟩, hserves⟩
    dsimp only
    rw [← State.completion_eq, ← State.status_eq, ← State.bankKey_eq]
    refine ⟨hgo.exec_none, fun l hl hturn hmig hcalm => ⟨fun hone hstage => ?_, fun hsome hone => ?_⟩⟩
    · have hplace : s.jobStages j l = false := by
        cases hgang : j.gang with
        | none => simp [State.jobStages, hgang]
        | some g =>
          cases hdet : s.isDet g with
          | false => simp [State.jobStages, hgang, hdet]
          | true => simp [State.jobStages, hgang, hstage g hgang hdet]
      obtain ⟨hmem, hfibres, hjobs⟩ := State.completeAt_status (j := j) hmig hcalm hplace
      obtain ⟨hgone, honly, hrest⟩ := State.taken_gone hnode hfibres hjobs j.part j.cluster j.bankKey l.keys
      refine ⟨_, hgo.exec_at (by omega) hl hturn, ?_⟩
      rw [hone]
      exact ⟨hgone.trans hmem, honly, hrest⟩
    · obtain ⟨hgone, honly, hrest⟩ := State.taken_gone (s := s) (u := s.completeAt j j.completion.1 l) hnode
        (by rw [State.completeAt_arrival hcalm l hone]) (by rw [State.completeAt_arrival hcalm l hone]) j.part j.cluster j.bankKey l.keys
      refine ⟨_, hgo.exec_at hsome hl hturn, ?_, honly, hrest⟩
      rw [hgone, State.completeAt_arrival hcalm l hone]

end Sys2Proof.Machine

/-! ## The return from a trap (R171, R172) -/

namespace Sys2Proof.Machine

namespace Fibre

/-- Registers written one after another from the first on stand in front of the others. -/
theorem setRegs_zip_range_regs (f : Fibre) (l : List Word) (h : l.length ≤ f.regs.length) :
    (f.setRegs ((List.range l.length).zip l)).regs = l ++ f.regs.drop l.length := by
  induction l using List.reverseRecOn with
  | nil => rfl
  | append_singleton l x ih =>
    have hlt : l.length < f.regs.length := by simpa using h
    have hsplit : (List.range (l ++ [x]).length).zip (l ++ [x]) = (List.range l.length).zip l ++ [(l.length, x)] := by
      rw [List.length_append, List.length_singleton, List.range_succ, List.zip_append (by simp)]
      rfl
    have hset : (f.setRegs ((List.range (l ++ [x]).length).zip (l ++ [x]))).regs =
        (f.setRegs ((List.range l.length).zip l)).regs.set l.length x := by
      rw [hsplit, setRegs, List.foldl_append]
      rfl
    rw [hset, ih hlt.le, List.set_append_right _ _ le_rfl, Nat.sub_self, List.drop_eq_getElem_cons hlt, List.set_cons_zero]
    simp

/-- From the system handler the registers come back from the shadow (R172). -/
theorem leave_regs_of_v (f : Fibre) (hv : f.ctl.v = true) (hshadow : f.ctl.shadow.regs.length = 8) (hregs : 8 ≤ f.regs.length) :
    f.leave.regs = f.ctl.shadow.regs ++ f.regs.drop 8 := by
  have hzip := f.setRegs_zip_range_regs f.ctl.shadow.regs (hshadow ▸ hregs)
  rw [hshadow] at hzip
  rw [leave, if_pos hv]
  exact hzip

/-- What a system class saves of the registers are the first eight of them (R171). -/
theorem toShadow_regs (f : Fibre) (h : 8 ≤ f.regs.length) : f.toShadow.regs = f.regs.take 8 := by
  refine List.ext_getElem (by simp [toShadow, h]) fun r hr _ => ?_
  have hlt : r < f.regs.length := by
    have : r < 8 := by simpa [toShadow] using hr
    omega
  simp [toShadow, regN, hlt]

/-- The special registers that come back from the shadow, and V (R172). -/
theorem leave_record_of_v (f : Fibre) (hv : f.ctl.v = true) :
    f.leave.preds = f.ctl.shadow.preds ∧ f.leave.ctl.tcause = f.ctl.shadow.tcause ∧ f.leave.ctl.tinfo = f.ctl.shadow.tinfo ∧
      f.leave.ctl.trappc = f.ctl.shadow.trappc ∧ f.leave.ctl.tresume = f.ctl.shadow.tresume ∧
      f.leave.ctl.taddr = f.ctl.shadow.taddr ∧ f.leave.ctl.h = f.ctl.shadow.h ∧ f.leave.ctl.v = false := by
  rw [leave, if_pos hv]
  exact ⟨rfl, rfl, rfl, rfl, rfl, rfl, rfl, rfl⟩

/-- A tenant handler ends with H alone (R172). -/
theorem leave_of_not_v (f : Fibre) (hv : f.ctl.v = false) : f.leave = { f with ctl := { f.ctl with h := false, after := .next } } := by
  rw [leave, if_neg (by simp [hv])]

end Fibre

/-- Settles O35: the registers are written back one after another; a system class saved the first eight and the record. -/
theorem trapReturns : Obligations.TrapReturns := by
  unfold Obligations.TrapReturns
  refine ⟨fun f hshadow hregs => ⟨fun hv => ⟨fun r hr => ?_, fun r hr => ?_, f.leave_record_of_v hv⟩, fun hv => ?_⟩,
    fun hd t lane count resume f rs ps hv hcls hregs hlength hdrop => ?_⟩
  · rw [Fibre.regN, f.leave_regs_of_v hv hshadow hregs, List.getD_append _ _ _ _ (hshadow ▸ hr)]
  · rw [Fibre.regN, f.leave_regs_of_v hv hshadow hregs, List.getD_append_right _ _ _ _ (hshadow ▸ hr), hshadow]
    simp [Fibre.regN, List.getD_eq_getElem?_getD, Nat.add_sub_cancel' hr]
  · rw [f.leave_of_not_v hv]
    exact ⟨rfl, hv, rfl, rfl, rfl, rfl, rfl⟩
  · have hsys : 0x40 ≤ (trapClass hd f.ctl.h t).1 := system_trapClass_iff.2 (.inl hcls)
    dsimp only
    generalize hx : ({ f.enter hd t lane count resume with regs := rs, preds := ps } : Fibre) = x
    have hxshadow : x.ctl.shadow = f.toShadow := by
      rw [← hx]
      exact (f.enter_shadow ..).trans (if_pos hsys)
    have hxv : x.ctl.v = true := by
      rw [← hx]
      exact (f.enter_v ..).trans (by simp [hsys])
    have hxregs : x.regs = rs := by rw [← hx]
    have hback : x.leave.regs = f.regs := by
      rw [x.leave_regs_of_v hxv (by simp [hxshadow, Fibre.toShadow]) (by rw [hxregs, hlength]; exact hregs), hxshadow,
        f.toShadow_regs hregs, hxregs, hdrop, List.take_append_drop]
    obtain ⟨hpreds, htcause, htinfo, htrappc, htresume, htaddr, hh, hv'⟩ := x.leave_record_of_v hxv
    rw [hxshadow] at hpreds htcause htinfo htrappc htresume htaddr hh
    exact ⟨hback, hpreds, hh, hv', htcause, htinfo, htrappc, htresume, htaddr⟩

end Sys2Proof.Machine

/-! ## The observation block of a core (R183, R185 to R187) -/

namespace Sys2Proof.Machine

namespace State

theorem updCore_onlyCore (s : State) (c : Nat) (f : CoreSt → CoreSt) : OnlyCore s (s.updCore c f) c :=
  ⟨rfl, by simp, fun _ hj => core_updCore_ne s f hj⟩

/-- An event that does f to a core's block, and nothing else. -/
theorem exec_updCore {s : State} {core : Nat} {i : Instr} {f : CoreSt → CoreSt} (hlen : core < s.cores.length)
    (he : exec i s = .next (s.updCore core f)) :
    ∃ t, exec i s = .next t ∧ OnlyCore s t core ∧ t.core core = f (s.core core) :=
  ⟨_, he, s.updCore_onlyCore core f, core_updCore_same s f hlen⟩

section
variable {s : State} {core : Nat} (hcore : core < 192)
include hcore

theorem exec_trlostClear : exec (.trlostClear core) s = .next (s.updCore core (fun c => { c with trlost := 0 })) := by
  simp [exec, execTrlostClear, ev, Config.cores, hcore]

theorem exec_histogramClear {k : Nat} (hk : k < 17) :
    exec (.histogramClear core k) s = .next (s.updCore core (fun c => { c with hist := c.hist.set k 0 })) := by
  simp [exec, execHistogramClear, ev, Config.cores, hcore, hk]

theorem exec_counterStatusClear (v : DWord) :
    exec (.counterStatusClear core v) s = .next (s.updCore core (fun c => { c with ctrStatus := c.ctrStatus &&& ~~~ v })) := by
  simp [exec, execCounterStatusClear, ev, Config.cores, hcore]

end

end State

/-- What TRCTL holds after a write of v (R183): an interval below 256 reads back as 256. DEDUCED: log entry 33. -/
def trctlTaken (v : DWord) : DWord := if v.toNat / 256 < 256 then BitVec.ofNat 64 (256 * 256 + v.toNat % 4) else v

/-- The interval of 256 and the two enables have no bit in common. -/
theorem interval_or_enables (v : DWord) : (0x10000 : DWord) ||| (v &&& 3) = BitVec.ofNat 64 (256 * 256 + v.toNat % 4) := by
  have hlt : v.toNat % 4 < 4 := Nat.mod_lt _ (by decide)
  have hand : v &&& 3 = BitVec.ofNat 64 (v.toNat % 4) := by
    refine BitVec.eq_of_toNat_eq ?_
    rw [BitVec.toNat_and, show (3 : DWord).toNat = 2 ^ 2 - 1 from rfl, Nat.and_two_pow_sub_one_eq_mod, BitVec.toNat_ofNat]
    omega
  rw [hand]
  generalize v.toNat % 4 = n at hlt
  interval_cases n <;> rfl

namespace State

theorem exec_trctlWrite {s : State} {core : Nat} (hcore : core < 192) {v : DWord} (hhigh : v.toNat < 2 ^ 32)
    (hfixed : v.toNat / 4 % 64 = 0) : exec (.trctlWrite core v) s = .next (s.updCore core (fun c =>
      { c with trctl := trctlTaken v, sinceSample := if c.trctl.getLsbD 1 then c.sinceSample else 0 })) := by
  have h32 : v.extractLsb' 32 32 = 0 := BitVec.eq_of_toNat_eq (by
    rw [BitVec.extractLsb'_toNat, Nat.shiftRight_eq_div_pow, Nat.div_eq_of_lt hhigh]; rfl)
  have h2 : v.extractLsb' 2 6 = 0 := BitVec.eq_of_toNat_eq (by
    rw [BitVec.extractLsb'_toNat, Nat.shiftRight_eq_div_pow]; exact hfixed)
  have hinterval : (v.extractLsb' 8 24).toNat = v.toNat / 256 := by
    rw [BitVec.extractLsb'_toNat, Nat.shiftRight_eq_div_pow]
    omega
  simp only [exec, execTrctlWrite, Config.cores, h32, h2, hinterval, interval_or_enables, decide_eq_true_eq]
  rw [if_neg (by omega), if_neg (by decide)]
  rfl

section Select
variable {s : State} {core k p : Nat} {v : DWord} (hcore : core < 192) (hk : k < 8) (hp : s.clusterOwner (core / 4) = some p)
  (hlow : v.toNat < 512) (hready : s.pf.ready = true)
include hcore hk hp hlow hready

/-- A selector's value with its fixed bits 0 is taken, recorded or taken to count nothing, by the two event maps (R186). -/
theorem exec_eventSelectWrite : exec (.eventSelectWrite core k v) s = .next (
    if (s.part p).evAllow.getLsbD (v.toNat % 256) then s.updCore core (fun c => c.select k v false)
    else if (s.part p).evTrap.getLsbD (v.toNat % 256) then s.hvRecord 0x42 p (core * 256 + v.toNat % 256)
    else s.updCore core (fun c => c.select k v true)) := by
  have hfixed : v.extractLsb' 9 55 = 0 := BitVec.eq_of_toNat_eq (by
    rw [BitVec.extractLsb'_toNat, Nat.shiftRight_eq_div_pow, Nat.div_eq_of_lt hlow]; rfl)
  have hevent : (v.extractLsb' 0 8).toNat = v.toNat % 256 := by simp
  simp only [exec, execEventSelectWrite, vfWrite, hready, Config.cores, hp, hfixed, hevent]
  rw [if_pos trivial, if_neg (by omega), if_neg (by decide)]
  (repeat' split) <;> rfl

end Select

end State

theorem CoreSt.interval_eq (c : CoreSt) : c.interval = c.trctl.toNat / 256 % 2 ^ 24 := by
  rw [interval, BitVec.extractLsb'_toNat, Nat.shiftRight_eq_div_pow]

/-- An event's number and its enable in a selector's value (R186). -/
theorem CoreSt.select_eq (c : CoreSt) (k : Nat) {v : DWord} (mute : Bool) (hlow : v.toNat < 512) : c.select k v mute = { c with
    selectors := c.selectors.set k v, muted := c.muted.set k mute
    counters := if mute = true ∨ 0x1A ≤ v.toNat % 256 then c.counters.set k 0 else c.counters
    ctrStatus := if 0x1A ≤ v.toNat % 256 ∧ 256 ≤ v.toNat then c.ctrStatus ||| 0x100 else c.ctrStatus } := by
  have hevent : (v.extractLsb' 0 8).toNat = v.toNat % 256 := by simp
  have henable : v.getLsbD 8 = decide (256 ≤ v.toNat) := by
    rw [BitVec.getLsbD, Nat.testBit_eq_decide_div_mod_eq, decide_eq_decide]
    omega
  rw [BitVec.getLsbD_eq_getElem (by decide)] at henable
  simp [select, hevent, henable]

namespace State

/-- Memory, the fibres and the number of cores are as they were, and of core c its trace control and the time since its last sample. -/
def KeepsSampling (s t : State) (c : Nat) : Prop :=
  t.mem = s.mem ∧ t.fibres = s.fibres ∧ t.cores.length = s.cores.length ∧ (t.core c).trctl = (s.core c).trctl ∧
    (t.core c).sinceSample = (s.core c).sinceSample

theorem keepsSampling_refl (s : State) (c : Nat) : KeepsSampling s s c := ⟨rfl, rfl, rfl, rfl, rfl⟩

theorem updCore_keepsSampling {s : State} {c : Nat} (h : c < s.cores.length) {f : CoreSt → CoreSt}
    (htrctl : ∀ x, (f x).trctl = x.trctl) (hsince : ∀ x, (f x).sinceSample = x.sinceSample) : KeepsSampling s (s.updCore c f) c :=
  ⟨rfl, rfl, by simp, by rw [core_updCore_same s f h, htrctl], by rw [core_updCore_same s f h, hsince]⟩

theorem KeepsSampling.bump {s t : State} {c : Nat} (h : KeepsSampling s t c) : KeepsSampling s t.bump c := h

/-- A trace record stands in the queue of its core, or is counted lost there (R183). -/
theorem trace_keepsSampling {s : State} {c : Nat} (h : c < s.cores.length) (data : List Byte) : KeepsSampling s (s.trace c data) c := by
  unfold trace
  dsimp only
  split
  · exact updCore_keepsSampling h (fun _ => rfl) (fun _ => rfl)
  · exact KeepsSampling.bump (updCore_keepsSampling h (fun _ => rfl) (fun _ => rfl))

theorem sample_keepsSampling {s : State} {c : Nat} (h : c < s.cores.length) : KeepsSampling s (s.sample c) c := by
  unfold sample
  split
  · exact keepsSampling_refl s c
  · dsimp only
    split
    · exact keepsSampling_refl s c
    · exact trace_keepsSampling h _

theorem exec_traceSample {s : State} {core : Nat} (hcore : core < 192) (hon : (s.core core).trctl.getLsbD 1 = true)
    (hdue : (s.core core).interval ≤ (s.core core).sinceSample) : exec (.traceSample core) s =
      .next ((s.sample core).updCore core (fun c => { c with sinceSample := c.sinceSample - c.interval })) := by
  simp [exec, execTraceSample, ev, Config.cores, hcore, hon, hdue]

end State

/-- Settles O40: each write's own result in the core's block; a selector by the two event maps; a sample keeps its interval. -/
theorem observationEventsComplete : Obligations.ObservationEventsComplete := by
  unfold Obligations.ObservationEventsComplete
  intro s core hcore hlen
  refine ⟨State.exec_updCore hlen (State.exec_trlostClear hcore),
    fun k hk => State.exec_updCore hlen (State.exec_histogramClear hcore hk),
    fun v => State.exec_updCore hlen (State.exec_counterStatusClear hcore v), fun v hhigh hfixed => ?trctl,
    fun k v p hk hp hlow hready => ?select, fun hon hdue => ?sample⟩
  case trctl =>
    obtain ⟨t, ht, honly, hblock⟩ := State.exec_updCore hlen (State.exec_trctlWrite hcore hhigh hfixed)
    exact ⟨t, ht, honly, by rw [hblock]; rfl⟩
  case select =>
    have hexec := State.exec_eventSelectWrite (s := s) hcore hk hp hlow hready
    refine ⟨fun hallow => ?_, fun hallow htrap => ?_, fun hallow htrap => ?_⟩
    · rw [hallow, if_pos rfl] at hexec
      obtain ⟨t, ht, honly, hblock⟩ := State.exec_updCore hlen hexec
      rw [CoreSt.select_eq _ _ _ hlow] at hblock
      refine ⟨t, ht, honly, by rw [hblock], by rw [hblock], fun hgone => ⟨?_, fun hcount => ?_⟩⟩ <;> rw [hblock]
      · exact if_pos (.inr hgone)
      · exact if_pos ⟨hgone, hcount⟩
    · rw [hallow, htrap, if_neg Bool.false_ne_true, if_pos rfl] at hexec
      exact ⟨_, hexec, rfl, rfl⟩
    · rw [hallow, htrap, if_neg Bool.false_ne_true, if_neg Bool.false_ne_true] at hexec
      obtain ⟨t, ht, honly, hblock⟩ := State.exec_updCore hlen hexec
      rw [CoreSt.select_eq _ _ _ hlow] at hblock
      refine ⟨t, ht, honly, by rw [hblock], by rw [hblock], ?_⟩
      rw [hblock]
      simp
  case sample =>
    obtain ⟨hmem, hfibres, hlength, htrctl, hsince⟩ := State.sample_keepsSampling hlen
    refine ⟨_, State.exec_traceSample hcore hon (by rwa [CoreSt.interval_eq]), hmem, hfibres, ?_⟩
    rw [State.core_updCore_same _ _ (by rwa [hlength]), CoreSt.interval_eq, htrctl, hsince]

end Sys2Proof.Machine

/-! ## Pre-emption (R171, R173, R311, R312) -/

namespace Sys2Proof.Machine

namespace State

/-! ### The decision (R311, R312) -/

/-- The gangs once the front has chosen the victims v for the first waiting gang w (R311): what they free is reserved, and each has a
save block. -/
theorem exec_preemptDecision {s : State} {p : Nat} {w : Waiting} {v : List Gang} (hserving : s.serving p = true)
    (hdecision : s.decision p = some (w, v)) (hblocks : v.length ≤ (s.freeBlocks p v.length).length) :
    exec (.preemptDecision p) s = .next { s with gangs := s.gangs.map (fun g => if (v.map (·.id)).contains g.id then
      { g with phase := .preempting, reservedFor := some w.me
               saveBlock := some (g.saveBlock.getD ((s.freeBlocks p v.length).getD ((v.map (·.id)).idxOf g.id) 0)) } else g) } := by
  simp only [exec, execPreemptDecision, hserving, hdecision, List.length_map]
  rw [if_neg (by decide), if_neg (by omega)]
  rfl

/-! ### A gang's record, and its fibres' control parts -/

theorem gang_setGang {s : State} {g h : Gang} (hg : s.gang g.id = some g) (hid : h.id = g.id) : (s.setGang h).gang g.id = some h := by
  unfold State.gang at *
  rw [setGang_gangs, List.find?_map]
  have hcomp : (fun x : Gang => x.id == g.id) ∘ (fun x => if (x.id == h.id) = true then h else x) = fun x => x.id == g.id := by
    funext x
    by_cases hx : x.id = g.id <;> simp [hid, hx]
  rw [hcomp, hg]
  simp [hid]

theorem fibre_updFibres_of_notMem (s : State) {ks : List Nat} (f : Nat → Fibre → Fibre) {k : Nat} (hk : k ∉ ks) :
    (s.updFibres ks f).fibre k = s.fibre k := by
  rcases Nat.lt_or_ge k s.fibres.length with hl | hl
  · rw [fibre_updFibres _ _ _ _ hl, if_neg hk]
  · exact fibre_updFibres_beyond _ _ _ _ hl

theorem fibre_updCtls_cases (s : State) (ks : List Nat) (f : Nat → Ctl → Ctl) (k : Nat) :
    (s.updCtls ks f).fibre k = s.fibre k ∨ k ∈ ks ∧ (s.updCtls ks f).fibre k = { s.fibre k with ctl := f k (s.fibre k).ctl } := by
  by_cases hk : k ∈ ks
  · rcases Nat.lt_or_ge k s.fibres.length with hl | hl
    · exact .inr ⟨hk, (fibre_updFibres _ _ _ _ hl).trans (if_pos hk)⟩
    · exact .inl (fibre_updFibres_beyond _ _ _ _ hl)
  · exact .inl (fibre_updFibres_of_notMem s _ hk)

/-- Of the live fibres of gang gid the control parts may differ, in what does not change `kept`; the fibres are as they were else. -/
structure UpToCtls {α : Type} (s t : State) (gid : Nat) (kept : Ctl → α) : Prop where
  length : t.fibres.length = s.fibres.length
  fibre : ∀ k, t.fibre k = { s.fibre k with ctl := (t.fibre k).ctl }
  same : ∀ k, kept (t.fibre k).ctl = kept (s.fibre k).ctl
  others : ∀ k, k ∉ s.liveOf gid → t.fibre k = s.fibre k

section UpToCtls
variable {α β : Type} {s t u : State} {gid : Nat} {kept : Ctl → α}

theorem upToCtls_of_fibres (h : t.fibres = s.fibres) : UpToCtls s t gid kept where
  length := by rw [h]
  fibre k := by rw [fibre_of_fibres h]
  same k := by rw [fibre_of_fibres h]
  others k _ := fibre_of_fibres h k

theorem upToCtls_updCtls {ks : List Nat} {f : Nat → Ctl → Ctl} (hks : ∀ k ∈ ks, k ∈ s.liveOf gid)
    (hf : ∀ k c, kept (f k c) = kept c) :
    UpToCtls s (s.updCtls ks f) gid kept where
  length := updFibres_length ..
  fibre k := by rcases fibre_updCtls_cases s ks f k with h | ⟨_, h⟩ <;> rw [h]
  same k := by
    rcases fibre_updCtls_cases s ks f k with h | ⟨_, h⟩
    · rw [h]
    · rw [h, hf]
  others k hk := fibre_updFibres_of_notMem s _ (fun hm => hk (hks k hm))

theorem UpToCtls.liveOf (h : UpToCtls s t gid kept) (gid' : Nat) : t.liveOf gid' = s.liveOf gid' := by
  unfold State.liveOf
  rw [h.length]
  refine List.filter_congr fun k _ => ?_
  rw [h.fibre k]

theorem UpToCtls.trans (h1 : UpToCtls s t gid kept) (h2 : UpToCtls t u gid kept) : UpToCtls s u gid kept where
  length := h2.length.trans h1.length
  fibre k := by rw [h2.fibre k, h1.fibre k]
  same k := (h2.same k).trans (h1.same k)
  others k hk := (h2.others k (by rwa [h1.liveOf])).trans (h1.others k hk)

theorem setAccesses_upToCtls (s : State) (l : List Access) : UpToCtls s { s with accesses := l } gid kept := upToCtls_of_fibres rfl

theorem setGang_upToCtls (s : State) (g : Gang) : UpToCtls s (s.setGang g) gid kept := upToCtls_of_fibres rfl

theorem UpToCtls.map (h : UpToCtls s t gid kept) (p : α → β) : UpToCtls s t gid (fun c => p (kept c)) :=
  { h with same := fun k => congrArg p (h.same k) }

end UpToCtls

theorem mem_liveOf {s : State} {gid k : Nat} :
    k ∈ s.liveOf gid ↔ k < s.fibres.length ∧ (s.fibre k).live = true ∧ (s.fibre k).gang = gid := by
  simp [State.liveOf]

/-! ### The withdrawal of waits (step 2 of R173) -/

/-- The partitions are as they were but for the records of their layers. -/
def UpToLayers (s t : State) : Prop := ∀ p, t.part p = { s.part p with layers := (t.part p).layers }

theorem upToLayers_of_parts {s t : State} (h : t.parts = s.parts) : UpToLayers s t := fun p => by simp [part, h]

theorem UpToLayers.trans {s t u : State} (h1 : UpToLayers s t) (h2 : UpToLayers t u) : UpToLayers s u := fun p => by
  rw [h2 p, h1 p]

/-- Handlers and save blocks do not depend on layers (R171, R312). -/
theorem UpToLayers.handlers {s t : State} (h : UpToLayers s t) (hg : t.gangs = s.gangs) (gid : Nat) : t.handlers gid = s.handlers gid := by
  unfold State.handlers
  rw [gang, hg, ← gang]
  split
  · dsimp only
    rw [h]
  · rfl

theorem markBitmap_parts (s : State) (keys : List Nat) : (s.markBitmap keys).parts = s.parts := by
  unfold markBitmap
  exact List.foldlRecOn (motive := fun t : State => t.parts = s.parts) _ _ rfl fun t ht m _ => by split <;> exact ht

theorem homeWrote_parts (s : State) (u : HomeUse) (keys words : List Nat) : (s.homeWrote u keys words).parts = s.parts := by
  unfold homeWrote
  rw [upToHomes_parts (touchLines_homes ..), markBitmap_parts]
  exact upToHomes_parts (upToHomes_foldl _ (fun _ _ => writeLine_homes ..) _ _)

theorem updPart_upToLayers (s : State) (p : Nat) (f : List LayerSt → List LayerSt) :
    UpToLayers s (s.updPart p (fun x => { x with layers := f x.layers })) := fun q => by
  unfold part
  rw [updPart_parts]
  simp only [List.getD_eq_getElem?_getD, List.getElem?_modify]
  cases s.parts[q]? with
  | none => rfl
  | some x => by_cases hq : p = q <;> simp [hq]

theorem addHold_upToLayers (s : State) (p m l : Nat) (up : Bool) : UpToLayers s (s.addHold p m l up) := by
  unfold addHold
  dsimp only
  refine (upToLayers_of_parts ?_).trans (updPart_upToLayers _ p _)
  rw [homeWrote_parts]
  show (s.homeReads _ _).parts = s.parts
  exact upToHomes_parts (homeReads_homes ..)

theorem addHold_accesses (s : State) (p m l : Nat) (up : Bool) : (s.addHold p m l up).accesses = s.accesses := by
  unfold addHold
  dsimp only
  rw [updPart_accesses, homeWrote_accesses]
  show (s.homeReads _ _).accesses = s.accesses
  exact upToHomes_accesses (homeReads_homes ..)

theorem holdFor_rest (s : State) (gid : Nat) (r : DWord) (up : Bool) :
    UpToLayers s (s.holdFor gid r up) ∧ (s.holdFor gid r up).accesses = s.accesses := by
  unfold holdFor
  (repeat' split)
  · exact ⟨upToLayers_of_parts rfl, rfl⟩
  · exact ⟨upToLayers_of_parts rfl, rfl⟩
  · exact ⟨(addHold_upToLayers s _ _ _ up).trans (upToLayers_of_parts rfl), addHold_accesses s _ _ _ up⟩

/-- A withdrawn LAYACQ gives its hold count back (R332). -/
theorem dropAcquire_rest (s : State) (a : Access) : UpToLayers s (s.dropAcquire a) ∧ (s.dropAcquire a).accesses = s.accesses := by
  unfold dropAcquire
  split
  · exact holdFor_rest s a.gang a.addr false
  · exact holdFor_rest s a.gang a.addr false
  · exact ⟨upToLayers_of_parts rfl, rfl⟩

theorem foldl_dropAcquire_rest (l : List Access) (s : State) :
    UpToLayers s (l.foldl dropAcquire s) ∧ (l.foldl dropAcquire s).accesses = s.accesses :=
  List.foldlRecOn (motive := fun t => UpToLayers s t ∧ t.accesses = s.accesses) _ _ ⟨upToLayers_of_parts rfl, rfl⟩
    fun t ht a _ => ⟨ht.1.trans (dropAcquire_rest t a).1, (dropAcquire_rest t a).2.trans ht.2⟩

end State

/-- The PC and V of a fibre. -/
def Ctl.place (c : Ctl) : DWord × Bool := (c.pc, c.v)

namespace State

theorem withdraw_gangs (s : State) (g : Gang) : (s.withdraw g).gangs = s.gangs :=
  (keepsTenants_foldl dropAcquire_keepsTenants _ s).1

theorem withdraw_upToLayers (s : State) (g : Gang) : UpToLayers s (s.withdraw g) := (foldl_dropAcquire_rest _ s).1

/-- The records of withdrawn accesses stand in control parts of the gang's live fibres (R175). -/
theorem withdraw_upToCtls (s : State) (g : Gang) : UpToCtls s (s.withdraw g) g.id Ctl.place := by
  unfold withdraw
  dsimp only
  have hdrop : UpToCtls s ((s.accesses.filter (fun a => a.gang == g.id && a.withdrawable)).foldl dropAcquire s) g.id Ctl.place :=
    upToCtls_of_fibres (keepsTenants_foldl dropAcquire_keepsTenants _ s).2.1
  refine UpToCtls.trans (hdrop.trans (setAccesses_upToCtls _ _)) (upToCtls_updCtls (fun k hk => ?_) (fun k c => ?_))
  · obtain ⟨a, ha, rfl⟩ := List.mem_map.1 hk
    obtain ⟨j, hj, hfind⟩ := List.mem_filterMap.1 ha
    split at hfind
    · exact absurd hfind (by simp)
    · have hja : a.fibre = j := by simpa using List.find?_some hfind
      rw [← hdrop.liveOf] at hj
      exact hja ▸ hj
  · split <;> rfl

/-- None of the gang's waits is left to withdraw. -/
theorem withdraw_withdrawable {s : State} {g : Gang} {a : Access} (ha : a ∈ (s.withdraw g).accesses) (hg : a.gang = g.id) :
    a.withdrawable = false := by
  unfold withdraw at ha
  dsimp only at ha
  rw [updCtls_accesses] at ha
  obtain ⟨x, hx, rfl⟩ := List.mem_map.1 ha
  rw [(foldl_dropAcquire_rest _ s).2] at hx
  by_cases hnow : (s.accesses.filter (fun a => a.gang == g.id && a.withdrawable)).any (fun y => y.id == x.id) = true
  · rw [if_pos hnow]
    rfl
  · rw [if_neg hnow] at hg ⊢
    by_contra hwait
    refine hnow (List.any_eq_true.2 ⟨x, List.mem_filter.2 ⟨hx, ?_⟩, beq_self_eq_true _⟩)
    simpa [hg] using hwait

/-! ### The drain begins (steps 1 and 2 of R173) -/

theorem startDrain_gang {s : State} {g : Gang} (hg : s.gang g.id = some g) :
    (s.startDrain g).gang g.id = some { g with phase := .draining } := by
  unfold startDrain
  dsimp only
  rw [gang, withdraw_gangs]
  exact gang_setGang (g := g) (s := s.updCtls _ _) hg rfl

theorem startDrain_upToCtls (s : State) (g : Gang) : UpToCtls s (s.startDrain g) g.id Ctl.place := by
  unfold startDrain
  dsimp only
  refine UpToCtls.trans ?_ (withdraw_upToCtls _ _)
  refine UpToCtls.trans (upToCtls_updCtls (fun _ hk => hk) ?_) (setGang_upToCtls _ _)
  exact fun _ _ => rfl

theorem exec_preemptTrap_of_preempting {s : State} {g : Gang} (hg : s.gang g.id = some g) (hphase : g.phase = .preempting)
    (hstopped : s.issueStopped g = true) : exec (.preemptTrap g.id) s = .next (s.startDrain g) := by
  simp [exec, execPreemptTrap, hg, hphase, hstopped, ev]

theorem exec_preemptTrap_of_draining {s : State} {g : Gang} (hg : s.gang g.id = some g) (hphase : g.phase = .draining)
    (hdrained : s.drained g = true) : exec (.preemptTrap g.id) s = .next (s.enterSave g) := by
  simp [exec, execPreemptTrap, hg, hphase, hdrained, ev]

end State

/-! ### The entry to the save routine (step 5 of R173) -/

theorem perm_insertBy (key : Nat → Nat) (k : Nat) (l : List Nat) : (insertBy key k l).Perm (k :: l) := by
  induction l with
  | nil => exact .refl _
  | cons x l ih =>
    rw [insertBy]
    split
    · exact .refl _
    · exact (ih.cons x).trans (.swap k x l)

theorem perm_sortBy (key : Nat → Nat) (l : List Nat) : (sortBy key l).Perm l := by
  induction l with
  | nil => exact .refl _
  | cons x l ih => exact (perm_insertBy key x _).trans (ih.cons x)

/-- The trap that sends a fibre at pc to the save routine (R173). -/
def saveTrap (pc : DWord) : Trap := { cls := 0x40, cause := 0, pc := pc, addr := 0, flags := 0 }

/-- A fibre has entered the save routine at its save block (R171, R173, R312). -/
def Fibre.EnteredSave (f t : Fibre) (hd : Handlers) : Prop :=
  t.regs = f.regs ∧ t.preds = f.preds ∧ t.ctl.pkt = hd.save ∧ t.ctl.slot = 0 ∧ t.ctl.h = true ∧ t.ctl.v = true ∧
    t.ctl.tcause = 0x40 ∧ t.ctl.taddr = hd.saveBlock ∧ t.ctl.shadow.regs = (List.range 8).map f.regN ∧ t.ctl.saving = true

theorem trapClass_saveTrap (hd : Handlers) (h : Bool) (pc : DWord) : trapClass hd h (saveTrap pc) = (0x40, 0, 0) :=
  trapClass_of_own (fun hm => absurd hm.1 (lt_irrefl _)) (fun hn => absurd hn.1 (lt_irrefl _))

theorem Fibre.enter_enteredSave (f : Fibre) (hd : Handlers) (lane : Nat) (pc resume : DWord) :
    f.EnteredSave (f.enter hd (saveTrap pc) lane 0 resume) hd := by
  have hclass := trapClass_saveTrap hd f.ctl.h pc
  refine ⟨rfl, rfl, ?pkt, rfl, rfl, ?v, ?tcause, rfl, ?shadow, ?saving⟩
  case pkt => rw [enter_pkt, hclass, if_pos rfl]
  case v => simp [enter_v, hclass]
  case tcause => exact enter_tcause hd _ lane 0 resume f hclass
  case shadow => rw [enter_shadow, hclass, if_pos le_rfl]; rfl
  case saving => simp [enter, hclass]

namespace State

/-- The fibres A of gang gid have entered the save routine, and nothing differs else but what `UpToBands` leaves open. -/
structure SentToSave (s t : State) (gid : Nat) (A : Nat → Prop) : Prop where
  rest : UpToBands s t
  length : t.fibres.length = s.fibres.length
  entered : ∀ k, A k → (s.fibre k).EnteredSave (t.fibre k) (s.handlers gid)
  others : ∀ k, ¬ A k → t.fibre k = s.fibre k

/-- A live fibre of gang gid outside the system handler. -/
def Savable (s : State) (gid k : Nat) : Prop := k ∈ s.liveOf gid ∧ (s.fibre k).ctl.v = false

theorem SentToSave.congr {s t : State} {gid : Nat} {A B : Nat → Prop} (h : SentToSave s t gid A) (hAB : ∀ k, A k ↔ B k) :
    SentToSave s t gid B := by
  rwa [show A = B from funext fun k => propext (hAB k)] at h

/-- Fibres that trap together, all at one PC. -/
theorem takeTrap_sentToSave {s : State} {gid : Nat} {m : List Nat} (hm : m.Nodup) (hs : ∀ k ∈ m, s.Savable gid k) (pc : DWord) :
    SentToSave s (s.takeTrap (m.map (fun k => (k, saveTrap pc, pc))) none 0) gid (· ∈ m) := by
  set ks := m.map (fun k => (k, saveTrap pc, pc))
  have hids : ks.map (·.1) = m := by simp [ks, Function.comp_def]
  have hmem : ∀ x ∈ ks, x.1 ∈ m ∧ x = (x.1, saveTrap pc, pc) := fun x hx => by
    obtain ⟨k, hk, rfl⟩ := List.mem_map.1 hx
    exact ⟨hk, rfl⟩
  have hlive : ∀ x ∈ ks, x.1 < s.fibres.length ∧ (s.fibre x.1).live = true ∧ (s.fibre x.1).gang = gid := fun x hx =>
    mem_liveOf.1 (hs x.1 (hmem x hx).1).1
  have htook : TookBands s (s.takeTrap ks none 0) (s.handlers gid) ks none 0 (ks.map (fun x => s.takenAs x.1 x.2.1)).dedup :=
    tookBands_foldl (fun x hx => (hlive x hx).1) (hids ▸ hm) (fun x hx => (hlive x hx).2.1) (fun x hx => (hlive x hx).2.2)
      (fun x hx => (hs x.1 (hmem x hx).1).2) none 0 _ (List.nodup_dedup _) (fun c hc => takenBand_ne_nil (List.mem_dedup.1 hc))
  constructor
  case rest => exact htook.rest
  case length => exact htook.length
  case entered =>
    intro k hk
    have hx : (k, saveTrap pc, pc) ∈ ks := List.mem_map_of_mem hk
    rw [htook.entered _ (List.mem_dedup.2 (List.mem_map_of_mem (f := fun x => s.takenAs x.1 x.2.1) hx)) _ (mem_takenBand.2 ⟨hx, rfl⟩)]
    exact Fibre.enter_enteredSave ..
  case others =>
    exact fun k hk => htook.others k (fun c _ hkc => hk (hids ▸ (List.filter_sublist.map _).subset hkc))

/-- Disjoint groups of fibres, one after another. -/
theorem foldl_sentToSave {α : Type} {f : State → α → State} {grp : α → Nat → Prop} {s : State} {gid : Nat}
    (hdisjoint : ∀ c d k, grp c k → grp d k → c = d)
    (hstep : ∀ c t, t.fibres.length = s.fibres.length → (∀ k, grp c k → t.fibre k = s.fibre k) → SentToSave t (f t c) gid (grp c))
    (cs : List α) (hcs : cs.Nodup) : SentToSave s (cs.foldl f s) gid (fun k => ∃ c ∈ cs, grp c k) := by
  induction cs using List.reverseRecOn with
  | nil => exact ⟨rfl, rfl, by simp, fun _ _ => rfl⟩
  | append_singleton cs c ih =>
    obtain ⟨hold, -, hnew⟩ := List.nodup_append.1 hcs
    have h := ih hold
    have hapart : ∀ k, grp c k → ¬ ∃ d ∈ cs, grp d k := fun k hk ⟨d, hd, hkd⟩ => hnew d hd c (by simp) (hdisjoint d c k hkd hk)
    have hone := hstep c _ h.length (fun k hk => h.others k (hapart k hk))
    rw [List.foldl_append]
    constructor
    case rest => exact upToBands_trans h.rest hone.rest
    case length => exact hone.length.trans h.length
    case entered =>
      rintro k ⟨d, hd, hk⟩
      by_cases hkc : grp c k
      · have hin := hone.entered k hkc
        rwa [h.rest.handlers, h.others k (hapart k hkc)] at hin
      · have hdc : d ∈ cs := (List.mem_append.1 hd).resolve_right fun hm => hkc (List.mem_singleton.1 hm ▸ hk)
        have hin := h.entered k ⟨d, hdc, hk⟩
        rwa [← hone.others k hkc] at hin
    case others =>
      intro k hk
      exact (hone.others k (fun hkc => hk ⟨c, by simp, hkc⟩)).trans
        (h.others k (fun ⟨d, hd, hkd⟩ => hk ⟨d, List.mem_append_left _ hd, hkd⟩))

/-- Those of a crew at one PC trap together (R173, R381), as they stood in s. -/
def saveBand (s : State) (band : List Nat) (t : State) (pc : DWord) : State :=
  t.takeTrap ((sortBy (fun k => (s.fibre k).idx) (band.filter (fun k => (s.fibre k).ctl.pc == pc))).map
    (fun k => (k, saveTrap pc, pc))) none 0

/-- The live fibres of a crew trap, PC by PC. -/
def saveCrew (s : State) (ks : List Nat) (t : State) (crew : Nat) : State :=
  let band := ks.filter (fun k => (s.fibre k).crew == crew)
  ((band.map (fun k => (s.fibre k).ctl.pc)).dedup).foldl (s.saveBand band) t

/-- Live fibres trap, crew by crew. -/
def saveAll (s : State) (ks : List Nat) : State := ((ks.map (fun k => (s.fibre k).crew)).dedup).foldl (s.saveCrew ks) s

section Save
variable {s t : State} {gid : Nat} {ks : List Nat} (hlength : t.fibres.length = s.fibres.length)
include hlength

theorem savable_of_fibre {k : Nat} (h : s.Savable gid k) (hk : t.fibre k = s.fibre k) : t.Savable gid k := by
  obtain ⟨hlive, hv⟩ := h
  rw [mem_liveOf] at hlive
  exact ⟨mem_liveOf.2 (by rwa [hlength, hk]), by rwa [hk]⟩

variable (hks : ks.Nodup) (hs : ∀ k ∈ ks, s.Savable gid k)
include hks hs

theorem saveBand_sentToSave {pc : DWord} (hsame : ∀ k, k ∈ ks ∧ (s.fibre k).ctl.pc = pc → t.fibre k = s.fibre k) :
    SentToSave t (s.saveBand ks t pc) gid (fun k => k ∈ ks ∧ (s.fibre k).ctl.pc = pc) := by
  have hmem : ∀ k, k ∈ sortBy (fun k => (s.fibre k).idx) (ks.filter (fun k => (s.fibre k).ctl.pc == pc)) ↔
      k ∈ ks ∧ (s.fibre k).ctl.pc = pc := fun k => by simp
  refine (takeTrap_sentToSave ((perm_sortBy _ _).nodup_iff.2 (hks.filter _)) (fun k hk => ?_) pc).congr hmem
  exact savable_of_fibre hlength (hs k ((hmem k).1 hk).1) (hsame k ((hmem k).1 hk))

theorem saveCrew_sentToSave {crew : Nat} (hsame : ∀ k, k ∈ ks ∧ (s.fibre k).crew = crew → t.fibre k = s.fibre k) :
    SentToSave t (s.saveCrew ks t crew) gid (fun k => k ∈ ks ∧ (s.fibre k).crew = crew) := by
  set band := ks.filter (fun k => (s.fibre k).crew == crew) with hband
  have hmem : ∀ k, k ∈ band ↔ k ∈ ks ∧ (s.fibre k).crew = crew := fun k => by simp [hband]
  refine SentToSave.congr (foldl_sentToSave (grp := fun pc k => k ∈ band ∧ (s.fibre k).ctl.pc = pc)
    (fun c d k hc hd => hc.2.symm.trans hd.2) (fun pc u hu hsame' => ?_) _ (List.nodup_dedup _)) (fun k => ?_)
  · exact saveBand_sentToSave (hu.trans hlength) (hks.filter _) (fun k hk => hs k ((hmem k).1 hk).1)
      (fun k hk => (hsame' k hk).trans (hsame k ((hmem k).1 hk.1)))
  · rw [← hmem]
    exact ⟨fun ⟨_, _, hk, _⟩ => hk, fun hk => ⟨_, List.mem_dedup.2 (List.mem_map_of_mem hk), hk, rfl⟩⟩

omit hlength

theorem saveAll_sentToSave : SentToSave s (s.saveAll ks) gid (· ∈ ks) := by
  refine SentToSave.congr (foldl_sentToSave (grp := fun crew k => k ∈ ks ∧ (s.fibre k).crew = crew)
    (fun c d k hc hd => hc.2.symm.trans hd.2) (fun crew u hu hsame => saveCrew_sentToSave hu hks hs hsame) _ (List.nodup_dedup _))
    (fun k => ?_)
  exact ⟨fun ⟨_, _, hk, _⟩ => hk, fun hk => ⟨_, List.mem_dedup.2 (List.mem_map_of_mem hk), hk, rfl⟩⟩

end Save

theorem pendTraps_v (c : Ctl) : (pendTraps c).v = c.v := by
  unfold pendTraps
  (repeat' split) <;> rfl

/-- The gang saves: its waits are withdrawn, what was due in its live fibres is pending (step 4 of R173), and its phase says so. -/
structure ReadyToSave (s t : State) (g : Gang) : Prop where
  ctls : UpToCtls s t g.id (fun c => c.v)
  gang : t.gang g.id = some { g with phase := .saving }
  handlers : t.handlers g.id = s.handlers g.id

/-- Saving changes none of the handlers (R171, R312). -/
theorem handlers_setGang_saving {s : State} {g : Gang} (hg : s.gang g.id = some g) :
    (s.setGang { g with phase := .saving }).handlers g.id = s.handlers g.id := by
  rw [handlers, handlers, gang_setGang (h := { g with phase := .saving }) hg rfl, hg]
  rfl

/-- The entry to the save routine, crew by crew, from the state in which the gang saves; or at once where it has no live fibre (R173). -/
theorem enterSave_eq {s : State} {g : Gang} (hg : s.gang g.id = some g) : ∃ t, ReadyToSave s t g ∧
    s.enterSave g = if s.liveOf g.id = [] then t.gangSaved g.id else t.saveAll (s.liveOf g.id) := by
  have hwithdraw := s.withdraw_upToCtls g
  have hgw : (s.withdraw g).gang g.id = some g := by rw [State.gang, withdraw_gangs]; exact hg
  have hhandlers : (s.withdraw g).handlers g.id = s.handlers g.id := (withdraw_upToLayers s g).handlers (withdraw_gangs s g) g.id
  unfold enterSave
  dsimp only
  rw [hwithdraw.liveOf]
  generalize hs4 : State.updCtls _ _ _ = s4
  have hctls : UpToCtls (s.withdraw g) s4 g.id (fun c => c.v) := by
    rw [← hs4]
    refine UpToCtls.trans (setAccesses_upToCtls _ _) (upToCtls_updCtls (fun k hk => ?_) (fun k c => ?_))
    · rwa [← hwithdraw.liveOf] at hk
    · split <;> exact pendTraps_v c
  have hg4 : s4.gang g.id = some g := by rw [← hs4]; exact hgw
  have hh4 : s4.handlers g.id = s.handlers g.id := by rw [← hs4, ← hhandlers]; rfl
  refine ⟨s4.setGang { g with phase := .saving }, ⟨?_, gang_setGang hg4 rfl, (handlers_setGang_saving hg4).trans hh4⟩, ?_⟩
  · exact ((hwithdraw.map Prod.snd).trans hctls).trans (setGang_upToCtls _ _)
  · cases s.liveOf g.id <;> rfl

end State

/-- A gang that is saved with no live fibre (R173, R178). -/
def Gang.savedEmpty (g : Gang) (now : Nat) : Gang := { g with phase := .saved, savedLive := [], waitSince := now }

namespace State

theorem updFibres_nil_keepsTenants (s : State) (f : Nat → Fibre → Fibre) : KeepsTenants s ((s.unband []).updFibres [] f) :=
  ⟨rfl, List.ext_getElem? (by simp [updFibres, unband]), rfl⟩

/-- A gang that saves and has no live fibre is saved at once (R173). -/
theorem gangSaved_of_empty {s : State} {g : Gang} (hg : s.gang g.id = some g) (hphase : g.phase = .saving) (hnone : s.liveOf g.id = []) :
    KeepsTenants (s.setGang (g.savedEmpty s.time)) (s.gangSaved g.id) := by
  have hclear : ∀ f, KeepsTenants (s.setGang (g.savedEmpty s.time))
      ((((s.setGang (g.savedEmpty s.time)).unband []).updFibres [] f).clearDeques g) := fun f =>
    (updFibres_nil_keepsTenants _ f).trans (clearDeques_keepsTenants ..)
  unfold gangSaved
  rw [hg]
  simp only [hnone, hphase, List.all_nil, beq_self_eq_true, Bool.and_self, if_true, List.map_nil]
  split
  · exact hclear _
  · exact (hclear _).trans ⟨rfl, rfl, rfl⟩

theorem liveOf_nodup (s : State) (gid : Nat) : (s.liveOf gid).Nodup := List.nodup_range.filter _

end State

/-- Settles O48: the decision by its guards; the drain by what the withdrawal leaves; the entry crew by crew and PC by PC. -/
theorem preemptionTakesVictims : Obligations.PreemptionTakesVictims := by
  unfold Obligations.PreemptionTakesVictims
  intro s
  refine ⟨fun p w v hserving hdecision hblocks => State.exec_preemptDecision hserving hdecision hblocks,
    fun g hg hphase hstopped => ?drain, fun g hg hphase hdrained hv => ?save⟩
  case drain =>
    refine ⟨_, State.exec_preemptTrap_of_preempting hg hphase hstopped, State.startDrain_gang hg,
      fun a ha hga => State.withdraw_withdrawable ha hga, fun k => ?_⟩
    have hctls := s.startDrain_upToCtls g
    have hplace : ((s.startDrain g).fibre k).ctl.place = (s.fibre k).ctl.place := hctls.same k
    rw [hctls.fibre k]
    exact ⟨rfl, rfl, congrArg Prod.fst hplace⟩
  case save =>
    obtain ⟨t, ⟨hctls, hgang, hhandlers⟩, heq⟩ := State.enterSave_eq hg
    have hexec := State.exec_preemptTrap_of_draining hg hphase hdrained
    by_cases hnone : s.liveOf g.id = []
    · obtain ⟨hgangs, hfibres, -⟩ := State.gangSaved_of_empty (g := { g with phase := .saving }) hgang rfl (by rwa [hctls.liveOf])
      rw [heq, if_pos hnone] at hexec
      refine ⟨_, g.savedEmpty t.time, hexec, ?_, by rw [if_pos hnone]; rfl, by simp [hnone], fun k hk => ?_⟩
      · rw [State.gang, hgangs]
        exact State.gang_setGang (g := { g with phase := .saving }) hgang rfl
      · rw [State.fibre_of_fibres (s := t) hfibres, hctls.others k hk]
    · have hsent : State.SentToSave t (t.saveAll (s.liveOf g.id)) g.id (· ∈ s.liveOf g.id) :=
        State.saveAll_sentToSave (s.liveOf_nodup g.id) fun k hk => ⟨by rwa [hctls.liveOf], (hctls.same k).trans (hv k hk)⟩
      rw [heq, if_neg hnone] at hexec
      refine ⟨_, { g with phase := .saving }, hexec, ?_, by rw [if_neg hnone], fun k hk => ?_,
        fun k hk => (hsent.others k hk).trans (hctls.others k hk)⟩
      · rw [State.gang, hsent.rest.gangs]
        exact hgang
      · have hin := hsent.entered k hk
        rw [hhandlers, hctls.fibre k] at hin
        exact hin

end Sys2Proof.Machine

/-! ## Grants of the matrix engine (R192, R200 to R208, R292) -/

namespace Sys2Proof.Machine

namespace State

/-! ### What an engine's turns leave alone -/

/-- An engine's turns at the slices and banks change only the records of the last turn there. -/
theorem engineTook_eq (s : State) (p cluster bank : Nat) (keys : List Nat) :
    s.engineTook p cluster bank keys = { s with
      sliceLast := (s.engineTook p cluster bank keys).sliceLast, bankLast := (s.engineTook p cluster bank keys).bankLast } := by
  unfold engineTook
  refine List.foldlRecOn (motive := fun t : State => t = { s with sliceLast := t.sliceLast, bankLast := t.bankLast }) _ _
    (List.foldlRecOn (motive := fun t : State => t = { s with sliceLast := t.sliceLast, bankLast := t.bankLast }) _ _ rfl ?slice) ?bank
  case slice => exact fun t ht sl _ => by rw [ht]; rfl
  case bank => exact fun t ht c _ => by rw [ht]; rfl

@[simp] theorem engineTook_clusters (s : State) (p cluster bank : Nat) (keys : List Nat) :
    (s.engineTook p cluster bank keys).clusters = s.clusters := by rw [engineTook_eq]

@[simp] theorem engineTook_gangs (s : State) (p cluster bank : Nat) (keys : List Nat) :
    (s.engineTook p cluster bank keys).gangs = s.gangs := by rw [engineTook_eq]

@[simp] theorem engineTook_accesses (s : State) (p cluster bank : Nat) (keys : List Nat) :
    (s.engineTook p cluster bank keys).accesses = s.accesses := by rw [engineTook_eq]

/-! ### One grant (R206) -/

/-- The matrix engine of j's cluster grants job j, a command of operation `op`. -/
structure Granting (s : State) (j : Job) (op : Nat) : Prop where
  found : s.job j.id = some j
  matrix : j.kind = .matrix
  mop : (mcard j.card).op = op
  first : (s.granted j.cluster).map (·.id) = some j.id

/-- The error a grant ends a command with: its check's at the first grant, and 7 where an MMA's pass meets a lost word. -/
def grantError (s : State) (j : Job) : Nat :=
  let check := if j.phase == .queued then s.jobCheck j else 0
  if check == 0 && (mcard j.card).op == 0 && s.passLost j then 7 else check

/-- The state after a grant, its next one 8 cycles away (R192). -/
def grantTaken (s : State) (j : Job) : State :=
  s.updCluster j.cluster (fun c => { c with grantAt := (s.cluster j.cluster).cycle + 8 })

/-- The state a granted pass works on: the engine has its turn at the banks its operands are in. -/
def passStart (s : State) (j : Job) : State := (s.grantTaken j).engineTook j.part j.cluster 5 (s.operandKeys j)

/-- A granted command that ends with error e, a loss counted (R350, R354). -/
def grantFailed (s : State) (j : Job) (e : Nat) : State :=
  (if e = 7 then (s.grantTaken j).noteLoss j.cluster 2 else s.grantTaken j).failJob j e

@[simp] theorem passStart_mem (s : State) (j : Job) : (s.passStart j).mem = s.mem := engineTook_mem ..

@[simp] theorem passStart_gangs (s : State) (j : Job) : (s.passStart j).gangs = s.gangs := engineTook_gangs ..

@[simp] theorem passStart_cycle (s : State) (j : Job) : ((s.passStart j).cluster j.cluster).cycle = (s.cluster j.cluster).cycle := by
  simp only [passStart, grantTaken, cluster, engineTook_clusters, updCluster_clusters, List.getD_eq_getElem?_getD, List.getElem?_modify]
  cases s.clusters[j.cluster]? <;> simp

theorem grantError_of_check {s : State} {j : Job} (hphase : j.phase = .queued) (hcheck : s.jobCheck j ≠ 0) :
    s.grantError j = s.jobCheck j := by
  simp [grantError, hphase, hcheck]

theorem grantError_of_checked {s : State} {j : Job} (hcheck : j.phase = .queued → s.jobCheck j = 0) :
    s.grantError j = if (mcard j.card).op = 0 ∧ s.passLost j = true then 7 else 0 := by
  by_cases hphase : j.phase = .queued
  · simp [grantError, hphase, hcheck hphase]
  · simp [grantError, hphase]

section
variable {s : State} {j : Job} {g : Gang} {op : Nat} (h : s.Granting j op)
include h

theorem Granting.grant_eq (pass : State → Job → Gang → State) : s.grant op j.id pass =
    if s.grantError j = 0 then j.gang.bind fun gid => (s.gang gid).map (pass (s.passStart j) j)
    else some (s.grantFailed j (s.grantError j)) := by
  obtain ⟨hfound, hkind, rfl, hfirst⟩ := h
  have hguard : (j.kind != .matrix || (mcard j.card).op != (mcard j.card).op || (s.granted j.cluster).map (·.id) != some j.id) = false := by
    simp [hkind, hfirst]
  simp only [grant, hfound, hguard, Bool.false_eq_true, if_false]
  unfold grantFailed
  by_cases herr : s.grantError j = 0
  · rw [if_pos herr]
    exact (if_neg (by simpa [grantError] using herr)).trans (by cases j.gang <;> rfl)
  · rw [if_neg herr]
    exact (if_pos (by simpa [grantError] using herr)).trans (by simp [grantError, grantTaken])

theorem Granting.grant_failed (pass : State → Job → Gang → State) (herr : s.grantError j ≠ 0) :
    s.grant op j.id pass = some (s.grantFailed j (s.grantError j)) := by
  rw [h.grant_eq, if_neg herr]

theorem Granting.grant_passes (pass : State → Job → Gang → State) (hgang : j.gang = some g.id) (hg : s.gang g.id = some g)
    (herr : s.grantError j = 0) : s.grant op j.id pass = some (pass (s.passStart j) j g) := by
  rw [h.grant_eq, if_pos herr, hgang, Option.bind_some, hg, Option.map_some]

end

/-! ### The passes of the three operations (R201, R205) -/

/-- What a granted pass leaves: the bank, the time at which it is free, and the command, which runs. -/
def passed (s : State) (j : Job) (g : Gang) (bank : List Word) (busy : Nat) (y : Job) : State :=
  ((s.passStart j).setBank g (mcard j.card).bank bank busy).setJob
    { y with phase := .running, since := (s.cluster j.cluster).cycle, raised := none }

theorem passed_eq (s : State) (j : Job) (g : Gang) (bank : List Word) (busy : Nat) (y : Job) : s.passed j g bank busy y =
    { s.passStart j with
      gangs := s.gangs.map (fun x => if x.id == g.id then
        { g with banks := g.banks.set (mcard j.card).bank bank, bankBusy := g.bankBusy.set (mcard j.card).bank busy } else x)
      jobs := (s.passStart j).jobs.map (fun x => if x.id == y.id then
        { y with phase := .running, since := (s.cluster j.cluster).cycle, raised := none } else x) } := by
  rw [← passStart_gangs s j]
  rfl

theorem not_draining_of_queued {j : Job} (h : j.phase = .queued) : draining j = false := by
  simp [draining, h]

section
variable {s : State} {j : Job} {g : Gang}

/-- A grant that ends a command does so whatever the command's operation. -/
theorem Granting.exec_failed {op : Nat} {i : Instr} (h : s.Granting j op)
    (hi : op = 0 ∧ i = .mma j.id ∨ op = 1 ∧ i = .drain j.id ∨ op = 2 ∧ i = .prime j.id) (hdrain : op = 1 → j.phase = .queued)
    (herr : s.grantError j ≠ 0) : exec i s = .next (s.grantFailed j (s.grantError j)) := by
  obtain ⟨rfl, rfl⟩ | ⟨rfl, rfl⟩ | ⟨rfl, rfl⟩ := hi
  · simp only [exec, execMma, h.grant_failed _ herr, ev]
  · simp [exec, execDrain, h.found, not_draining_of_queued (hdrain rfl), h.grant_failed _ herr, ev]
  · simp only [exec, execPrime, h.grant_failed _ herr, ev]

variable (hgang : j.gang = some g.id) (hg : s.gang g.id = some g) (herr : s.grantError j = 0)
include hgang hg herr

theorem Granting.exec_mma (h : s.Granting j 0) :
    let r := (s.passStart j).mmaPass j (if (mcard j.card).z = true ∧ j.pos = 0 then zeroBank else bankOf g (mcard j.card).bank)
    exec (.mma j.id) s = .next (s.passed j g r.1 ((s.cluster j.cluster).cycle + 8 + ((s.passStart j).passOutliers j + 3) / 4)
      { j with pos := j.pos + 1, flags := j.flags ||| r.2, stream := j.stream.drop 1 }) := by
  simp only [exec, execMma, h.grant_passes _ hgang hg herr, ev, passStart_cycle, Bool.and_eq_true, beq_iff_eq, passed]

theorem Granting.exec_drain (h : s.Granting j 1) (hphase : j.phase = .queued) :
    let bank := bankOf g (mcard j.card).bank
    exec (.drain j.id) s = .next (s.passed j g (if (mcard j.card).z = true then zeroBank else bank) ((s.cluster j.cluster).cycle + 8)
      { j with pos := 1, stream := (List.range 256).map fun i => (List.range 16).map fun w =>
        (16 * i + w, (bank.getD (16 * i + w) 0).toNat) }) := by
  simp only [exec, execDrain, h.found, not_draining_of_queued hphase, Bool.false_eq_true, if_false, h.grant_passes _ hgang hg herr, ev,
    passStart_cycle, passed]

theorem Granting.exec_prime (h : s.Granting j 2) {k : Nat}
    (hk : (s.passStart j).cardScratch j.gang j.wg (mcard j.card).a 16384 = some k) :
    exec (.prime j.id) s = .next (s.passed j g ((List.range 4096).map fun i => BitVec.ofNat 32 (s.mem.read (k + 4 * i) 4))
      ((s.cluster j.cluster).cycle + 8) { j with pos := 1 }) := by
  simp only [exec, execPrime, h.grant_passes _ hgang hg herr, hk, ev, passStart_cycle, passStart_mem, passed]

end

/-! ### The lines of a DRAIN (R205, R292) -/

theorem pick_lt (s : State) {n : Nat} (h : 0 < n) : (s.pick n).1 < n := Nat.mod_lt _ h

theorem exec_drain_line {s : State} {j : Job} (hj : s.job j.id = some j) (h : draining j = true) :
    exec (.drain j.id) s = .next (s.drainLine j) := by
  simp [exec, execDrain, hj, h, ev]

theorem stream_length_pos_of_draining {j : Job} (h : draining j = true) : 0 < j.stream.length := by
  simp only [draining, Bool.and_eq_true, Bool.not_eq_true', List.isEmpty_eq_false_iff] at h
  obtain ⟨⟨-, hstream⟩, -⟩ := h
  exact List.length_pos_iff.2 hstream

/-- With nobody waiting an engine's write changes the memory, whose words it sets full, and the words of SRAM it heals. -/
theorem engineWrite_calm {s : State} (h : s.calm) (key : Nat) (bytes : List Byte) : ∃ sram, s.engineWrite key bytes = { s with
    mem := (s.mem.writeBytes key bytes).setFulls (key / 8) true (bytes.length / 8), sram := sram } := by
  refine ⟨_, scanKeys_calm ?_ _⟩
  exact calm_of_accesses h fun _ ha => .inl ha

/-- The state in which a DRAIN writes a line: the line is no longer among those to write, and the engine has its turn at the bank. -/
def lineTaken (s : State) (j : Job) : State :=
  ((s.pick j.stream.length).2.setJob { j with stream := j.stream.eraseIdx (s.pick j.stream.length).1 }).engineTook j.part j.cluster 5
    (s.operandKeys j)

theorem lineTaken_accesses (s : State) (j : Job) : (s.lineTaken j).accesses = s.accesses := engineTook_accesses ..

/-- A DRAIN's line is written to scratch as full words, at the place of its first word. -/
theorem drainLine_calm {s : State} {j : Job} {k : Nat} (h : s.calm) (hk : s.cardScratch j.gang j.wg (mcard j.card).a 16384 = some k) :
    let line := j.stream.getD (s.pick j.stream.length).1 []
    let key := k + 4 * (line.headD (0, 0)).1
    let bytes := (line.map fun w => bytesOfNat 4 w.2).flatten
    ∃ sram, s.drainLine j = { s.lineTaken j with
      mem := ((s.lineTaken j).mem.writeBytes key bytes).setFulls (key / 8) true (bytes.length / 8), sram := sram } := by
  unfold drainLine
  rw [hk]
  exact engineWrite_calm (s := s.lineTaken j) (calm_of_accesses h fun a ha => .inl (s.lineTaken_accesses j ▸ ha)) _ _

end State

/-- Settles O51: a grant by what it ends a command with, a pass by its operation, and a line of a DRAIN by the free value. -/
theorem matrixGrantsComplete : Obligations.MatrixGrantsComplete := by
  unfold Obligations.MatrixGrantsComplete
  intro s j g hj hkind hgang hg
  refine ⟨fun hfirst => ?grant, fun k hdraining hk hcalm => ?line⟩
  case grant =>
    have hgrant : ∀ op, (mcard j.card).op = op → s.Granting j op := fun op hop => ⟨hj, hkind, hop, hfirst⟩
    refine ⟨fun i hi hphase hcheck => ?_, fun hchecked => ⟨fun hop hlost => ?_, fun hop hintact => ?_, fun hop hphase => ?_,
      fun k hop hk => ?_⟩⟩
    · have herr := State.grantError_of_check hphase hcheck
      rw [(hgrant _ rfl).exec_failed hi (fun _ => hphase) (herr ▸ hcheck), herr]
      rfl
    all_goals have herr := State.grantError_of_checked hchecked
    · rw [if_pos ⟨hop, hlost⟩] at herr
      rw [(hgrant 0 hop).exec_failed (.inl ⟨rfl, rfl⟩) (absurd · (by decide)) (by omega), herr]
      rfl
    · rw [(hgrant 0 hop).exec_mma hgang hg (by simp [herr, hintact]), State.passed_eq]
      rfl
    · rw [(hgrant 1 hop).exec_drain hgang hg (by simp [herr, hop]) hphase, State.passed_eq]
      rfl
    · rw [(hgrant 2 hop).exec_prime hgang hg (by simp [herr, hop]) hk, State.passed_eq]
      rfl
  case line =>
    obtain ⟨sram, hline⟩ := State.drainLine_calm hcalm hk
    refine ⟨_, (s.pick j.stream.length).1, State.exec_drain_line hj hdraining,
      s.pick_lt (State.stream_length_pos_of_draining hdraining), ?_⟩
    rw [hline, State.lineTaken, State.engineTook_eq]
    exact ⟨rfl, rfl, rfl, rfl⟩

end Sys2Proof.Machine

/-! ## Host writes to the physical function's and the partitions' registers (R237, R238, R249, R356, R359) -/

namespace Sys2Proof.Machine

/-! ### What a value's upper bits say -/

/-- The bits from n on are 0 in the values below 2 ^ n. -/
theorem extractLsb'_top_eq_zero_iff {n m : Nat} (hwidth : n + m = 64) (v : DWord) : v.extractLsb' n m = 0 ↔ v.toNat < 2 ^ n := by
  have hlt : v.toNat / 2 ^ n < 2 ^ m := Nat.div_lt_of_lt_mul (by rw [← Nat.pow_add, hwidth]; exact v.isLt)
  rw [BitVec.toNat_eq, BitVec.extractLsb'_toNat, Nat.shiftRight_eq_div_pow, Nat.mod_eq_of_lt hlt]
  exact Nat.div_eq_zero_iff_lt (Nat.two_pow_pos n)

/-- Bits 5:4 of an entry's control word are its cap; 3 is reserved (R237). -/
theorem RangeEntry.cap_eq (e : RangeEntry) : e.cap = e.control.toNat / 16 % 4 := by
  rw [cap, BitVec.extractLsb'_toNat, Nat.shiftRight_eq_div_pow]

namespace State

/-- What R237 asks of an entry. -/
theorem rangeBad_eq_false_iff (base limit off ctl : DWord) : rangeBad ⟨base, limit, off, ctl⟩ = false ↔
    base.toNat % 65536 = 0 ∧ limit.toNat % 65536 = 0 ∧ off.toNat % 65536 = 0 ∧ base.toNat < limit.toNat ∧ ctl.toNat < 64 ∧
      ctl.toNat / 16 ≠ 3 := by
  have hfixed : ctl.extractLsb' 6 58 = 0 ↔ ctl.toNat < 64 := extractLsb'_top_eq_zero_iff (by decide) ctl
  simp only [rangeBad, RangeEntry.cap_eq, Bool.or_eq_false_iff, bne_eq_false_iff_eq, beq_eq_false_iff_ne, decide_eq_false_iff_not,
    hfixed]
  omega

/-! ### The outcomes of a register write -/

theorem part_updPart_same (s : State) {p : Nat} (f : Part → Part) (h : p < s.parts.length) : (s.updPart p f).part p = f (s.part p) := by
  simp [part, List.getD_eq_getElem?_getD, h]

theorem part_updPart_ne (s : State) {j p : Nat} (f : Part → Part) (h : j ≠ p) : (s.updPart p f).part j = s.part j := by
  simp [part, List.getD_eq_getElem?_getD, Ne.symm h]

theorem updPart_onlyPart (s : State) (p : Nat) (f : Part → Part) : OnlyPart s (s.updPart p f) p :=
  ⟨rfl, by simp, fun _ hj => part_updPart_ne s f hj⟩

/-- An event that does f to a partition's block, and nothing else. -/
theorem exec_updPart {s : State} {p : Nat} {i : Instr} {f : Part → Part} (hlen : p < s.parts.length)
    (he : exec i s = .next (s.updPart p f)) : ∃ t, exec i s = .next t ∧ OnlyPart s t p ∧ t.part p = f (s.part p) :=
  ⟨_, he, s.updPart_onlyPart p f, part_updPart_same s f hlen⟩

theorem refuse_eq (s : State) {off : Nat} (reason : Nat) (h : off < 2 ^ 24) : s.refuse off reason =
    { s with pf := { s.pf with pfstat := BitVec.ofNat 64 (2 ^ 63 + reason * 2 ^ 24 + off) } } := by
  rw [refuse, Nat.mod_eq_of_lt h]
  rfl

/-- An event that refuses a write, and does nothing else. -/
theorem exec_refuse {s : State} {off reason : Nat} {i : Instr} (h : off < 2 ^ 24) (he : exec i s = .next (s.refuse off reason)) :
    ∃ t, exec i s = .next t ∧ Refused s t off reason :=
  ⟨_, he, s.refuse_eq reason h⟩

theorem blockOff_lt {p r : Nat} (hp : p < 16) (hr : r < 0x1000) : blockOff p r < 2 ^ 24 := by
  unfold blockOff
  omega

/-! ### The physical function's registers -/

theorem exec_mapcommit (s : State) (v : DWord) : exec (.mapcommit v) s = .next (
    if v = 1 then s.updPf (fun f => { f with commit := true, commitAt := pealRound s.time + 1 }) else s.refuse 0x8080 1) := by
  simp [exec, execMapcommit, ev]

/-- The maps as written come into use where every enabled partition keeps a slot (R249). -/
theorem exec_mapApply {s : State} (hcommit : s.pf.commit = true) (hdue : s.pf.commitAt ≤ pealRound s.time)
    (hslots : ∀ p < 16, (s.part p).enabled = true → s.slotsOk p s.pf.netmap s.pf.bridgemap = true) : exec .mapApply s =
      .next (s.updPf (fun f => { f with commit := false, netLive := f.netmap, bridgeLive := f.bridgemap })) := by
  have hall : (List.range Config.partitions).all (fun p => !(s.part p).enabled || s.slotsOk p s.pf.netmap s.pf.bridgemap) = true := by
    simp only [List.all_eq_true, List.mem_range, Bool.or_eq_true, Bool.not_eq_true', ← Bool.not_eq_true]
    exact fun p hp => Decidable.not_or_of_imp (hslots p hp)
  simp only [exec, execMapApply, hcommit, decide_eq_true hdue, hall]
  rfl

/-- Clearing bit 63 leaves the number that the other bits give. -/
theorem and_clearTop (v : DWord) : v &&& 0x7FFFFFFFFFFFFFFF = BitVec.ofNat 64 (v.toNat % 2 ^ 63) := by
  refine BitVec.eq_of_toNat_eq ?_
  rw [BitVec.toNat_and, show (0x7FFFFFFFFFFFFFFF : DWord).toNat = 2 ^ 63 - 1 from rfl, Nat.and_two_pow_sub_one_eq_mod, BitVec.toNat_ofNat]
  omega

theorem exec_pfstatClear (s : State) (v : DWord) : exec (.pfstatClear v) s = .next (s.updPf (fun f => { f with
    pfstat := if v.getLsbD 63 then BitVec.ofNat 64 (f.pfstat.toNat % 2 ^ 63) else f.pfstat })) := by
  simp only [exec, execPfstatClear, and_clearTop]
  split <;> rfl

/-- The limits that MPLIM takes (R356). -/
theorem exec_mplim (s : State) (v : DWord) : exec (.mplim v) s = .next (
    if 600 ≤ v.toNat ∧ v.toNat ≤ 1800 ∧ s.sharesOk v.toNat = true then s.updPf (fun f => { f with mplim := v.toNat })
    else s.refuse 0x4008 1) := by
  have hfixed : v.extractLsb' 12 52 = 0 ↔ v.toNat < 4096 := extractLsb'_top_eq_zero_iff (by decide) v
  have hguard : (v.extractLsb' 12 52 = 0 ∧ 600 ≤ v.toNat) ∧ v.toNat ≤ 1800 ↔ 600 ≤ v.toNat ∧ v.toNat ≤ 1800 := by rw [hfixed]; omega
  simp only [exec, execMplim, ev, Bool.and_eq_true, beq_iff_eq, decide_eq_true_eq, hguard, and_assoc]

/-- The shares that MSHARE takes (R356). -/
theorem exec_mshare (s : State) {p : Nat} (hp : p < 16) (v : DWord) : exec (.mshare p v) s = .next (
    if v.toNat < 4096 ∧ (s.updPart p (fun x => { x with mshare := v.toNat })).sharesOk s.pf.mplim = true
    then s.updPart p (fun x => { x with mshare := v.toNat }) else s.refuse (0x4100 + 8 * p) 1) := by
  have hfixed : v.extractLsb' 12 52 = 0 ↔ v.toNat < 4096 := extractLsb'_top_eq_zero_iff (by decide) v
  simp only [exec, execMshare, ev, Config.partitions, Bool.and_eq_true, beq_iff_eq, hfixed]
  rw [if_neg (by omega)]

/-! ### PCTL -/

/-- An entry of partition p leads outside what it owns. -/
def leadsOut (s : State) (p : Nat) (e : RangeEntry) : Bool := e.valid && !s.rangeInside p e

theorem leadsOut_iff (s : State) {p : Nat} {e : RangeEntry} : s.leadsOut p e = true ↔
    e.valid = true ∧ s.inPartition p ((e.base + e.offset).toNat % 2 ^ 52) (e.limit.toNat - e.base.toNat) = false := by
  simp only [leadsOut, rangeInside, Bool.and_eq_true, Bool.not_eq_true']

/-- What confining a partition leaves of an entry. -/
def confinedEntry (s : State) (p : Nat) (e : RangeEntry) : RangeEntry :=
  if s.leadsOut p e then { e with control := e.control &&& ~~~1 } else e

/-- What confining leaves of a block, by the areas that lie in what the partition owns and by what is left of an entry (R238). -/
def confinedPart (area : DWord → Nat → Bool) (cut : RangeEntry → RangeEntry) (x : Part) : Part :=
  let x1 := if area x.parkBase x.parkSize.toNat then x else { x with parkBase := 0, parkSize := 0 }
  let x2 := if area x.stageBase x.stageSize.toNat then x1 else { x1 with stageBase := 0, stageSize := 0 }
  let x3 := if area x.trackBase x.trackSize.toNat then x2 else { x2 with trackBase := 0, trackSize := 0 }
  let x4 := if area x.saveBase x.saveSize.toNat then x3 else { x3 with saveBase := 0, saveSize := 0 }
  let x5 := if area x.poolBase (x.poolLen.toNat * 0x200000) then x4 else { x4 with poolBase := 0, poolLen := 0, poolFree := [] }
  { x5 with syscode := if area x.syscode 4096 then x.syscode else 0, ranges := x.ranges.map cut }

/-- Confining changes the partition's block; the cached translations go only where an entry led outside. Which areas are kept is left
open: no fact below turns on it, and with the test an unknown the kernel has no product of 0x200000 to unfold. -/
theorem confine_eq (s : State) (p : Nat) : ∃ area, s.confine p =
    let t := s.updPart p (confinedPart area (s.confinedEntry p))
    if (s.part p).ranges.any (s.leadsOut p) then
      { t with tlb := t.tlb.filter (fun e => e.part != p), walks := t.walks.filter (fun e => e.part != p) }
    else t := by
  unfold confine
  extract_lets out cut area fit s1
  refine ⟨area, ?_⟩
  clear_value area
  rfl

/-- Two blocks agree in whether the partition is enabled, and in its queues. -/
def KeepsQueues (x y : Part) : Prop := y.enabled = x.enabled ∧ y.queues = x.queues

/-- One of two blocks, of which the second gives up an area of the first. -/
theorem KeepsQueues.ite {x y z : Part} (b : Bool) (hy : KeepsQueues x y) (hz : KeepsQueues y z) :
    KeepsQueues x (if b then y else z) := by
  obtain ⟨henabled, hqueues⟩ := hz
  split
  · exact hy
  · exact ⟨henabled.trans hy.1, hqueues.trans hy.2⟩

theorem confinedPart_keepsQueues (area : DWord → Nat → Bool) (cut : RangeEntry → RangeEntry) (x : Part) :
    KeepsQueues x (confinedPart area cut x) := by
  unfold confinedPart
  extract_lets x1 x2 x3 x4 x5
  have hpark : KeepsQueues x x1 := .ite _ ⟨rfl, rfl⟩ ⟨rfl, rfl⟩
  have hstage : KeepsQueues x x2 := hpark.ite _ ⟨rfl, rfl⟩
  have htrack : KeepsQueues x x3 := hstage.ite _ ⟨rfl, rfl⟩
  have hsave : KeepsQueues x x4 := htrack.ite _ ⟨rfl, rfl⟩
  have hpool : KeepsQueues x x5 := hsave.ite _ ⟨rfl, rfl⟩
  exact hpool

/-- Confining a partition leaves the other blocks, and the cached translations where no entry leads outside. -/
theorem confine_cases (s : State) (p : Nat) : let t := s.confine p
    t = { s with parts := t.parts, tlb := t.tlb, walks := t.walks } ∧
      (∃ area, t.parts = (s.updPart p (confinedPart area (s.confinedEntry p))).parts) ∧
      ((∀ e ∈ (s.part p).ranges, s.leadsOut p e = false) → t.tlb = s.tlb ∧ t.walks = s.walks) := by
  obtain ⟨area, ht⟩ := s.confine_eq p
  dsimp only
  rw [ht]
  dsimp only
  split
  · rename_i hany
    refine ⟨rfl, ⟨area, rfl⟩, fun hnone => ?_⟩
    obtain ⟨e, he, hout⟩ := List.any_eq_true.1 hany
    exact absurd hout (by simp [hnone e he])
  · exact ⟨rfl, ⟨area, rfl⟩, fun _ => ⟨rfl, rfl⟩⟩

/-- What a partition owns does not depend on whether it is enabled. -/
theorem leadsOut_enabled (s : State) {p : Nat} (b : Bool) (hlen : p < s.parts.length) :
    (s.updPart p (fun x => { x with enabled := b })).leadsOut p = s.leadsOut p := by
  funext e
  simp only [leadsOut, rangeInside, inPartition, part_updPart_same s _ hlen]
  rfl

theorem confinedEntry_enabled (s : State) {p : Nat} (b : Bool) (hlen : p < s.parts.length) :
    (s.updPart p (fun x => { x with enabled := b })).confinedEntry p = s.confinedEntry p := by
  funext e
  rw [confinedEntry, leadsOut_enabled s b hlen, confinedEntry]

/-- A partition that is enabled then reaches only what it owns (R238). -/
def enableConfined (s : State) (p : Nat) : State := (s.updPart p (fun x => { x with enabled := true })).confine p

theorem enableConfined_frame (s : State) {p : Nat} (hlen : p < s.parts.length) : let t := s.enableConfined p
    t = { s with parts := t.parts, tlb := t.tlb, walks := t.walks } ∧ (∀ j, j ≠ p → t.part j = s.part j) ∧
      ((∀ e ∈ (s.part p).ranges, s.leadsOut p e = false) → t.tlb = s.tlb ∧ t.walks = s.walks) := by
  obtain ⟨heq, ⟨area, hparts⟩, hcached⟩ := (s.updPart p (fun x => { x with enabled := true })).confine_cases p
  rw [leadsOut_enabled s true hlen, part_updPart_same s _ hlen] at hcached
  refine ⟨heq, fun j hj => ?_, hcached⟩
  calc (s.enableConfined p).part j = _ := congrArg (fun l => l.getD j .initial) hparts
    _ = (s.updPart p (fun x => { x with enabled := true })).part j := part_updPart_ne _ _ hj
    _ = s.part j := part_updPart_ne s _ hj

theorem enableConfined_part (s : State) {p : Nat} (hlen : p < s.parts.length) : let x := (s.enableConfined p).part p
    x.enabled = true ∧ x.queues = (s.part p).queues ∧ x.ranges = (s.part p).ranges.map (s.confinedEntry p) := by
  obtain ⟨-, ⟨area, hparts⟩, -⟩ := (s.updPart p (fun x => { x with enabled := true })).confine_cases p
  rw [confinedEntry_enabled s true hlen] at hparts
  have hpart : (s.enableConfined p).part p = confinedPart area (s.confinedEntry p) { s.part p with enabled := true } :=
    calc (s.enableConfined p).part p = _ := congrArg (fun l => l.getD p .initial) hparts
      _ = _ := part_updPart_same _ _ (by simpa using hlen)
      _ = _ := by rw [part_updPart_same s _ hlen]
  obtain ⟨henabled, hqueues⟩ := confinedPart_keepsQueues area (s.confinedEntry p) { s.part p with enabled := true }
  rw [hpart]
  exact ⟨henabled, hqueues, rfl⟩

theorem getD_map_confinedEntry (s : State) (p : Nat) (l : List RangeEntry) {k : Nat} (hk : k < l.length) :
    (l.map (s.confinedEntry p)).getD k .zero = s.confinedEntry p (l.getD k .zero) := by
  simp [List.getD_eq_getElem?_getD, hk]

theorem exec_pctlWrite_zero (s : State) {p : Nat} (hp : p < 16) :
    exec (.pctlWrite p 0) s = .next (s.updPart p (fun x => { x with enabled := false })) := by
  have hbit : (0 : DWord).getLsbD 0 = false := rfl
  simp only [exec, execPctlWrite, Config.partitions, hbit]
  rw [if_neg (show ¬ p ≥ 16 by omega)]
  rfl

/-- Writing 1 to PCTL enables a partition that has its slots and its share (R249, R356). -/
theorem exec_pctlWrite_one (s : State) {p : Nat} (hp : p < 16) : exec (.pctlWrite p 1) s = .next (
    if (s.part p).enabled = true then s.updPart p (fun x => { x with enabled := true })
    else if s.slotsOk p s.pf.netLive s.pf.bridgeLive = true ∧
        (s.updPart p (fun x => { x with enabled := true })).sharesOk s.pf.mplim = true
      then s.enableConfined p
    else s.refuse (blockOff p 0) 1) := by
  have hbit : (1 : DWord).getLsbD 0 = true := rfl
  have hfixed : ((1 : DWord).extractLsb' 1 63 != 0) = false := rfl
  simp only [exec, execPctlWrite, Config.partitions, hbit, hfixed, enableConfined]
  rw [if_neg (by omega), if_neg (by decide)]
  by_cases hon : (s.part p).enabled = true
  · simp [ev, hon]
  · by_cases hok : s.slotsOk p s.pf.netLive s.pf.bridgeLive = true ∧
      (s.updPart p (fun x => { x with enabled := true })).sharesOk s.pf.mplim = true
    · simp [ev, hon, hok]
    · simp [ev, hon, hok, -not_and]

/-! ### The block of a partition -/

/-- A write through the physical function to offset r of a partition's block. -/
theorem exec_registerWrite_block (s : State) {p r : Nat} (hp : p < 16) (hr : r < 0x1000) (v : DWord) :
    exec (.registerWrite p false (0x10000 + 0x1000 * p + r) v) s = ev "REGISTER_WRITE" (s.writeBlock p r v) := by
  have hpart : (0x10000 + 0x1000 * p + r - 0x10000) / 0x1000 = p := by omega
  have hreg : (0x10000 + 0x1000 * p + r) % 0x1000 = r := by omega
  simp only [exec, execRegisterWrite, Config.partitions, writePf, hpart, hreg]
  rw [if_neg (by omega), if_neg (by decide), if_neg (by omega), if_pos (by omega)]

/-- A write to a partition's block that is refused, and does nothing else. -/
theorem exec_registerWrite_refused {s : State} {p r reason : Nat} {v : DWord} (hp : p < 16) (hr : r < 0x1000)
    (h : s.writeBlock p r v = some (s.refuse (blockOff p r) reason)) :
    ∃ t, exec (.registerWrite p false (0x10000 + 0x1000 * p + r) v) s = .next t ∧ Refused s t (blockOff p r) reason :=
  exec_refuse (blockOff_lt hp hr) ((exec_registerWrite_block s hp hr v).trans (congrArg _ h))

theorem writeBlock_lease (s : State) (p : Nat) {v : DWord} (hv : v.toNat < 2 ^ 24) :
    s.writeBlock p 8 v = some (s.updPart p (fun x => { x with lease := v.toNat })) := by
  have hput : s.blockPut p 8 v = some (fun x => { x with lease := v.toNat }) := if_pos (decide_eq_true hv)
  simp [writeBlock, blockHas, blockAlways, hput]

/-- The size of a save block is a multiple of 4,096. -/
theorem writeBlock_saveBlk_misaligned {s : State} {p : Nat} {v : DWord} (hoff : (s.part p).enabled = false) (hv : v.toNat % 4096 ≠ 0) :
    s.writeBlock p 0x50 v = some (s.refuse (blockOff p 0x50) 1) := by
  simp [writeBlock, blockHas, blockAlways, blockPut, hoff, hv]

theorem writeBlock_saveBlk_enabled {s : State} {p : Nat} (v : DWord) (hon : (s.part p).enabled = true) :
    s.writeBlock p 0x50 v = some (s.refuse (blockOff p 0x50) 3) := by
  simp [writeBlock, blockHas, blockAlways, hon]

/-! ### Range entries (R237, R238) -/

/-- Entry k of a partition becomes x, and its held bytes those of e, which the host wrote. -/
def putRange (s : State) (p k : Nat) (e x : RangeEntry) : State :=
  s.updPart p (fun y => { y with ranges := y.ranges.set k x, held := y.held.set k e })

theorem putRange_ranges {s : State} {p : Nat} (hlen : p < s.parts.length) (k : Nat) (e x : RangeEntry) :
    ((s.putRange p k e x).part p).ranges = (s.part p).ranges.set k x :=
  congrArg Part.ranges (part_updPart_same s _ hlen)

/-- Entry e keeps R237 and leads into the memory of partition p. -/
def EntryTaken (s : State) (p : Nat) (e : RangeEntry) : Prop := rangeBad e = false ∧ s.rangeInside p e = true

theorem entryTaken_iff (s : State) (p : Nat) (base limit off ctl : DWord) : s.EntryTaken p ⟨base, limit, off, ctl⟩ ↔
    base.toNat % 65536 = 0 ∧ limit.toNat % 65536 = 0 ∧ off.toNat % 65536 = 0 ∧ base.toNat < limit.toNat ∧ ctl.toNat < 64 ∧
      ctl.toNat / 16 ≠ 3 ∧ s.inPartition p ((base + off).toNat % 2 ^ 52) (limit.toNat - base.toNat) = true := by
  simp only [EntryTaken, rangeBad_eq_false_iff, and_assoc, rangeInside]

theorem writeRange_of_taken {s : State} {p k : Nat} {e : RangeEntry} (h : s.EntryTaken p e) : s.writeRange p k e =
    { s.putRange p k e e with tlb := s.tlb.filter (fun t => t.part != p), walks := s.walks.filter (fun t => t.part != p) } := by
  rw [writeRange, h.1, h.2]
  rfl

/-- Another entry is left invalid, and the write refused at its last eight bytes (R238). -/
theorem writeRange_of_not_taken {s : State} {p k : Nat} {e : RangeEntry} (h : ¬ s.EntryTaken p e) (hp : p < 16) (hk : k < 48) :
    s.writeRange p k e = { s.putRange p k e { e with control := e.control &&& ~~~1 } with
      pf := { s.pf with pfstat := BitVec.ofNat 64 (2 ^ 63 + 2 ^ 24 + (0x10000 + 0x1000 * p + 0x100 + 32 * k + 24)) } } := by
  have hbad : ¬ (!rangeBad e && s.rangeInside p e) = true := by simpa [EntryTaken] using h
  have hoff : 2 ^ 63 + 1 * 2 ^ 24 + blockOff p (0x100 + 32 * k + 24) =
      2 ^ 63 + 2 ^ 24 + (0x10000 + 0x1000 * p + 0x100 + 32 * k + 24) := by
    unfold blockOff
    omega
  rw [writeRange, if_neg hbad, refuse_eq _ _ (blockOff_lt hp (by omega)), hoff]
  rfl

theorem exec_rangeEntryWrite (s : State) {p k : Nat} (hp : p < 16) (hk : k < 48) (base limit off ctl : DWord) :
    exec (.rangeEntryWrite p k base limit off ctl) s = .next (s.writeRange p k ⟨base, limit, off, ctl⟩) :=
  congrArg (ev _) (if_pos ⟨hp, hk⟩)

end State

/-- Settles O41: each write's own result; an enabled partition by what confining leaves of its block, an entry by whether it keeps R237. -/
theorem registerWritesComplete : Obligations.RegisterWritesComplete := by
  unfold Obligations.RegisterWritesComplete
  refine ⟨fun s v => ⟨⟨_, State.exec_mapcommit s 1, rfl, rfl, rfl, rfl⟩, fun hv => ?commit,
    fun hcommit hdue hslots => ⟨_, State.exec_mapApply hcommit hdue hslots, rfl, rfl, rfl, rfl⟩,
    ⟨_, State.exec_pfstatClear s v, rfl, rfl⟩, fun hlow hhigh hshares => ?limit, fun hbad => ?limitRefused,
    fun p hp hlen hfit hshares => ?share, fun p hp hbad => ?shareRefused⟩,
    fun s p v hp hlen => ⟨State.exec_updPart hlen (State.exec_pctlWrite_zero s hp), fun hon => ?again, fun hoff => ?enable,
      fun hv => ?lease, fun hoff hv => ?saveBlk, fun hon => ?saveBlkEnabled, fun k hk base limit off ctl => ?entry⟩⟩
  case commit => exact State.exec_refuse (by decide) ((State.exec_mapcommit s v).trans (by rw [if_neg hv]))
  case limit =>
    have hexec := State.exec_mplim s v
    rw [if_pos ⟨hlow, hhigh, hshares⟩] at hexec
    exact ⟨_, hexec, rfl, rfl⟩
  case limitRefused =>
    refine State.exec_refuse (by decide) ((State.exec_mplim s v).trans ?_)
    rw [if_neg]
    rintro ⟨hlow, hhigh, hshares⟩
    rcases hbad with hbad | hbad | hbad
    · omega
    · omega
    · exact Bool.false_ne_true (hbad.symm.trans hshares)
  case share => exact State.exec_updPart hlen ((State.exec_mshare s hp v).trans (by rw [if_pos ⟨hfit, hshares⟩]))
  case shareRefused =>
    refine State.exec_refuse (by omega) ((State.exec_mshare s hp v).trans ?_)
    rw [if_neg]
    rintro ⟨hfit, hshares⟩
    rcases hbad with hbad | hbad
    · omega
    · exact Bool.false_ne_true (hbad.symm.trans hshares)
  case again =>
    obtain ⟨t, ht, honly, hpart⟩ := State.exec_updPart hlen ((State.exec_pctlWrite_one s hp).trans (by rw [if_pos hon]))
    refine ⟨t, ht, honly, hpart.trans ?_⟩
    rw [← hon]
  case enable =>
    have hexec := State.exec_pctlWrite_one s hp
    rw [if_neg (by simp [hoff])] at hexec
    refine ⟨fun hok => ?_, fun hbad => ?_⟩
    · rw [if_pos hok] at hexec
      obtain ⟨heq, hothers, hcached⟩ := s.enableConfined_frame hlen
      obtain ⟨henabled, hqueues, hranges⟩ := s.enableConfined_part hlen
      refine ⟨_, hexec, heq, hothers, henabled, hqueues, by rw [hranges, List.length_map], fun k hk => ?_,
        fun hnone => hcached fun e he => Bool.eq_false_iff.2 (mt s.leadsOut_iff.1 (hnone e he))⟩
      rw [hranges, State.getD_map_confinedEntry s p _ hk]
      exact ⟨fun hout => if_pos (s.leadsOut_iff.2 hout), fun hin => if_neg (mt s.leadsOut_iff.1 hin)⟩
    · rw [if_neg hbad] at hexec
      exact State.exec_refuse (off := State.blockOff p 0) (State.blockOff_lt hp (by decide)) hexec
  case lease =>
    have hexec := State.exec_registerWrite_block (r := 8) s hp (by decide) v
    rw [State.writeBlock_lease s p hv] at hexec
    exact State.exec_updPart hlen hexec
  case saveBlk => exact State.exec_registerWrite_refused hp (by decide) (State.writeBlock_saveBlk_misaligned hoff hv)
  case saveBlkEnabled => exact State.exec_registerWrite_refused hp (by decide) (State.writeBlock_saveBlk_enabled v hon)
  case entry =>
    have hexec := State.exec_rangeEntryWrite s hp hk base limit off ctl
    refine ⟨fun hok => ?_, fun hbad => ?_⟩
    · rw [State.writeRange_of_taken ((s.entryTaken_iff p base limit off ctl).2 hok)] at hexec
      exact ⟨_, hexec, rfl, State.putRange_ranges hlen ..⟩
    · rw [State.writeRange_of_not_taken (mt (s.entryTaken_iff p base limit off ctl).1 hbad) hp hk] at hexec
      exact ⟨_, hexec, rfl, rfl, State.putRange_ranges hlen ..⟩

end Sys2Proof.Machine

/-! ## Tensor regions (R256 to R258, R263 to R266)

A region that the front creates or ends, the notices and the windows of its monitor, and the tiles of a move. -/

namespace Sys2Proof.Machine

/-! ### Bytes and bits after a change over many -/

namespace Memory

theorem byte_zeroed (m : Memory) (p : Nat → Bool) (a : Nat) : (m.zeroed p).byte a = if p a = true then 0 else m.byte a := by
  unfold zeroed byte
  dsimp only
  induction m.cells with
  | nil => simp [cellGet]
  | cons c cells ih =>
    obtain ⟨k, v⟩ := c
    rw [List.filter_cons]
    by_cases hk : k = a
    · subst hk
      by_cases hp : p k = true <;> simp [hp, cellGet, ih]
    · by_cases hp : p k = true <;> simp [hp, hk, cellGet, ih]

@[simp] theorem byte_filled (m : Memory) (p : Nat → Bool) (a : Nat) : (m.filled p).byte a = m.byte a := rfl

theorem full_filled (m : Memory) (p : Nat → Bool) {w : Nat} (h : p (8 * w) = true) : (m.filled p).full w = true := by
  simp [filled, full, h]

/-- A byte other than 0 is read back from any cell list, in canonical form or not. -/
theorem byte_setByte_of_ne_zero (m : Memory) {b : Byte} (hb : b ≠ 0) (a x : Nat) :
    (m.setByte a b).byte x = if x = a then b else m.byte x := by
  unfold setByte byte
  dsimp only
  induction m.cells with
  | nil =>
    rw [cellSet, if_neg hb]
    simp only [cellGet, eq_comm]
  | cons c cells ih =>
    obtain ⟨k, v⟩ := c
    rw [cellSet, if_neg hb, if_neg hb]
    split
    · simp only [cellGet, eq_comm]
    · split
      next _ hk =>
        subst hk
        by_cases hx : a = x <;> simp [cellGet, hx, eq_comm]
      next hlt hk =>
        by_cases hx : k = x
        · subst hx
          simp [cellGet, Ne.symm hk]
        · simp [cellGet, hx, ih]

theorem byte_foldl_setByte (keys : List Nat) {b : Byte} (hb : b ≠ 0) (m : Memory) (x : Nat) :
    (keys.foldl (fun m k => m.setByte k b) m).byte x = if x ∈ keys then b else m.byte x := by
  induction keys generalizing m with
  | nil => simp
  | cons k keys ih =>
    rw [List.foldl_cons, ih, byte_setByte_of_ne_zero m hb]
    by_cases hk : x = k <;> simp [hk]

@[simp] theorem full_foldl_setByte (keys : List Nat) (b : Byte) (m : Memory) (w : Nat) :
    (keys.foldl (fun m k => m.setByte k b) m).full w = m.full w := by
  induction keys generalizing m with
  | nil => rfl
  | cons k keys ih => exact ih _

end Memory

/-! ### What the homes and the front leave of fibres, regions and partitions -/

namespace State

/-- Nothing differs of fibres, regions and partitions. -/
def KeepsRegions (s t : State) : Prop := t.fibres = s.fibres ∧ t.regions = s.regions ∧ t.parts = s.parts

theorem keepsRegions_refl (s : State) : KeepsRegions s s := ⟨rfl, rfl, rfl⟩

theorem KeepsRegions.trans {s t u : State} (h1 : KeepsRegions s t) (h2 : KeepsRegions t u) : KeepsRegions s u := by
  obtain ⟨hf, hr, hp⟩ := h1
  obtain ⟨hf', hr', hp'⟩ := h2
  exact ⟨hf'.trans hf, hr'.trans hr, hp'.trans hp⟩

theorem keepsRegions_foldl {α : Type} {f : State → α → State} (h : ∀ s x, KeepsRegions s (f s x)) (l : List α) (s : State) :
    KeepsRegions s (l.foldl f s) :=
  List.foldlRecOn (motive := fun t => KeepsRegions s t) _ _ (keepsRegions_refl s) fun t ht x _ => ht.trans (h t x)

theorem keepsRegions_of_homes {s t : State} (h : UpToHomes s t) : KeepsRegions s t :=
  ⟨upToHomes_fibres h, by rw [h], upToHomes_parts h⟩

theorem markBitmap_keepsRegions (s : State) (keys : List Nat) : KeepsRegions s (s.markBitmap keys) := by
  unfold markBitmap
  refine keepsRegions_foldl (fun t m => ?_) _ _
  split
  · exact ⟨rfl, rfl, rfl⟩
  · exact keepsRegions_refl t

theorem homeWrote_keepsRegions (s : State) (u : HomeUse) (keys words : List Nat) : KeepsRegions s (s.homeWrote u keys words) := by
  unfold homeWrote
  exact (keepsRegions_foldl (fun _ _ => keepsRegions_of_homes (writeLine_homes ..)) _ _).trans
    ((markBitmap_keepsRegions ..).trans (keepsRegions_of_homes (touchLines_homes ..)))

theorem placeWrote_keepsRegions (s : State) (u : HomeUse) (l : Loc) (data bit : Bool) :
    KeepsRegions s (s.placeWrote u l data bit) := by
  unfold placeWrote
  split
  · exact keepsRegions_refl s
  · dsimp only
    split <;> exact homeWrote_keepsRegions ..

theorem hostSees_keepsRegions (s : State) (fibre : Option Nat) (p : Nat) (n : Option Nat) (keys : List Nat) :
    KeepsRegions s (s.hostSees fibre p n keys) := by
  unfold hostSees
  split
  · exact ⟨rfl, rfl, rfl⟩
  · exact keepsRegions_refl s

theorem keepVas_homes (s : State) (cid : Nat) (n : Need) (vas : List Nat) : UpToHomes s (s.keepVas cid n vas) := by
  unfold keepVas
  split
  · exact upToHomes_refl s
  · exact upToHomes_trans (upToHomes_foldl _ (fun s _ => cacheVa_homes s ..) _ _) (redraw_homes _)

/-- What the front has read for a dispatch changes nothing else (R228, R229, R236). -/
theorem frontHas_homes (s : State) (p cid : Nat) (rs : List (Nat × Nat)) : UpToHomes s (s.frontHas p cid rs) := by
  unfold frontHas
  exact upToHomes_trans (frontReads_homes ..) (keepVas_homes ..)

/-! ### The node of a dispatch (R301) -/

theorem node_of_parts {s t : State} (h : t.parts = s.parts) (p n : Nat) : t.node p n = s.node p n := by
  simp [node, nodeSlot, part, h]

theorem nodeSlot_n (s : State) (p n : Nat) : (s.nodeSlot p n).n = n := by
  unfold nodeSlot
  cases h : (s.part p).nodes.find? (fun x => x.n == n) with
  | none => rfl
  | some x => exact beq_iff_eq.1 (List.find?_some (p := fun x : NodeSlot => x.n == n) h)

theorem nodeSlot_setSlot (s : State) {p : Nat} (hp : p < s.parts.length) (x : NodeSlot) : (s.setSlot p x).nodeSlot p x.n = x := by
  have hnone : ((s.part p).nodes.filter (fun y => y.n != x.n)).find? (fun y => y.n == x.n) = none := by
    rw [List.find?_eq_none]
    intro y hy
    simpa using (List.mem_filter.1 hy).2
  rw [nodeSlot, setSlot, part_updPart_same s _ hp, List.find?_append, hnone]
  simp

theorem node_setNode (s : State) {p : Nat} (hp : p < s.parts.length) (n : Nat) (d : Node) : (s.setNode p n d).node p n = some d := by
  have hslot := nodeSlot_setSlot s hp { s.nodeSlot p n with node := some d }
  rw [nodeSlot_n] at hslot
  rw [node, setNode, hslot]

/-- The work of a node that is there ends by its phase alone. -/
theorem endNode_of_node {s : State} {p n : Nat} {d : Node} (h : s.node p n = some d) (error result : Nat) :
    s.endNode p n error result = s.setNode p n { d with phase := .ended error result } := by
  simp only [endNode, h]

/-- A ready node of the kind goes to what dispatches it, and what the front has read for it stays at the homes. -/
theorem dispatch_of_nodeReady {s : State} {p n : Nat} {d : Node} (h : s.nodeReady p n d) {kind : Nat → Bool} (hk : kind d.kind = true)
    (f : State → Node → Option State) :
    s.dispatch p n kind f = (f s d).map (fun t => t.frontHas p d.ctx (s.payloadRanges d)) := by
  obtain ⟨hserving, hnode, hphase, hlive⟩ := h
  simp [dispatch, hserving, hnode, hphase, hlive, hk]

end State

end Sys2Proof.Machine

/-! ### The storage of a new region (R256, R258) -/

namespace Sys2Proof.Machine

theorem le_roundUp (n : Nat) {m : Nat} (hm : 0 < m) : n ≤ roundUp n m := by
  have hmod := Nat.mod_lt (n + m - 1) hm
  have hdiv := Nat.div_add_mod (n + m - 1) m
  rw [Nat.mul_comm] at hdiv
  unfold roundUp
  omega

/-- The bytes of both copies and of both runs of bits. -/
def Region.storage (r : Region) : Nat := 2 * (r.copyBytes + r.bitBytes)

/-- A sound descriptor's range consists of whole frames and holds both copies with their bits (R256). -/
theorem TensorDesc.storage_le_of_sound {x : TensorDesc} (h : x.bad = false) (id part ctx idx check : Nat) :
    (x.region id part ctx idx check).storage ≤ 65536 * (x.size / 65536) := by
  have hrules : x.size % 0x200000 = 0 ∧ (x.region id part ctx idx check).needBytes ≤ x.size := by
    change _ ∧ (x.region 0 0 0 0 0).needBytes ≤ x.size
    simp only [bad, Bool.or_eq_false_iff, decide_eq_false_iff_not, Nat.not_lt, bne_eq_false_iff_eq] at h
    obtain ⟨⟨⟨⟨_, hsize⟩, _⟩, _⟩, hneed⟩ := h
    exact ⟨hsize, hneed⟩
  obtain ⟨hsize, hneed⟩ := hrules
  have hround : (x.region id part ctx idx check).storage ≤ (x.region id part ctx idx check).needBytes :=
    le_roundUp _ (by decide)
  omega

namespace State

theorem rangeFrames_length {s : State} {r : Region} {i n : Nat} {frames : List Nat} (h : s.rangeFrames r i n = .ok frames) :
    frames.length = n := by
  induction n generalizing i frames with
  | zero =>
    cases h
    rfl
  | succ n ih =>
    rw [rangeFrames] at h
    split at h
    · cases h
    · split at h
      · cases h
      next hrest =>
        cases h
        rw [List.length_cons, ih hrest]

/-- Offsets that different frames, or different bytes of one frame, hold have different keys. -/
theorem frameKey_inj {frames : List Nat} (hnodup : frames.Nodup) (halign : ∀ f ∈ frames, f % 65536 = 0) {a b : Nat}
    (ha : a / 65536 < frames.length) (hb : b / 65536 < frames.length) (h : frameKey frames a = frameKey frames b) : a = b := by
  unfold frameKey at h
  rw [List.getD_eq_getElem _ _ ha, List.getD_eq_getElem _ _ hb] at h
  have hframe : frames[a / 65536] = frames[b / 65536] := by
    have := halign _ (List.getElem_mem ha)
    have := halign _ (List.getElem_mem hb)
    omega
  have hindex : a / 65536 = b / 65536 := (List.Nodup.getElem_inj_iff hnodup).1 hframe
  omega

/-- A key lies in the frames at an offset where a region stores a copy or its bits. -/
def stores (frames : List Nat) (r : Region) (a : Nat) : Bool :=
  frames.zipIdx.any (fun f => decide (f.1 ≤ a) && decide (a < f.1 + 65536) && decide (65536 * f.2 + (a - f.1) < r.storage))

theorem stores_frameKey {frames : List Nat} {r : Region} {off : Nat} (hoff : off < r.storage) (hin : off / 65536 < frames.length) :
    stores frames r (frameKey frames off) = true := by
  rw [stores, List.any_eq_true]
  refine ⟨(frames[off / 65536], off / 65536), List.mem_zipIdx_iff_getElem?.2 (List.getElem?_eq_getElem hin), ?_⟩
  unfold frameKey
  rw [List.getD_eq_getElem _ _ hin]
  simp only [Bool.and_eq_true, decide_eq_true_eq]
  omega

/-- The keys of the bits of the current copy, where the policy sets them. -/
def setBits (frames : List Nat) (r : Region) : List Nat :=
  if r.policy == 1 then (List.range r.bitBytes).map (fun i => frameKey frames (r.copyBytes + i)) else []

theorem setBits_of_clear (frames : List Nat) {r : Region} (h : r.policy ≠ 1) : setBits frames r = [] := by
  simp [setBits, h]

theorem frameKey_mem_setBits {frames : List Nat} {r : Region} (hpolicy : r.policy = 1) (hnodup : frames.Nodup)
    (halign : ∀ f ∈ frames, f % 65536 = 0) (hroom : r.storage ≤ 65536 * frames.length) {off : Nat}
    (hin : off / 65536 < frames.length) :
    frameKey frames off ∈ setBits frames r ↔ r.copyBytes ≤ off ∧ off < r.copyBytes + r.bitBytes := by
  simp only [setBits, hpolicy, beq_self_eq_true, if_true, List.mem_map, List.mem_range]
  constructor
  · rintro ⟨i, hi, hkey⟩
    have hbit : (r.copyBytes + i) / 65536 < frames.length := by
      unfold Region.storage at hroom
      omega
    have := frameKey_inj hnodup halign hbit hin hkey
    omega
  · rintro ⟨hlow, hhigh⟩
    exact ⟨off - r.copyBytes, by omega, by rw [Nat.add_sub_cancel' hlow]⟩

/-- Memory with the storage of a new region at its initial values, and the words of its frames full. -/
def clearedMem (m : Memory) (frames : List Nat) (r : Region) : Memory :=
  (setBits frames r).foldl (fun m k => m.setByte k 0xFF)
    ((m.zeroed (stores frames r)).filled (fun a => frames.contains (a / 65536 * 65536)))

theorem clearedMem_full (m : Memory) {frames : List Nat} (r : Region) {w : Nat} (h : frames.contains (8 * w / 65536 * 65536) = true) :
    (clearedMem m frames r).full w = true := by
  rw [clearedMem, Memory.full_foldl_setByte]
  exact Memory.full_filled _ _ h

theorem clearedMem_byte (m : Memory) {frames : List Nat} {r : Region} {off : Nat} (hoff : off < r.storage)
    (hin : off / 65536 < frames.length) :
    (clearedMem m frames r).byte (frameKey frames off) = if frameKey frames off ∈ setBits frames r then 0xFF else 0 := by
  rw [clearedMem, Memory.byte_foldl_setByte _ (by decide), Memory.byte_filled, Memory.byte_zeroed, if_pos (stores_frameKey hoff hin)]

/-! ### A change over whole frames, and the clearing of a region (R143, R229, R349) -/

/-- With nobody waiting, a change over whole frames does at most what a migration's bitmap and reads at the homes do. -/
theorem framesWrote_calm {s : State} (h : s.calm) (p : Nat) (ctx : Option Nat) (frames : List Nat) :
    ∃ l2 lines, UpToHomes ({ s with l2 := l2 }.markBitmap lines) (s.framesWrote p ctx frames) := by
  unfold framesWrote
  extract_lets on lines waits upd s1
  have hhomes : UpToHomes ({ s with l2 := s.l2.map upd }.markBitmap lines) s1 :=
    upToHomes_trans (noteFrames_homes ..) (frontTook_homes ..)
  have hcalm : s1.calm := calm_of_accesses h fun a ha => .inl (by rwa [upToHomes_accesses hhomes, markBitmap_accesses] at ha)
  rw [scanKeys_calm hcalm]
  exact ⟨_, _, hhomes⟩

theorem framesWrote_keepsRegions {s : State} (h : s.calm) (p : Nat) (ctx : Option Nat) (frames : List Nat) :
    KeepsRegions s (s.framesWrote p ctx frames) := by
  obtain ⟨l2, lines, hhomes⟩ := framesWrote_calm h p ctx frames
  exact (markBitmap_keepsRegions { s with l2 := l2 } lines).trans (keepsRegions_of_homes hhomes)

theorem framesWrote_mem {s : State} (h : s.calm) (hmig : s.migrations = []) (p : Nat) (ctx : Option Nat) (frames : List Nat) :
    (s.framesWrote p ctx frames).mem = s.mem := by
  obtain ⟨l2, lines, hhomes⟩ := framesWrote_calm h p ctx frames
  rw [upToHomes_mem hhomes, markBitmap_of_no_migrations (s := { s with l2 := l2 }) hmig]

theorem clearRegion_keepsRegions {s : State} (h : s.calm) (frames : List Nat) (r : Region) :
    KeepsRegions s (s.clearRegion frames r) := by
  unfold clearRegion
  refine KeepsRegions.trans ?_ (framesWrote_keepsRegions ?_ ..)
  · exact ⟨rfl, rfl, rfl⟩
  · exact h

theorem clearRegion_mem {s : State} (h : s.calm) (hmig : s.migrations = []) (frames : List Nat) (r : Region) :
    (s.clearRegion frames r).mem = clearedMem s.mem frames r := by
  unfold clearRegion
  refine (framesWrote_mem ?_ ?_ ..).trans ?_
  · exact h
  · exact hmig
  · rfl

/-! ### REGION_CREATE (R257, R258) -/

/-- The region of a descriptor at an index, with the next check of that index (R257). -/
def newRegion (s : State) (p : Nat) (d : Node) (b : List Byte) (c : Context) (i : Nat) : Region :=
  (tensorDesc b).region s.nextId p d.ctx i (((c.checks.lookup i).getD 0 + 1) % 4096)

/-- The state with a new region in its table: an identifier taken, and the check of its index remembered (R257). -/
def withRegion (s : State) (c : Context) (r : Region) : State :=
  { s with regions := s.regions ++ [r] }.bump.setContext { c with checks := (r.index, r.check) :: c.checks.filter (fun x => x.1 != r.index) }

/-- What the front asks of a descriptor: its context is open with index i free, it breaks no rule, its range meets no region's, its
side tensor fits, and its pages and frames are there (R254 to R258). -/
structure Creatable (s : State) (p : Nat) (d : Node) (b : List Byte) (c : Context) (i : Nat) (frames : List Nat) : Prop where
  context : s.context d.ctx = some c
  index : s.freeRegionIndex d.ctx = some i
  sound : (tensorDesc b).bad = false
  apart : ∀ z ∈ s.regions, z.ctx = d.ctx →
    z.base.toNat + z.size.toNat ≤ (tensorDesc b).base ∨ (tensorDesc b).base + (tensorDesc b).size ≤ z.base.toNat
  side : s.sideOk d.ctx (tensorDesc b) = true
  pages : s.tensorPages c (tensorDesc b).base (tensorDesc b).size = true
  frames : s.rangeFrames (s.newRegion p d b c i) 0 ((tensorDesc b).size / 65536) = .ok frames

section
variable {s : State} {p n : Nat} {d : Node} {b : List Byte} {c : Context} {i : Nat} {frames : List Nat}

/-- The frames of a new region hold all that it stores (R256). -/
theorem Creatable.storage_le (h : s.Creatable p d b c i frames) : (s.newRegion p d b c i).storage ≤ 65536 * frames.length := by
  rw [rangeFrames_length h.frames]
  exact TensorDesc.storage_le_of_sound h.sound ..

/-- The state in which a region stands in its table with its storage cleared, before its node ends. -/
def regionCleared (s : State) (p n : Nat) (c : Context) (r : Region) (frames : List Nat) : State :=
  ((s.withRegion c r).clearRegion frames r).hostSees none p (some n) frames

theorem createRegion_of_creatable (h : s.Creatable p d b c i frames) :
    s.createRegion p n d b = ((s.regionCleared p n c (s.newRegion p d b c i) frames).setNode p n
      { d with ctime := max d.ctime (s.framesTime frames) }).endNode p n 0 (s.newRegion p d b c i).handle.toNat := by
  have hapart : (s.regions.any fun r => r.ctx == d.ctx && decide (r.base.toNat < (tensorDesc b).base + (tensorDesc b).size)
      && decide ((tensorDesc b).base < r.base.toNat + r.size.toNat)) = false := by
    rw [List.any_eq_false]
    intro z hz
    simp only [Bool.and_eq_true, beq_iff_eq, decide_eq_true_eq, not_and, Nat.not_lt, and_imp]
    intro hctx
    have := h.apart z hz hctx
    omega
  have hframes := h.frames
  unfold newRegion at hframes
  simp only [createRegion, h.context, h.index, h.sound, hapart, h.side, h.pages, hframes, Bool.not_true, Bool.or_false,
    Bool.false_eq_true, if_false]
  rfl

theorem regionCleared_keeps (h : s.calm) (r : Region) :
    KeepsRegions { s with regions := s.regions ++ [r] } (s.regionCleared p n c r frames) := by
  have hwith : KeepsRegions { s with regions := s.regions ++ [r] } (s.withRegion c r) := ⟨rfl, rfl, rfl⟩
  exact hwith.trans ((clearRegion_keepsRegions (s := s.withRegion c r) h ..).trans (hostSees_keepsRegions ..))

theorem regionCleared_mem (h : s.calm) (hmig : s.migrations = []) (r : Region) :
    (s.regionCleared p n c r frames).mem = clearedMem s.mem frames r := by
  rw [regionCleared, hostSees_mem]
  exact clearRegion_mem (s := s.withRegion c r) h hmig ..

theorem exec_regionCreate_of_creatable (hp : p < s.parts.length) (hcalm : s.calm) (hready : s.nodeReady p n d) (hkind : d.kind = 4)
    (hread : s.frontRead d.ctx d.payload.toNat 64 = .ok b) (h : s.Creatable p d b c i frames) (hports : s.portsServe (.regionCreate p n)) :
    ∃ t, exec (.regionCreate p n) s = .next t ∧ t.regions = s.regions ++ [s.newRegion p d b c i] ∧ t.fibres = s.fibres ∧
      t.node p n = some { d with phase := .ended 0 (s.newRegion p d b c i).handle.toNat, ctime := max d.ctime (s.framesTime frames) } ∧
      (s.migrations = [] → t.mem = clearedMem s.mem frames (s.newRegion p d b c i)) := by
  have hexec : exec (.regionCreate p n) s = evPort "REGION_CREATE"
      (some ((s.createRegion p n d b).frontHas p d.ctx (s.payloadRanges d))) := by
    change evPort _ (s.dispatch p n _ _) = _
    rw [dispatch_of_nodeReady hready (by simp [hkind])]
    simp only [hread, Option.map_some]
  obtain ⟨hfibres, hregions, hparts⟩ := regionCleared_keeps (p := p) (n := n) (c := c) (frames := frames) hcalm (s.newRegion p d b c i)
  have hlen : p < (s.regionCleared p n c (s.newRegion p d b c i) frames).parts.length := by rwa [hparts]
  refine ⟨_, exec_of_portsServe hexec hports, ?_⟩
  have hhas := frontHas_homes (s.createRegion p n d b) p d.ctx (s.payloadRanges d)
  obtain ⟨hfibres', hregions', hparts'⟩ := keepsRegions_of_homes hhas
  rw [hfibres', hregions', node_of_parts hparts', upToHomes_mem hhas, createRegion_of_creatable h,
    endNode_of_node (node_setNode _ hlen ..)]
  refine ⟨hregions, hfibres, node_setNode _ ?_ .., fun hmig => ?_⟩
  · simpa [setNode, setSlot] using hlen
  · rw [setNode_mem, setNode_mem]
    exact regionCleared_mem hcalm hmig _

end

/-! ### REGION_DESTROY (R258) -/

/-- The traps of the accesses that a region parked leave regions and partitions alone. -/
theorem destroyRegion_keeps (s : State) (r : Region) :
    (s.destroyRegion r).regions = s.regions.filter (fun x => x.id != r.id) ∧ (s.destroyRegion r).parts = s.parts := by
  unfold destroyRegion
  extract_lets parked s1 upd rest
  have htraps : s1.regions = s.regions ∧ s1.parts = s.parts :=
    List.foldlRecOn (motive := fun t : State => t.regions = s.regions ∧ t.parts = s.parts) _ _ ⟨rfl, rfl⟩ fun t ht a _ => ht
  obtain ⟨hregions, hparts⟩ := htraps
  exact ⟨congrArg (List.filter _) hregions, hparts⟩

theorem exec_regionDestroy_of_unnamed {s : State} {p n : Nat} {d : Node} {r : Region} (hp : p < s.parts.length)
    (hready : s.nodeReady p n d) (hkind : d.kind = 5) (hr : s.regionOf d.ctx d.payload = some r) (hpooled : r.pooled = false)
    (hside : ∀ x ∈ s.regions, x.ctx = r.ctx → x.pooled = true → x.side ≠ r.handle) (hports : s.portsServe (.regionDestroy p n)) :
    ∃ t, exec (.regionDestroy p n) s = .next t ∧ t.mem = s.mem ∧ t.regions = s.regions.filter (fun x => x.id != r.id) ∧
      t.node p n = some { d with phase := .ended 0 0 } := by
  have hunnamed : (s.regions.any fun x => x.ctx == r.ctx && x.pooled && x.side == r.handle) = false := by
    simpa [List.any_eq_false] using hside
  have hexec : exec (.regionDestroy p n) s = evPort "REGION_DESTROY"
      (some (((s.destroyRegion r).endNode p n 0 0).frontHas p d.ctx (s.payloadRanges d))) := by
    change evPort _ (s.dispatch p n _ _) = _
    rw [dispatch_of_nodeReady hready (by simp [hkind])]
    simp only [hr, hpooled, hunnamed, Bool.or_false, Bool.false_eq_true, if_false, Option.map_some]
  obtain ⟨hregions, hparts⟩ := destroyRegion_keeps s r
  obtain ⟨-, hnode, -, -⟩ := hready
  rw [← node_of_parts hparts] at hnode
  have hhas := frontHas_homes ((s.destroyRegion r).endNode p n 0 0) p d.ctx (s.payloadRanges d)
  obtain ⟨-, hregions', hparts'⟩ := keepsRegions_of_homes hhas
  refine ⟨_, exec_of_portsServe hexec hports, by simp, ?_, ?_⟩
  · rw [hregions', endNode_of_node hnode]
    exact hregions
  · rw [node_of_parts hparts', endNode_of_node hnode]
    exact node_setNode _ (by rwa [hparts]) ..

end State

/-! ### The monitor and the end of a move (R263 to R266) -/

namespace Region

@[simp] theorem windowDone_id (r : Region) : r.windowDone.id = r.id := by
  unfold windowDone
  extract_lets z i b sb decided
  split
  case h_1 | h_2 => rfl
  case h_3 => split <;> rfl
  case h_4 => (repeat' split) <;> rfl

/-- A move that starts leaves the current copy and its layout as they are. -/
theorem moveTo_keeps (r : Region) (l : Layout) : (r.moveTo l).id = r.id ∧ (r.moveTo l).copy = r.copy ∧ (r.moveTo l).cur = r.cur := by
  unfold moveTo
  split <;> exact ⟨rfl, rfl, rfl⟩

/-- The end of a move makes the other copy current in the target layout, whether or not another target waits. -/
theorem endMove_of_target {r : Region} {l : Layout} (h : r.target = some l) :
    r.endMove.id = r.id ∧ r.endMove.copy = 1 - r.copy ∧ r.endMove.cur = l := by
  unfold endMove
  rw [h]
  dsimp only
  split
  · exact ⟨rfl, rfl, rfl⟩
  · split
    · exact ⟨rfl, rfl, rfl⟩
    · exact moveTo_keeps _ _

end Region

namespace State

theorem region_setRegion {s : State} {r x : Region} (hr : s.region r.id = some r) (hid : x.id = r.id) :
    (s.setRegion x).region r.id = some x := by
  unfold region at *
  rw [setRegion_regions, List.find?_map]
  have hcomp : (fun y : Region => y.id == r.id) ∘ (fun y => if (y.id == x.id) = true then x else y) = fun y => y.id == r.id := by
    funext y
    by_cases hy : y.id = r.id <;> simp [hid, hy]
  rw [hcomp, hr]
  simp [hid]

section
variable {s : State} {r : Region} (hr : s.region r.id = some r)
include hr

theorem exec_monitorNotice_of_notice {m : Nat × List Word} {rest : List (Nat × List Word)} (hnotices : r.notices = m :: rest)
    (hopen : r.wcount < r.window) :
    exec (.monitorNotice r.id) s = .next (s.setRegion ({ r with notices := rest }.notice m.1 m.2)) := by
  simp only [exec, execMonitorNotice, hr, hnotices, if_neg (Nat.not_le.2 hopen), ev]

theorem exec_windowEnd_of_full (hfull : r.window ≤ r.wcount) : exec (.windowEnd r.id) s = .next (s.setRegion r.windowDone) := by
  simp only [exec, execWindowEnd, hr, if_neg (Nat.not_lt.2 hfull), ev]

theorem exec_driftTile_of_reachable {l : Layout} (htarget : r.target = some l) (hframes : r.pooled = true → r.frames ≠ [])
    (hfault : s.driftFault r l r.tileK = none) (hports : s.portsServe (.driftTile r.id)) :
    exec (.driftTile r.id) s = .next (s.driftTile r l) := by
  have hpresent : (r.pooled && r.frames.isEmpty) = false := by simpa using hframes
  refine exec_of_portsServe (name := "DRIFT_TILE") ?_ hports
  simp only [exec, execDriftTile, hr, htarget, hpresent, hfault, Bool.false_eq_true, if_false]

end

/-! ### DRIFT_TILE (R266, R267) -/

theorem driftElem_keepsRegions (s : State) (r : Region) (t : Layout) (x : List Nat) : KeepsRegions s (s.driftElem r t x) := by
  unfold driftElem
  extract_lets s0
  have hread : KeepsRegions s s0 := by
    dsimp only [s0]
    split
    · exact keepsRegions_of_homes (homeReads_homes ..)
    · exact keepsRegions_refl s
  split
  · extract_lets m1 m2 refused s1
    have hwrote : KeepsRegions s0 s1 := by
      refine KeepsRegions.trans ?_ ((placeWrote_keepsRegions ..).trans (keepsRegions_of_homes (frontTook_homes ..)))
      exact ⟨rfl, rfl, rfl⟩
    refine (hread.trans hwrote).trans (keepsRegions_foldl (fun u w => ?_) _ _)
    dsimp only
    split
    · exact ⟨rfl, rfl, rfl⟩
    · exact keepsRegions_refl u
  · exact hread

theorem putPad_keepsRegions (s : State) (r : Region) (copy : Nat) (t : Layout) (x : List Nat) :
    KeepsRegions s (s.putPad r copy t x) := by
  unfold putPad
  split
  · refine KeepsRegions.trans ?_ ((placeWrote_keepsRegions ..).trans (keepsRegions_of_homes (frontTook_homes ..)))
    exact ⟨rfl, rfl, rfl⟩
  · exact keepsRegions_refl s

/-- The region after one more tile of a move to l: the last one ends the move. -/
def tileMoved (r : Region) (l : Layout) : Region :=
  if r.tiles l ≤ r.tileK + 1 then { r with tileK := r.tileK + 1 }.endMove else { r with tileK := r.tileK + 1 }

/-- A tile that moves changes fibres, regions and partitions only in the region's own entry. -/
theorem driftTile_moves (s : State) (r : Region) (l : Layout) :
    ∃ u, KeepsRegions s u ∧ s.driftTile r l = u.setRegion (tileMoved r l) := by
  refine ⟨_, ?_, rfl⟩
  split
  · exact keepsRegions_refl s
  · exact (keepsRegions_foldl (fun _ _ => putPad_keepsRegions ..) _ _).trans (keepsRegions_foldl (fun _ _ => driftElem_keepsRegions ..) _ _)

theorem tileMoved_id {r : Region} {l : Layout} (h : r.target = some l) : (tileMoved r l).id = r.id := by
  obtain ⟨hid, -, -⟩ := Region.endMove_of_target (r := { r with tileK := r.tileK + 1 }) h
  unfold tileMoved
  split
  · exact hid
  · rfl

theorem tileMoved_of_target {r : Region} {l : Layout} (h : r.target = some l) :
    if r.tiles l ≤ r.tileK + 1 then (tileMoved r l).copy = 1 - r.copy ∧ (tileMoved r l).cur = l
    else tileMoved r l = { r with tileK := r.tileK + 1 } := by
  obtain ⟨-, hcopy, hcur⟩ := Region.endMove_of_target (r := { r with tileK := r.tileK + 1 }) h
  unfold tileMoved
  split
  · exact ⟨hcopy, hcur⟩
  · rfl

end State

/-- Settles O50: a created region by what clearing its frames leaves, both copies and their bits one behind the other (log entry 68); a
destroyed one by its table; the monitor's turns by their results, and a tile by what moving its elements leaves alone. -/
theorem regionEventsComplete : Obligations.RegionEventsComplete := by
  unfold Obligations.RegionEventsComplete
  refine fun s p n d r => ⟨?create, State.exec_regionDestroy_of_unnamed, fun m rest hr hnotices hopen => ?notice, fun hr hfull => ?window,
    fun l hr htarget hframes hfault hports => ?tile⟩
  case create =>
    intro b c i frames hp hcalm hready hkind hread hc hi x check y hsound hapart hside hpages hrange hports
    have h : s.Creatable p d b c i frames := ⟨hc, hi, hsound, hapart, hside, hpages, hrange⟩
    obtain ⟨t, hexec, hregions, hfibres, hnode, hmem⟩ := State.exec_regionCreate_of_creatable hp hcalm hready hkind hread h hports
    refine ⟨t, hexec, hregions, hfibres, hnode, fun hmig => ?_⟩
    rw [hmem hmig]
    refine ⟨fun w hw => State.clearedMem_full _ _ hw, fun hclear off hoff hin => ?_, fun hset hnodup halign off hoff hin => ?_⟩
    · exact (State.clearedMem_byte s.mem hoff hin).trans (by rw [State.setBits_of_clear _ hclear]; rfl)
    · refine (State.clearedMem_byte s.mem hoff hin).trans (if_congr ?_ rfl rfl)
      exact State.frameKey_mem_setBits hset hnodup halign h.storage_le hin
  case notice => exact State.exec_monitorNotice_of_notice hr hnotices hopen
  case window =>
    rw [State.exec_windowEnd_of_full hr hfull, State.setRegion, Region.windowDone_id]
  case tile =>
    obtain ⟨u, ⟨hfibres, hregions, -⟩, hmoved⟩ := s.driftTile_moves r l
    refine ⟨_, State.tileMoved r l, State.exec_driftTile_of_reachable hr htarget hframes hfault hports, ?_⟩
    rw [hmoved]
    refine ⟨hfibres, State.region_setRegion ?_ (State.tileMoved_id htarget), State.tileMoved_of_target htarget⟩
    rwa [State.region, hregions, ← State.region]

end Sys2Proof.Machine

/-! ## Sessions (R365 to R368)

How a session opens and shuts, and how its keys are replaced. -/

namespace Sys2Proof.Machine

namespace State

/-! ### The sessions of a partition -/

section
variable (s : State) (p : Nat) (y : Session)

@[simp] theorem setSession_fibres : (s.setSession p y).fibres = s.fibres := rfl
@[simp] theorem setSession_links : (s.setSession p y).links = s.links := rfl
@[simp] theorem setSession_linkJobs : (s.setSession p y).linkJobs = s.linkJobs := rfl
@[simp] theorem setSession_remotePuts : (s.setSession p y).remotePuts = s.remotePuts := rfl
@[simp] theorem setSession_portWait : (s.setSession p y).portWait = s.portWait := rfl
@[simp] theorem setSession_parts_length : (s.setSession p y).parts.length = s.parts.length := by simp [setSession]

end

section
variable {s t : State} {p n : Nat} {x y : Session}

theorem session_n (h : s.session p n = some x) : x.n = n := by
  have := List.find?_some h
  simp only [Bool.and_eq_true, beq_iff_eq] at this
  exact this.1

theorem session_isOpen (h : s.session p n = some x) : x.isOpen = true := by
  have := List.find?_some h
  simp only [Bool.and_eq_true] at this
  exact this.2

/-- A partition that does not exist has no session. -/
theorem lt_of_session (h : s.session p n = some x) : p < s.parts.length := by
  by_contra hp
  have hpart : s.part p = .initial := List.getD_eq_default _ _ (Nat.not_lt.1 hp)
  rw [session, hpart] at h
  exact absurd h nofun

theorem session_of_parts (h : t.parts = s.parts) (p n : Nat) : t.session p n = s.session p n := by
  simp [session, part, h]

/-- An open session that is replaced under its number is found again. -/
theorem session_setSession (h : s.session p n = some x) (hn : y.n = n) (hopen : y.isOpen = true) :
    (s.setSession p y).session p n = some y := by
  rw [setSession, session, part_updPart_same _ _ (lt_of_session h)]
  rw [session] at h
  dsimp only
  generalize (s.part p).sessions = l at h ⊢
  induction l with
  | nil => exact absurd h nofun
  | cons z zs ih =>
    by_cases hz : z.n = n
    · simp [hz, hn, hopen]
    · rw [List.find?_cons_of_neg (by simp [hz])] at h
      rw [List.map_cons, if_neg (by simpa [hn] using hz), List.find?_cons_of_neg (by simp [hz])]
      exact ih h

/-! ### Sessions that are lost (R367) -/

theorem loseSession_parts (s : State) (p n : Nat) : (s.loseSession p n).parts = (s.updPart p (fun pt => { pt with
    sessions := pt.sessions.map (fun x => if x.n == n then { x with isOpen := false, newTx := none, newRx := none } else x) })).parts := rfl

/-- A put or a get job of a session that has been lost has ended; the others are as they were. -/
theorem loseSession_linkJobs (s : State) (p n : Nat) : (s.loseSession p n).linkJobs = s.linkJobs.map (fun j =>
    if j.part == p && j.session == n && decide (j.stage < 2) && j.kind != .reduce && !j.checkpoint then
      { j with stage := 2, error := 1 } else j) := rfl

theorem part_loseSession_sessions (s : State) {p : Nat} (hp : p < s.parts.length) (n : Nat) :
    ((s.loseSession p n).part p).sessions = (s.part p).sessions.map (fun x =>
      if x.n == n then { x with isOpen := false, newTx := none, newRx := none } else x) := by
  rw [part, loseSession_parts, ← part, part_updPart_same _ _ hp]

theorem part_loseSession_ne (s : State) {p q : Nat} (h : q ≠ p) (n : Nat) : (s.loseSession p n).part q = s.part q := by
  rw [part, loseSession_parts, ← part, part_updPart_ne _ _ h]

theorem session_loseSession (s : State) {p : Nat} (hp : p < s.parts.length) (n : Nat) : (s.loseSession p n).session p n = none := by
  rw [session, part_loseSession_sessions s hp, List.find?_eq_none]
  intro z hz
  obtain ⟨x, -, rfl⟩ := List.mem_map.1 hz
  split
  · simp
  · simp_all

/-- No put or get of a lost session is left running. -/
theorem stage_of_loseSession {j : LinkJob} (hj : j ∈ (s.loseSession p n).linkJobs) (hpart : j.part = p) (hsession : j.session = n)
    (hkind : j.kind ≠ .reduce) (hcheck : j.checkpoint = false) : 2 ≤ j.stage := by
  rw [loseSession_linkJobs] at hj
  obtain ⟨z, -, rfl⟩ := List.mem_map.1 hj
  split at hpart
  · rw [if_pos ‹_›]
  next hnot =>
    rw [if_neg hnot] at *
    by_contra hstage
    exact hnot (by simp_all)

theorem mem_loseSession_linkJobs {j : LinkJob} (hj : j ∈ s.linkJobs) (hpart : j.part = p) (hsession : j.session = n)
    (hkind : j.kind ≠ .reduce) (hcheck : j.checkpoint = false) (hstage : j.stage < 2) :
    { j with stage := 2, error := 1 } ∈ (s.loseSession p n).linkJobs := by
  rw [loseSession_linkJobs]
  refine List.mem_map.2 ⟨j, hj, if_pos ?_⟩
  simp [hpart, hsession, hkind, hcheck, hstage]

/-- A session loss opens none. -/
theorem loseSession_shuts {q m : Nat} {z : Session} (h : z ∈ ((s.loseSession q m).part p).sessions) (hopen : z.isOpen = true) :
    z ∈ (s.part p).sessions ∧ (p = q → z.n ≠ m) := by
  by_cases hpq : p = q
  · subst hpq
    rcases Nat.lt_or_ge p s.parts.length with hp | hp
    · rw [part_loseSession_sessions s hp] at h
      obtain ⟨x, hx, rfl⟩ := List.mem_map.1 h
      split at hopen
      · cases hopen
      next hn => rw [if_neg hn]; exact ⟨hx, fun _ => by simpa using hn⟩
    · have hpart : (s.loseSession p m).part p = .initial :=
        List.getD_eq_default _ _ (by rw [loseSession_parts]; simpa using hp)
      rw [hpart] at h
      exact absurd h List.not_mem_nil
  · rw [part_loseSession_ne s hpq] at h
    exact ⟨h, fun e => absurd e hpq⟩

/-- Of the sessions of a list that are lost, none is open afterwards, and no other session opens. -/
theorem foldl_loseSession_shuts (l : List (Nat × Nat)) (s : State) {z : Session}
    (h : z ∈ ((l.foldl (fun s x => s.loseSession x.1 x.2) s).part p).sessions) (hopen : z.isOpen = true) :
    z ∈ (s.part p).sessions ∧ (p, z.n) ∉ l := by
  induction l generalizing s with
  | nil => exact ⟨h, List.not_mem_nil⟩
  | cons x l ih =>
    obtain ⟨hmem, hnot⟩ := ih _ h
    obtain ⟨hs, hne⟩ := loseSession_shuts hmem hopen
    refine ⟨hs, fun hin => ?_⟩
    rcases List.mem_cons.1 hin with rfl | hin
    · exact hne rfl rfl
    · exact hnot hin

theorem foldl_loseSession_rest (l : List (Nat × Nat)) (s : State) :
    (l.foldl (fun s x => s.loseSession x.1 x.2) s).mem = s.mem ∧ (l.foldl (fun s x => s.loseSession x.1 x.2) s).fibres = s.fibres :=
  List.foldlRecOn (motive := fun t : State => t.mem = s.mem ∧ t.fibres = s.fibres) _ _ ⟨rfl, rfl⟩ fun _ ht _ _ => ht

theorem mem_sessionsOn {link : Nat} (hp : p < 16) (hx : x ∈ (s.part p).sessions) (hopen : x.isOpen = true) (hlink : x.link = link) :
    (p, x.n) ∈ s.sessionsOn link := by
  rw [sessionsOn, ← List.flatMap_eq_foldl]
  refine List.mem_flatMap.2 ⟨p, List.mem_range.2 hp, List.mem_map.2 ⟨x, List.mem_filter.2 ⟨hx, ?_⟩, rfl⟩⟩
  simp [hopen, hlink]

end

/-! ### Flits that leave (R364, R366) -/

/-- What a flit that leaves changes: its link's replay buffer and sequence, and its session's counter. -/
theorem sendFlitOn_of_room {s : State} {link : Nat} (p : Nat) {x : Session} {kind : Nat} (hup : (s.link link).up = true)
    (hroom : (s.link link).replay.length < 256) (hcount : x.txCount < if kind = 3 then 2 ^ 32 else 2 ^ 32 - 1) (job off : Nat)
    (payload : List Byte) :
    ∃ flit, s.sendFlitOn link p x kind job off payload = some ((s.updLink link (fun l => { l with
      txSeq := (l.txSeq + 1) % 65536, replay := l.replay ++ [(l.txSeq, flit)] })).setSession p { x with txCount := x.txCount + 1 }) := by
  have hguard : (!(s.link link).up || decide (256 ≤ (s.link link).replay.length)
      || decide ((if kind == 3 then 2 ^ 32 else 2 ^ 32 - 1) ≤ x.txCount)) = false := by
    have : ¬ (if kind == 3 then 2 ^ 32 else 2 ^ 32 - 1) ≤ x.txCount := by simpa using hcount
    simp only [hup, Nat.not_le.2 hroom, this, decide_false, Bool.not_true, Bool.or_self]
  unfold sendFlitOn
  dsimp only
  rw [hguard]
  exact ⟨_, rfl⟩

/-! ### The events of a session -/

section
variable {s : State} {p link peer n base len : Nat}

theorem session_openSession (hp : p < s.parts.length) : (s.openSession p link peer n base len).session p n = some
    { n := n, link := link, peer := peer, base := base, len := len, peerLen := Config.peerWindow link peer n s.fresh, isOpen := true
      txKey := Config.sessionKey s.fresh 0, rxKey := Config.sessionKey s.fresh 1, txCount := 0, rxCount := 0
      txSalt := Config.sessionSalt s.fresh 0, rxSalt := Config.sessionSalt s.fresh 1, newTx := none, newRx := none, attempts := 0 } := by
  have hnone : ((s.part p).sessions.filter (fun y => y.n != n)).find? (fun y => y.n == n && y.isOpen) = none := by
    rw [List.find?_eq_none]
    intro y hy
    have : y.n ≠ n := by simpa using (List.mem_filter.1 hy).2
    simp [this]
  rw [openSession, session, part_updPart_same _ _ (by exact hp)]
  dsimp only [part]
  rw [List.find?_append, ← part, hnone]
  simp

/-- What SESSION_OPEN asks of its window and its link before the handshake (R365, R368). -/
structure Openable (s : State) (p link n base len : Nat) : Prop where
  served : p < 16
  owner : s.linkOwner link = some p
  number : n < 64
  free : s.session p n = none
  aligned : base % 65536 = 0
  whole : len % 65536 = 0
  pos : len ≠ 0
  inside : ∀ i < len / 65536, ((s.part p).stage2 (base + 65536 * i) 1).isOk = true
  up : (s.link link).up = true

theorem exec_sessionOpen (h : s.Openable p link n base len) : exec (.sessionOpen p link peer n base len) s = .next
    (if Config.handshake (s.part p).roots link peer n s.fresh then s.openSession p link peer n base len else { s with fresh := s.fresh + 1 }) := by
  have hinside : (List.range (len / 65536)).all (fun i => ((s.part p).stage2 (base + 65536 * i) 1).isOk) = true := by
    simpa [List.all_eq_true] using h.inside
  have hguard : ¬ (p ≥ Config.partitions ∨ s.linkOwner link ≠ some p ∨ n ≥ 64 ∨ (s.session p n).isSome ∨ base % 65536 ≠ 0
      ∨ len % 65536 ≠ 0 ∨ len = 0 ∨ (List.range (len / 65536)).all (fun i => ((s.part p).stage2 (base + 65536 * i) 1).isOk) = false
      ∨ (s.link link).up = false) := by
    simp only [Config.partitions, h.owner, h.free, h.aligned, h.whole, h.pos, hinside, h.up]
    have := h.served
    have := h.number
    simp
    omega
  simp only [exec, execSessionOpen, if_neg hguard]
  split <;> rfl

theorem exec_sessionShut {x : Session} (h : s.session p n = some x) {i : Instr} (hi : i = .sessionClose p n ∨ i = .sessionLoss p n) :
    exec i s = .next (s.loseSession p n) := by
  rcases hi with rfl | rfl
  · simp only [exec, execSessionClose, h, Option.map_some, ev]
  · simp only [exec, execSessionLoss, h, Option.map_some, ev]

theorem exec_linkDownExpiry (hdown : (s.link link).up = false) (hlate : (s.link link).downSince + 1000000000 < s.time)
    (hsome : s.sessionsOn link ≠ []) :
    exec (.linkDownExpiry link) s = .next ((s.sessionsOn link).foldl (fun s x => s.loseSession x.1 x.2) s) := by
  have hempty : (s.sessionsOn link).isEmpty = false := by simpa using hsome
  simp only [exec, execLinkDownExpiry, hdown, Nat.not_le.2 hlate, hempty, decide_false, Bool.or_self, Bool.false_eq_true, if_false, ev]

variable {x : Session}

/-- The session with its receive key agreed anew, where that has reached its threshold and none is agreed yet (R366). -/
def agreed (s : State) (x : Session) : Session :=
  { x with attempts := x.attempts + 1, newRx := if rekeyAt ≤ x.rxCount && x.newRx.isNone then some s.fresh else x.newRx }

theorem agreed_newRx (s : State) (x : Session) :
    (s.agreed x).newRx = if 2 ^ 32 - 2 ^ 20 ≤ x.rxCount ∧ x.newRx = none then some s.fresh else x.newRx := by
  have hthreshold : rekeyAt = 2 ^ 32 - 2 ^ 20 := rfl
  simp only [agreed, Bool.and_eq_true, decide_eq_true_eq, Option.isNone_iff_eq_none, hthreshold]

/-- The session with its send key replaced and that key's counter at its start (R366). -/
def switched (s : State) (x : Session) : Session :=
  { s.agreed x with txKey := Config.sessionKey s.fresh 0, txSalt := Config.sessionSalt s.fresh 0, txCount := 0 }

theorem exec_rekey (h : s.session p n = some x) (hdue : 2 ^ 32 - 2 ^ 20 ≤ x.txCount ∨ 2 ^ 32 - 2 ^ 20 ≤ x.rxCount ∧ x.newRx = none) :
    exec (.rekey p n) s = ev "REKEY" (s.rekey p x) := by
  have hgo : rekeyAt ≤ x.txCount ∨ (rekeyAt ≤ x.rxCount ∧ x.newRx = none) := hdue
  simp only [exec, execRekey, h, if_pos hgo]

theorem rekey_refused (hno : Config.handshake (s.part p).roots x.link x.peer x.n s.fresh = false) :
    s.rekey p x = some (State.loseSession { s with fresh := s.fresh + 1 } p x.n) := by
  simp only [rekey, hno, Bool.not_false, if_true]

theorem rekey_accepted (hok : Config.handshake (s.part p).roots x.link x.peer x.n s.fresh = true) :
    s.rekey p x = if x.txCount < 2 ^ 32 - 2 ^ 20 then some (State.setSession { s with fresh := s.fresh + 1 } p (s.agreed x))
      else (State.sendFlit { s with fresh := s.fresh + 1 } p (s.agreed x) 3 0 0 (Config.controlPayload 0)).map (fun s1 =>
        s1.setSession p (s.switched x)) := by
  simp only [rekey, hok, Bool.not_true, Bool.false_eq_true, if_false]
  rfl

/-- The send key of a session is replaced once its link has taken the control flit (R366). -/
theorem rekey_sends (h : s.session p n = some x) (hok : Config.handshake (s.part p).roots x.link x.peer x.n s.fresh = true)
    (hdue : 2 ^ 32 - 2 ^ 20 ≤ x.txCount) (hend : x.txCount < 2 ^ 32) (hup : (s.link x.link).up = true)
    (hroom : (s.link x.link).replay.length < 256) :
    ∃ t, s.rekey p x = some t ∧ t.mem = s.mem ∧ t.fibres = s.fibres ∧ t.session p n = some (s.switched x) := by
  have hn := session_n h
  have hopen := session_isOpen h
  obtain ⟨flit, hflit⟩ := sendFlitOn_of_room (s := { s with fresh := s.fresh + 1 }) p (x := s.agreed x) (kind := 3) hup hroom hend
    0 0 (Config.controlPayload 0)
  rw [rekey_accepted hok, if_neg (Nat.not_lt.2 hdue), sendFlit]
  refine ⟨_, congrArg (Option.map _) hflit, rfl, rfl, session_setSession (x := { s.agreed x with txCount := x.txCount + 1 })
    (session_setSession (x := x) ?_ hn hopen) hn hopen⟩
  exact h

end

end State

/-- Settles O57: an opened session is the one the handshake gives; what shuts sessions by what losing one leaves; a rekey by its
handshake and the direction that has reached its threshold. -/
theorem sessionEventsComplete : Obligations.SessionEventsComplete := by
  unfold Obligations.SessionEventsComplete
  intro s p link peer n base len hp16 hp once
  refine ⟨fun howner hn hfree hbase hlen hsome hinside hup => ⟨fun hok => ?opened, fun hno => ?refused⟩, fun x hx i hi => ?shut,
    fun hdown hlate hsome => ?expiry, fun x hx hdue => ?rekey⟩
  case opened =>
    have hopen : s.Openable p link n base len := ⟨hp16, howner, hn, hfree, hbase, hlen, hsome, hinside, hup⟩
    exact ⟨_, _, (State.exec_sessionOpen hopen).trans (congrArg _ (if_pos hok)), rfl, State.session_openSession hp,
      rfl, rfl, rfl, rfl, rfl, rfl, rfl, rfl, rfl, rfl, rfl, rfl⟩
  case refused =>
    rw [State.exec_sessionOpen ⟨hp16, howner, hn, hfree, hbase, hlen, hsome, hinside, hup⟩, hno]
    rfl
  case shut =>
    exact ⟨_, State.exec_sessionShut hx hi, rfl, rfl, s.session_loseSession hp n, fun j => State.stage_of_loseSession,
      fun j => State.mem_loseSession_linkJobs⟩
  case expiry =>
    obtain ⟨hmem, hfibres⟩ := State.foldl_loseSession_rest (s.sessionsOn link) s
    refine ⟨_, State.exec_linkDownExpiry hdown hlate hsome, hmem, hfibres, fun q hq x hx hlink => ?_⟩
    by_contra hopen
    rw [Bool.not_eq_false] at hopen
    obtain ⟨hin, hnot⟩ := State.foldl_loseSession_shuts _ s hx hopen
    exact hnot (State.mem_sessionsOn hq hin hopen hlink)
  case rekey =>
    have hxn := State.session_n hx
    have hopen := State.session_isOpen hx
    have honce : once.session p n = some x := hx
    refine ⟨fun htx hend hup hroom hok => ?_, fun htx hok => ?_, fun hno => ?_⟩
    · obtain ⟨t, ht, hmem, hfibres, hs⟩ := State.rekey_sends hx (hxn ▸ hok) htx hend hup hroom
      exact ⟨t, s.switched x, by rw [State.exec_rekey hx hdue, ht, ev], hmem, hfibres, hs, rfl, rfl, rfl, rfl, rfl, s.agreed_newRx x⟩
    · refine ⟨_, s.agreed x, ?_, rfl, State.session_setSession honce hxn hopen, rfl, rfl, rfl, s.agreed_newRx x⟩
      rw [State.exec_rekey hx hdue, State.rekey_accepted (hxn ▸ hok), if_pos htx, ev]
    · rw [State.exec_rekey hx hdue, State.rekey_refused (hxn ▸ hno), hxn, ev]

end Sys2Proof.Machine

/-! ## When a channel makes an event wait (R342, R343)

The tags of a channel, and reads at the homes with no request under way and nothing dirty: none of them sends a request. -/

namespace Sys2Proof.Machine

namespace State

/-! ### Tags -/

/-- A request under way has tag t of channel ch. -/
theorem any_tag_iff (s : State) (ch t : Nat) :
    s.ports.any (fun p => p.ch == ch && p.tag == t) = true ↔ ∃ p ∈ s.ports, p.ch = ch ∧ p.tag = t := by
  simp [List.any_eq_true]

theorem freeTag_eq_none_iff (s : State) (ch : Nat) : s.freeTag ch = none ↔ ∀ t < 512, ∃ p ∈ s.ports, p.ch = ch ∧ p.tag = t := by
  rw [freeTag, List.find?_eq_none]
  refine forall_congr' fun t => ?_
  rw [List.mem_range, Bool.not_eq_true', Bool.not_eq_false, any_tag_iff]

theorem freeTag_eq_some_iff (s : State) (ch t : Nat) :
    s.freeTag ch = some t ↔
      t < 512 ∧ (∀ p ∈ s.ports, p.ch = ch → p.tag ≠ t) ∧ ∀ q < t, ∃ p ∈ s.ports, p.ch = ch ∧ p.tag = q := by
  have hfree : (!s.ports.any (fun p => p.ch == ch && p.tag == t)) = true ↔ ∀ p ∈ s.ports, p.ch = ch → p.tag ≠ t := by
    simp
  have hbelow : (∀ q < t, (!!s.ports.any (fun p => p.ch == ch && p.tag == q)) = true) ↔
      ∀ q < t, ∃ p ∈ s.ports, p.ch = ch ∧ p.tag = q :=
    forall₂_congr fun q _ => by rw [Bool.not_not, any_tag_iff]
  rw [freeTag, List.find?_range_eq_some, hfree, List.mem_range, hbelow]
  exact and_left_comm

theorem sendPort_of_free {s : State} {a t : Nat} (h : s.freeTag (channelOf a) = some t) (r : PortReq) :
    s.sendPort a r = { s with ports := s.ports ++ [{ r with ch := channelOf a, tag := t, sector := sectorOf (a / 32 * 32) }] } := by
  unfold sendPort
  rw [h]

theorem sendPort_of_full {s : State} {a : Nat} (h : s.freeTag (channelOf a) = none) (r : PortReq) :
    s.sendPort a r = { s with portWait := true } := by
  unfold sendPort
  rw [h]
  rfl

end State

/-! ### Slices with nothing to write back -/

/-- No byte and no full/empty bit of the line differs from memory. -/
def L2Line.Clean (x : L2Line) : Prop := (∀ d ∈ x.dirty, d = false) ∧ ∀ d ∈ x.feDirty, d = false

namespace State

/-- No request is under way, no line of the slices is dirty, and whether the event waits is `w`. -/
structure Idle (s : State) (w : Bool) : Prop where
  ports : s.ports = []
  clean : ∀ x ∈ s.l2, x.Clean
  wait : s.portWait = w

section
variable {s t : State} {w : Bool}

theorem Idle.of_eq (h : s.Idle w) (hports : t.ports = s.ports) (hl2 : ∀ x ∈ t.l2, x ∈ s.l2) (hwait : t.portWait = s.portWait) :
    t.Idle w :=
  ⟨hports.trans h.ports, fun x hx => h.clean x (hl2 x hx), hwait.trans h.wait⟩

theorem Idle.foldl {α : Type} {f : State → α → State} (h : s.Idle w) (hf : ∀ u x, u.Idle w → (f u x).Idle w) (l : List α) :
    (l.foldl f s).Idle w :=
  List.foldlRecOn (motive := fun u : State => u.Idle w) _ _ h fun u hu x _ => hf u x hu

theorem any_false_of_forall {l : List Bool} (h : ∀ d ∈ l, d = false) : l.any (· == true) = false := by
  rw [List.any_eq_false]
  intro d hd
  simp [h d hd]

/-- A clean line that leaves its slice is not written back. -/
theorem writeBack_of_clean (s : State) {x : L2Line} (h : x.Clean) : s.writeBack x = s := by
  obtain ⟨hdirty, hfe⟩ := h
  have hnone : ∀ i, (((x.dirty.drop (32 * i)).take 32).any (· == true) || ((x.feDirty.drop (4 * i)).take 4).any (· == true)) = false := by
    intro i
    rw [any_false_of_forall fun d hd => hdirty d (List.mem_of_mem_drop (List.mem_of_mem_take hd)),
      any_false_of_forall fun d hd => hfe d (List.mem_of_mem_drop (List.mem_of_mem_take hd))]
    rfl
  unfold writeBack
  simp only [hnone]
  simp

theorem l2Victim_mem {sl ln : Nat} {x : L2Line} (h : s.l2Victim sl ln = some x) : x ∈ s.l2 := by
  unfold l2Victim at h
  dsimp only at h
  split at h
  next y hy =>
    obtain rfl := Option.some.inj h
    exact (List.mem_filter.1 (List.mem_of_find?_eq_some hy)).1
  next => exact (List.mem_filter.1 (List.mem_of_head? h)).1

theorem Idle.roomFor (h : s.Idle w) (sl ln : Nat) : (s.roomFor sl ln).Idle w := by
  unfold State.roomFor
  split
  · exact h
  · split
    · exact h
    next x hx =>
      rw [writeBack_of_clean s (h.clean x (l2Victim_mem hx))]
      exact h.of_eq rfl (fun y hy => (List.mem_filter.1 hy).1) rfl

theorem mapIdx_or_false {l m : List Bool} (hl : ∀ d ∈ l, d = false) (hm : ∀ i, m.getD i false = false) :
    ∀ d ∈ l.mapIdx (fun i x => x || m.getD i false), d = false := by
  intro d hd
  obtain ⟨i, hi, rfl⟩ := List.mem_mapIdx.1 hd
  rw [hl _ (List.getElem_mem hi), hm]
  rfl

theorem getD_noBytes (i : Nat) : noBytes.getD i false = false := by
  simp only [noBytes, List.getD_eq_getElem?_getD, List.getElem?_replicate]
  split <;> rfl

/-- Bytes that enter as valid alone leave every line clean. -/
theorem Idle.allocate (h : s.Idle w) (u : HomeUse) (ln : Nat) (valid : List Bool) : (s.allocate u ln valid noBytes []).Idle w := by
  have hnil : ∀ i, ([] : List Bool).getD i false = false := fun _ => rfl
  have hnew : ∀ d ∈ (List.replicate 8 false).mapIdx (fun i x => x || ([] : List Bool).getD i false), d = false :=
    mapIdx_or_false (fun d hd => List.eq_of_mem_replicate hd) hnil
  have hfresh : ∀ d ∈ noBytes, d = false := fun d hd => List.eq_of_mem_replicate hd
  unfold State.allocate
  extract_lets join sl wrote upd new
  have hline : new.Clean := ⟨hfresh, hnew⟩
  split
  · refine ⟨h.ports, fun x hx => ?_, h.wait⟩
    obtain ⟨y, hy, rfl⟩ := List.mem_map.1 hx
    obtain ⟨hdirty, hfe⟩ := h.clean y hy
    dsimp only [upd]
    split
    · exact ⟨mapIdx_or_false hdirty getD_noBytes, mapIdx_or_false hfe hnil⟩
    · exact ⟨hdirty, hfe⟩
  · split
    · refine ⟨h.ports, fun x hx => ?_, h.wait⟩
      rcases List.mem_append.1 hx with hx | hx
      · exact h.clean x hx
      · rw [List.mem_singleton.1 hx]
        exact hline
    · have hroom := h.roomFor sl ln
      refine ⟨hroom.ports, fun x hx => ?_, hroom.wait⟩
      dsimp only at hx
      split at hx
      · rcases List.mem_cons.1 hx with rfl | hx
        · exact hline
        · exact hroom.clean x hx
      · rcases List.mem_append.1 hx with hx | hx
        · exact hroom.clean x hx
        · rw [List.mem_singleton.1 hx]
          exact hline

theorem Idle.countLost (h : s.Idle w) : s.countLost.Idle w := h.of_eq rfl (fun _ hx => hx) rfl

theorem Idle.readSector (h : s.Idle w) (ch sec : Nat) : (s.readSector ch sec).2.Idle w := by
  unfold State.readSector
  split
  · exact h
  · exact h.of_eq rfl (fun _ hx => hx) rfl
  · exact h.countLost

/-- With no request under way tag 0 of every channel is free. -/
theorem Idle.freeTag (h : s.Idle w) (ch : Nat) : s.freeTag ch = some 0 := by
  rw [freeTag_eq_some_iff, h.ports]
  exact ⟨by decide, fun p hp => absurd hp List.not_mem_nil, fun q hq => absurd hq (Nat.not_lt_zero q)⟩

theorem Idle.bringSector (h : s.Idle w) (u : HomeUse) (sec : Nat) : (s.bringSector u sec).Idle w := by
  have hgo : ((s.freeTag (channelOf (32 * sec))).isNone || s.portAhead (channelOf (32 * sec)) (sectorOf (32 * sec))) = false := by
    simp [h.freeTag, portAhead, h.ports]
  have hread := h.readSector (channelOf (32 * sec)) (sectorOf (32 * sec))
  unfold State.bringSector
  dsimp only
  rw [hgo]
  simp only [Bool.false_eq_true, if_false]
  split
  · exact hread
  · exact hread.allocate ..

theorem Idle.cleanL2 (h : s.Idle w) (keys : List Nat) : (s.cleanL2 keys).Idle w := by
  unfold State.cleanL2
  dsimp only
  split
  · exact h
  · refine Idle.foldl ?_ (fun u _ hu => hu.countLost) _
    exact h.of_eq rfl (fun x hx => (List.mem_filter.1 hx).1) rfl

theorem Idle.useLine (h : s.Idle w) (ln : Nat) : (s.useLine ln).Idle w := by
  unfold State.useLine
  split
  · exact h
  next x hx =>
    have hmem : x ∈ s.l2 := List.mem_of_find?_eq_some hx
    split
    · refine ⟨h.ports, fun y hy => ?_, h.wait⟩
      obtain ⟨z, hz, rfl⟩ := List.mem_map.1 hy
      split <;> exact h.clean z hz
    · refine h.of_eq rfl (fun y hy => ?_) rfl
      rcases List.mem_append.1 hy with hy | hy
      · exact (List.mem_filter.1 hy).1
      · rw [List.mem_singleton.1 hy]
        exact hmem

theorem Idle.noteFrames (h : s.Idle w) (u : HomeUse) (keys : List Nat) : (s.noteFrames u keys).Idle w := by
  unfold State.noteFrames
  split
  · exact h
  · exact h.of_eq rfl (fun _ hx => hx) rfl

theorem Idle.touchLines (h : s.Idle w) (u : HomeUse) (keys : List Nat) : (s.touchLines u keys).Idle w := by
  unfold State.touchLines
  extract_lets ks lines s1 s2 s3
  have hheld : s1.Idle w := by
    dsimp only [s1]
    split
    · exact h
    · exact h.foldl (fun u _ hu => hu.allocate ..) _
  have hused : s2.Idle w := hheld.foldl (fun u x hu => hu.useLine x) _
  have hkept : s3.Idle w := by
    dsimp only [s3]
    split
    · exact hused.of_eq rfl (fun x hx => (List.mem_filter.1 hx).1) rfl
    · exact hused
  exact hkept.noteFrames ..

/-- Reads at the homes then send no request and wait for none. -/
theorem Idle.homeReads (h : s.Idle w) (u : HomeUse) (keys : List Nat) : (s.homeReads u keys).Idle w := by
  unfold State.homeReads
  dsimp only
  exact ((h.cleanL2 _).foldl (fun t x ht => ht.bringSector u x) _).touchLines ..

theorem Idle.frontReads (h : s.Idle w) (u : HomeUse) (keys : List Nat) : (s.frontReads u keys).Idle w := by
  unfold State.frontReads State.frontTook
  refine (h.homeReads u keys).foldl (fun t _ ht => ?_) _
  exact ht.of_eq rfl (fun _ hx => hx) rfl

end

/-! ### The host's read -/

/-- An event whose state waits for no tag is not refused by a port. -/
theorem evPort_ne_portBusy {name : String} {r : Option State} (h : ∀ t, r = some t → t.portWait = false) (n : String) :
    evPort name r ≠ .refused (.portBusy n) := by
  cases r with
  | none => exact nofun
  | some t => simp [evPort, h t rfl]

/-- The host's read is served while no request is under way and nothing is dirty (R293, R343). -/
theorem Idle.portsServe_hostCxlRead {s : State} (h : s.Idle false) (a n : Nat) : s.portsServe (.hostCxlRead a n) := by
  intro name
  refine evPort_ne_portBusy (fun t ht => ?_) name
  split at ht
  · obtain rfl := Option.some.inj ht
    dsimp only
    split
    · exact (h.countLost.frontReads ..).wait
    · exact (h.frontReads ..).wait
  · cases ht

end State

/-- Settles O60: the tags by what the list of requests holds; the reads by an invariant that every step of a read keeps. -/
theorem portsWaitOnlyForTags : Obligations.PortsWaitOnlyForTags := by
  unfold Obligations.PortsWaitOnlyForTags
  refine ⟨fun s ch => ⟨s.freeTag_eq_none_iff ch, s.freeTag_eq_some_iff ch⟩,
    fun s a r => ⟨fun t ht => State.sendPort_of_free ht r, fun h => State.sendPort_of_full h r⟩, fun s hports hclean => ⟨fun u keys => ?_, fun hwait => ?_⟩⟩
  · have hidle := State.Idle.homeReads ⟨hports, hclean, rfl⟩ u keys
    exact ⟨hidle.wait, hidle.ports⟩
  · exact State.Idle.portsServe_hostCxlRead ⟨hports, hclean, hwait⟩

end Sys2Proof.Machine

/-! ## Power, resets and measurements (R353, R355, R356, R358, R361) -/

namespace Sys2Proof.Machine

namespace State

/-! ### What the end of contexts and sessions leaves of time, clusters and queues -/

/-- Device time, the clusters and the queues of the partitions are as they were. -/
def KeepsClocks (s t : State) : Prop :=
  t.time = s.time ∧ t.clusters = s.clusters ∧ t.parts.map (·.queues) = s.parts.map (·.queues)

theorem keepsClocks_refl (s : State) : KeepsClocks s s := ⟨rfl, rfl, rfl⟩

theorem KeepsClocks.trans {s t u : State} (h1 : KeepsClocks s t) (h2 : KeepsClocks t u) : KeepsClocks s u := by
  obtain ⟨ht, hc, hq⟩ := h1
  obtain ⟨ht', hc', hq'⟩ := h2
  exact ⟨ht'.trans ht, hc'.trans hc, hq'.trans hq⟩

theorem keepsClocks_foldl {α : Type} {f : State → α → State} (h : ∀ s x, KeepsClocks s (f s x)) (l : List α) (s : State) :
    KeepsClocks s (l.foldl f s) :=
  List.foldlRecOn (motive := fun t => KeepsClocks s t) _ _ (keepsClocks_refl s) fun t ht x _ => ht.trans (h t x)

theorem keepsClocks_of_homes {s t : State} (h : UpToHomes s t) : KeepsClocks s t := by
  refine ⟨upToHomes_time h, ?_, ?_⟩ <;> rw [h]

theorem map_queues_modify (l : List Part) (p : Nat) {f : Part → Part} (h : ∀ x, (f x).queues = x.queues) :
    (l.modify p f).map (·.queues) = l.map (·.queues) := by
  apply List.ext_getElem
  · simp
  · intro i h1 h2
    simp only [List.getElem_map, List.getElem_modify]
    split
    · exact h _
    · rfl

theorem updPart_keepsClocks (s : State) (p : Nat) {f : Part → Part} (h : ∀ x, (f x).queues = x.queues) :
    KeepsClocks s (s.updPart p f) :=
  ⟨rfl, rfl, map_queues_modify s.parts p h⟩

theorem KeepsClocks.parts_length {s t : State} (h : KeepsClocks s t) : t.parts.length = s.parts.length := by
  obtain ⟨-, -, hq⟩ := h
  simpa using congrArg List.length hq

theorem KeepsClocks.queues {s t : State} (h : KeepsClocks s t) (p : Nat) : (t.part p).queues = (s.part p).queues := by
  obtain ⟨-, -, hq⟩ := h
  have hat := congrArg (fun l : List (List Queue) => l[p]?) hq
  simp only [List.getElem?_map] at hat
  simp only [part, List.getD_eq_getElem?_getD]
  cases ht : t.parts[p]? <;> cases hs : s.parts[p]? <;> simp_all

theorem markBitmap_keepsClocks (s : State) (keys : List Nat) : KeepsClocks s (s.markBitmap keys) := by
  unfold markBitmap
  refine keepsClocks_foldl (fun t m => ?_) _ _
  split
  · exact ⟨rfl, rfl, rfl⟩
  · exact keepsClocks_refl t

theorem homeWrote_keepsClocks (s : State) (u : HomeUse) (keys words : List Nat) : KeepsClocks s (s.homeWrote u keys words) := by
  unfold homeWrote
  exact (keepsClocks_foldl (fun _ _ => keepsClocks_of_homes (writeLine_homes ..)) _ _).trans
    ((markBitmap_keepsClocks ..).trans (keepsClocks_of_homes (touchLines_homes ..)))

theorem addHold_keepsClocks (s : State) (p m l : Nat) (up : Bool) : KeepsClocks s (s.addHold p m l up) := by
  unfold addHold
  extract_lets h h1 keys s0 s1 upd
  have hreads : KeepsClocks s s0 := keepsClocks_of_homes (homeReads_homes ..)
  have hwrote : KeepsClocks s0 s1 :=
    KeepsClocks.trans (t := { s0 with mem := s0.mem.write (s.layerKey p m l + 8) 4 h1 }) ⟨rfl, rfl, rfl⟩ (homeWrote_keepsClocks ..)
  exact hreads.trans (hwrote.trans (updPart_keepsClocks _ p fun _ => rfl))

theorem holdFor_keepsClocks (s : State) (gid : Nat) (r : DWord) (up : Bool) : KeepsClocks s (s.holdFor gid r up) := by
  unfold holdFor
  (repeat' split)
  · exact keepsClocks_refl s
  · exact keepsClocks_refl s
  · exact (addHold_keepsClocks ..).trans ⟨rfl, rfl, rfl⟩

theorem dropAcquire_keepsClocks (s : State) (a : Access) : KeepsClocks s (s.dropAcquire a) := by
  unfold dropAcquire
  split
  · exact (holdFor_keepsClocks ..).trans ⟨rfl, rfl, rfl⟩
  · exact (holdFor_keepsClocks ..).trans ⟨rfl, rfl, rfl⟩
  · exact keepsClocks_refl s

theorem clearDeques_keepsClocks (s : State) (g : Gang) : KeepsClocks s (s.clearDeques g) := by
  unfold clearDeques
  split
  · exact keepsClocks_foldl (f := fun s c => s.updCore c _) (fun _ _ => ⟨rfl, rfl, rfl⟩) _ s
  · exact keepsClocks_refl s

theorem endContext_keepsClocks (s : State) (cid kind value : Nat) : KeepsClocks s (s.endContext cid kind value) := by
  unfold endContext
  dsimp only
  have hdrop := keepsClocks_foldl dropAcquire_keepsClocks (s.accesses.filter (fun a => s.ofContext cid a.gang)) s
  generalize List.foldl dropAcquire s _ = u at *
  refine hdrop.trans (KeepsClocks.trans ?_ (keepsClocks_foldl clearDeques_keepsClocks _ _))
  refine ⟨rfl, rfl, ?_⟩
  dsimp only
  rw [List.map_map]
  rfl

theorem loseSession_keepsClocks (s : State) (p n : Nat) : KeepsClocks s (s.loseSession p n) :=
  ⟨rfl, rfl, map_queues_modify s.parts p fun _ => rfl⟩

/-! ### Contexts that end (R245, R350, R358) -/

end State

theorem Context.foldl_note_part (c : Context) (jobs : List Job) (v : Job → Nat) :
    (jobs.foldl (fun c j => c.note 4 (v j)) c).part = c.part :=
  List.foldlRecOn (motive := fun d : Context => d.part = c.part) _ _ rfl fun _ hd _ _ => hd

@[simp] theorem Context.endedWith_part (c : Context) (kind value : Nat) (jobs : List Job) : (c.endedWith kind value jobs).part = c.part :=
  (c.note kind value).foldl_note_part jobs _

namespace State

/-- Every context of t is one of s under its identifier, and lives only where it lived before and is none of `ids`. -/
def EndsContexts (s t : State) (ids : List Nat) : Prop :=
  ∀ c ∈ t.contexts, ∃ c0 ∈ s.contexts, c.id = c0.id ∧ c.part = c0.part ∧ (c.live = true → c0.live = true ∧ c.id ∉ ids)

theorem endContext_endsContexts (s : State) (cid kind value : Nat) : EndsContexts s (s.endContext cid kind value) [cid] := by
  obtain ⟨-, jobs, hcontexts⟩ := endContext_tenants s cid kind value
  intro c hc
  rw [hcontexts] at hc
  obtain ⟨c0, hc0, rfl⟩ := List.mem_map.1 hc
  refine ⟨c0, hc0, ?_⟩
  split
  · exact ⟨Context.endedWith_id .., Context.endedWith_part .., nofun⟩
  next hne => exact ⟨rfl, rfl, fun hlive => ⟨hlive, by simpa using hne⟩⟩

theorem foldl_endContext_endsContexts (ids : List Nat) (kind value : Nat) (s : State) :
    EndsContexts s (ids.foldl (fun s c => s.endContext c kind value) s) ids := by
  induction ids generalizing s with
  | nil => exact fun c hc => ⟨c, hc, rfl, rfl, fun hlive => ⟨hlive, List.not_mem_nil⟩⟩
  | cons i ids ih =>
    intro c hc
    obtain ⟨c1, hc1, hid1, hpart1, hlive1⟩ := ih _ c hc
    obtain ⟨c0, hc0, hid0, hpart0, hlive0⟩ := endContext_endsContexts s i kind value c1 hc1
    refine ⟨c0, hc0, hid1.trans hid0, hpart1.trans hpart0, fun hlive => ?_⟩
    obtain ⟨hl1, hout⟩ := hlive1 hlive
    obtain ⟨hl0, hne⟩ := hlive0 hl1
    refine ⟨hl0, fun hin => ?_⟩
    rcases List.mem_cons.1 hin with h | h
    · exact hne (by rw [← hid1, h]; exact List.mem_singleton_self i)
    · exact hout h

theorem foldl_endContext_leavesMem (ids : List Nat) (kind value : Nat) (s : State) :
    LeavesMem s (ids.foldl (fun s c => s.endContext c kind value) s) :=
  (LeavesMem.refl s).foldl fun _ _ hu => hu.endContext

theorem foldl_endContext_keepsClocks (ids : List Nat) (kind value : Nat) (s : State) :
    KeepsClocks s (ids.foldl (fun s c => s.endContext c kind value) s) :=
  keepsClocks_foldl (fun s c => endContext_keepsClocks s c kind value) ids s

theorem foldl_loseSession_keepsClocks (p : Nat) (ns : List Nat) (s : State) :
    KeepsClocks s (ns.foldl (fun s n => s.loseSession p n) s) :=
  keepsClocks_foldl (fun s n => loseSession_keepsClocks s p n) ns s

theorem foldl_loseSession_mem_contexts (p : Nat) (ns : List Nat) (s : State) :
    (ns.foldl (fun s n => s.loseSession p n) s).mem = s.mem ∧ (ns.foldl (fun s n => s.loseSession p n) s).contexts = s.contexts :=
  List.foldlRecOn (motive := fun t : State => t.mem = s.mem ∧ t.contexts = s.contexts) _ _ ⟨rfl, rfl⟩ fun _ ht _ _ => ht

/-! ### The reset of a virtual function (R358) -/

/-- The live contexts of a partition. -/
def liveContexts (s : State) (p : Nat) : List Nat := (s.contexts.filter (fun c => c.part == p && c.live)).map (·.id)

/-- A partition with its contexts and its sessions ended. -/
def vacated (s : State) (p : Nat) : State :=
  let s1 := (s.liveContexts p).foldl (fun s c => s.endContext c 11 0) s
  (((s1.part p).sessions.filter (·.isOpen)).map (·.n)).foldl (fun s n => s.loseSession p n) s1

theorem exec_vfReset (s : State) {p : Nat} (hp : p < 16) :
    exec (.vfReset p) s = .next ((s.vacated p).updPart p (fun x => { x with queues := List.replicate 8 .zero })) := by
  have hin : ¬ p ≥ Config.partitions := Nat.not_le.2 hp
  simp only [exec, execVfReset, if_neg hin]
  rfl

theorem vacated_keepsClocks (s : State) (p : Nat) : KeepsClocks s (s.vacated p) :=
  (foldl_endContext_keepsClocks ..).trans (foldl_loseSession_keepsClocks ..)

theorem vacated_mem {s : State} (h : s.NoAcquire) (p : Nat) : (s.vacated p).mem = s.mem :=
  (foldl_loseSession_mem_contexts ..).1.trans ((foldl_endContext_leavesMem ..).same h).1

theorem vacated_live {s : State} {p : Nat} {c : Context} (hc : c ∈ (s.vacated p).contexts) (hpart : c.part = p) : c.live = false := by
  rw [vacated, (foldl_loseSession_mem_contexts ..).2] at hc
  obtain ⟨c0, hc0, hid, hpart0, hlive⟩ := foldl_endContext_endsContexts (s.liveContexts p) 11 0 s c hc
  by_contra hne
  obtain ⟨hlive0, hout⟩ := hlive (by simpa using hne)
  refine hout (List.mem_map.2 ⟨c0, List.mem_filter.2 ⟨hc0, ?_⟩, hid.symm⟩)
  simp [← hpart0, hpart, hlive0]

/-! ### Bring-up (R353) -/

/-- What bring-up leaves of the physical function: what was counted and set before, and of the spare channels at least those in use. -/
def KeepsHealth (f g : Pf) : Prop :=
  g.eccHbm = f.eccHbm ∧ g.eccSram = f.eccSram ∧ g.eccLost = f.eccLost ∧ g.therm = f.therm ∧ g.rowsUsed = f.rowsUsed ∧
    ∀ x, f.spareChannel.getD x false = true → g.spareChannel.getD x false = true

theorem keepsHealth_refl (f : Pf) : KeepsHealth f f := ⟨rfl, rfl, rfl, rfl, rfl, fun _ => id⟩

theorem KeepsHealth.trans {f g h : Pf} (h1 : KeepsHealth f g) (h2 : KeepsHealth g h) : KeepsHealth f h := by
  obtain ⟨a1, a2, a3, a4, a5, a6⟩ := h1
  obtain ⟨b1, b2, b3, b4, b5, b6⟩ := h2
  exact ⟨b1.trans a1, b2.trans a2, b3.trans a3, b4.trans a4, b5.trans a5, fun x hx => b6 x (a6 x hx)⟩

theorem getD_modify_or (l : List Bool) (x y : Nat) (b : Bool) (h : l.getD y false = true) :
    (l.modify x (fun used => used || b)).getD y false = true := by
  simp only [List.getD_eq_getElem?_getD, List.getElem?_modify] at *
  cases hy : l[y]? with
  | none => simp [hy] at h
  | some v =>
    rw [hy] at h
    simp only [Option.getD_some] at h
    by_cases hxy : x = y <;> simp [hxy, h]

/-- The self-test changes which spare channels are in use: time, fibres and gangs, and the failure of a step, stay. -/
theorem trainChannels_rest (s : State) : s.trainChannels.time = s.time ∧ s.trainChannels.fibres = s.fibres ∧
    s.trainChannels.gangs = s.gangs ∧ s.trainChannels.pf.fail = s.pf.fail := by
  unfold trainChannels
  exact List.foldlRecOn (motive := fun t : State => t.time = s.time ∧ t.fibres = s.fibres ∧ t.gangs = s.gangs ∧ t.pf.fail = s.pf.fail)
    _ _ ⟨rfl, rfl, rfl, rfl⟩ fun _ ht _ _ => ht

theorem trainChannels_keepsHealth (s : State) : KeepsHealth s.pf s.trainChannels.pf := by
  unfold trainChannels
  exact List.foldlRecOn (motive := fun t : State => KeepsHealth s.pf t.pf) _ _ (keepsHealth_refl _) fun t ht x _ =>
    ht.trans ⟨rfl, rfl, rfl, rfl, rfl, fun y hy => getD_modify_or _ _ _ _ hy⟩

/-- What bring-up leaves of a module that holds neither fibres nor gangs. -/
structure BroughtUp (s t : State) : Prop where
  time : t.time = s.time
  fibres : t.fibres = s.fibres
  gangs : t.gangs = s.gangs
  health : KeepsHealth s.pf t.pf
  ready : t.pf.ready = true → t.pf.step = 5 ∧ t.pf.fail = s.pf.fail ∧ t.badSectors = [] ∧
    t.mem = (s.mem.zeroed isDevMem).filled isDevMem
  failed : t.pf.ready = false → t.pf.fail = true ∧ t.pf.step = t.pf.failCode + 1

theorem bringUp_broughtUp (s : State) : BroughtUp s s.bringUp := by
  have hfail : ∀ code, BroughtUp s (State.bringUpFail { s with fresh := s.fresh + 1 } (code + 1) code) := fun code =>
    ⟨rfl, rfl, rfl, keepsHealth_refl _, nofun, fun _ => ⟨rfl, rfl⟩⟩
  unfold bringUp
  extract_lets n s1 a b c
  split
  · exact hfail 1
  split
  · exact hfail 2
  split
  · exact hfail 3
  · obtain ⟨htime, hfibres, hgangs, hnofail⟩ : c.time = s.time ∧ c.fibres = s.fibres ∧ c.gangs = s.gangs ∧ c.pf.fail = s.pf.fail :=
      b.2.trainChannels_rest
    have hmem : c.mem = s.mem := b.2.trainChannels_mem
    have hhealth : KeepsHealth s.pf c.pf := b.2.trainChannels_keepsHealth
    clear_value c
    refine ⟨htime, hfibres, hgangs, hhealth, fun _ => ⟨rfl, hnofail, rfl, ?_⟩, nofun⟩
    rw [← hmem]
    rfl

/-- Device memory is zero and full after a successful bring-up of a module that has lost its state; host memory is as it was. -/
theorem bringUp_lostAll_byte (m : Memory) (a : Nat) :
    (((m.zeroed (fun a => !isHostMem a)).filled (fun a => !isHostMem a)).zeroed isDevMem).byte a =
      if isHostMem a then m.byte a else 0 := by
  have happart : isHostMem a = true → isDevMem a = false := by
    simp only [isHostMem, isDevMem, Bool.and_eq_true, decide_eq_true_eq, decide_eq_false_iff_not]
    omega
  rw [Memory.byte_zeroed, Memory.byte_filled, Memory.byte_zeroed]
  cases hhost : isHostMem a with
  | true => simp [happart hhost]
  | false => simp

theorem full_filled_of_full (m : Memory) (p : Nat → Bool) {w : Nat} (h : m.full w = true) : (m.filled p).full w = true := by
  simp only [Memory.full, Memory.filled, Bool.not_eq_true', List.contains_eq_mem, decide_eq_false_iff_not] at *
  exact fun hin => h (List.mem_filter.1 hin).1

/-! ### Clocks (R356) -/

theorem cluster_setClocks (s : State) {k : Nat} (hk : k < s.clusters.length) : (s.setClocks.cluster k).mhz =
    if s.pf.tripAt.isSome then 400 else match s.clusterOwner k with
      | some p => (s.part p).clockMhz
      | none => 1700 := by
  simp only [cluster, setClocks, List.getD_eq_getElem?_getD, List.getElem?_mapIdx, List.getElem?_eq_getElem hk]
  rfl

/-- A partition's clock after its power is held against its share. -/
def throttled (x : Part) (w : Nat) : Nat :=
  if x.mshare < w then max 400 (x.clockMhz - 100) else if 100 * w < 95 * x.mshare then min 1700 (x.clockMhz + 100) else x.clockMhz

/-- The state in which a partition's clock is throttled, before the clusters take it. -/
def throttle (s : State) (p w : Nat) : State :=
  let r := (s.updPart p (fun x => { x with clockMhz := throttled x w })).pick (2 ^ 64)
  r.2.updPf (fun f => { f with mpwr := r.1 })

theorem updPart_congr {s : State} {p : Nat} (hp : p < s.parts.length) {f g : Part → Part} (h : f (s.part p) = g (s.part p)) :
    s.updPart p f = s.updPart p g := by
  have hparts : s.parts.modify p f = s.parts.modify p g := by
    rw [part, List.getD_eq_getElem _ _ hp] at h
    apply List.ext_getElem?
    intro i
    simp only [List.getElem?_modify]
    by_cases hi : p = i
    · subst hi
      simp [List.getElem?_eq_getElem hp, h]
    · simp [hi]
  rw [updPart, updPart, hparts]

theorem updPart_id (s : State) (p : Nat) : s.updPart p id = s := by
  rw [updPart, List.modify_id]

theorem exec_powerThrottle (s : State) {p : Nat} (hp : p < 16) (hlen : p < s.parts.length) (w : Nat) :
    exec (.powerThrottle p w) s = .next (s.throttle p w).setClocks := by
  have hin : ¬ p ≥ Config.partitions := Nat.not_le.2 hp
  have hclock : (if (s.part p).mshare < w then s.updPart p (fun p => { p with clockMhz := max 400 (p.clockMhz - 100) })
      else if 100 * w < 95 * (s.part p).mshare then s.updPart p (fun p => { p with clockMhz := min 1700 (p.clockMhz + 100) }) else s) =
      s.updPart p (fun x => { x with clockMhz := throttled x w }) := by
    split
    next hover => exact updPart_congr hlen (by simp only [throttled, if_pos hover])
    next hover =>
      split
      next hunder => exact updPart_congr hlen (by simp only [throttled, if_neg hover, if_pos hunder])
      next hunder => exact (s.updPart_id p).symm.trans (updPart_congr hlen (by simp only [throttled, if_neg hover, if_neg hunder, id]))
  simp only [exec, execPowerThrottle, if_neg hin, hclock]
  rfl

/-! ### The status of the module (R355) -/

/-- READY, the failure and the trip at their places in the status word (R355). -/
theorem mstat_bits (s : State) : s.mstat.getLsbD 0 = s.pf.ready ∧ s.mstat.getLsbD 5 = s.pf.fail ∧ s.mstat.getLsbD 7 = s.pf.therm := by
  unfold mstat
  dsimp only
  generalize s.clusters.any _ = cap
  simp only [BitVec.getLsbD_ofNat, Nat.testBit_eq_decide_div_mod_eq]
  cases s.pf.ready <;> cases s.pf.fail <;> cases s.pf.therm <;> cases cap <;> simp <;> omega

end State

/-- Settles O55: power-good and the reset of the physical function by what bring-up leaves; the reset of a virtual function by what ended
contexts and lost sessions leave; clocks, status and measurements by their values. -/
theorem powerAndResetsComplete : Obligations.PowerAndResetsComplete := by
  unfold Obligations.PowerAndResetsComplete
  intro s
  refine ⟨?good, fun p w hp hlen => ?throttle, ⟨_, rfl, rfl, rfl, rfl, rfl, fun k hk => ?_⟩, fun t0 ht0 hlate => ?shutdown,
    fun t0 ht0 hearly => ?fall, fun p hp hlen => ?vf, fun hpower => ?pf, fun k h1 h5 => ?measure, s.mstat_bits⟩
  case good =>
    have h := State.bringUp_broughtUp s.lostAll
    refine ⟨_, rfl, h.time, h.fibres, h.gangs, fun hready => ?_, h.failed⟩
    obtain ⟨hstep, hfail, hbad, hmem⟩ := h.ready hready
    refine ⟨hstep, hfail, hbad, fun a => ?_, fun w hw => ?_⟩
    · rw [hmem]
      exact State.bringUp_lostAll_byte s.mem a
    · rw [hmem]
      exact State.full_filled_of_full _ _ (Memory.full_filled (s.mem.zeroed fun a => !isHostMem a) (fun a => !isHostMem a) (by simp [hw]))
  case throttle =>
    have hpart : (s.throttle p w).setClocks.part p = { s.part p with clockMhz := State.throttled (s.part p) w } :=
      State.part_updPart_same s _ hlen
    refine ⟨_, s.exec_powerThrottle hp hlen w, rfl, rfl, ?_, fun k hk htrip howner => ?_⟩
    · rw [hpart]
      rfl
    · rw [State.cluster_setClocks _ (by exact hk)]
      have hcool : (s.throttle p w).pf.tripAt = none := htrip
      have hown : (s.throttle p w).clusterOwner k = some p := howner
      rw [hcool, hown]
      rfl
  case shutdown =>
    refine ⟨s.shutDown, ?_, rfl, rfl, rfl, rfl, rfl, rfl⟩
    simp only [exec, execThermalShutdown, ht0, if_pos hlate, ev]
  case fall =>
    refine ⟨(s.updPf (fun f => { f with tripAt := none })).setClocks, ?_, rfl, rfl, rfl⟩
    simp only [exec, execTemperatureFall, ht0, if_pos hearly, ev]
  case vf =>
    have hkeeps := s.vacated_keepsClocks p
    refine ⟨_, s.exec_vfReset hp, hkeeps.1, fun hno => State.vacated_mem hno p, ?_, fun c => State.vacated_live, fun j hj => ?_⟩
    · rw [State.part_updPart_same _ _ (by rwa [hkeeps.parts_length])]
    · rw [State.part_updPart_ne _ _ hj, hkeeps.queues]
  case pf =>
    have h := State.bringUp_broughtUp { s.lostAll with
      time := s.time
      pf := { Pf.initial with therm := s.pf.therm, tripAt := s.pf.tripAt, eccHbm := s.pf.eccHbm, eccSram := s.pf.eccSram
                              eccLost := s.pf.eccLost, rowsUsed := s.pf.rowsUsed, spareChannel := s.pf.spareChannel } }
    obtain ⟨hhbm, hsram, hlost, htherm, hrows, hspare⟩ := h.health
    have hon : ¬ (!s.pf.powered) = true := by simp [hpower]
    exact ⟨_, congrArg (ev "PF_RESET") (if_neg hon), h.time, h.fibres, hhbm, hsram, hlost, htherm, hrows, hspare⟩
  case measure =>
    have hin : ¬ (k < 1 ∨ 5 < k) := by omega
    simp only [exec, execGetMeasurements, if_neg hin, beq_iff_eq, ev]
    rfl
  · rw [State.cluster_setClocks _ (by exact hk)]
    rfl

end Sys2Proof.Machine

/-! ## Channel ports, scrubbing and spares (R342 to R345, R348 to R351, R354) -/

namespace Sys2Proof.Machine

namespace State

/-! ### One sector (R345) -/

/-- The status with which a sector of so many bad symbols is read. -/
def sectorStatus (n : Nat) : Nat := if n = 0 then 0 else if n = 1 then 1 else 2

/-- What a read of a sector leaves: the sector corrected where that can be, and the counts (R345, R354). -/
structure SectorRead (s t : State) (ch sec : Nat) : Prop where
  rest : t = { s with badSectors := t.badSectors, rowFixes := t.rowFixes
                      pf := { s.pf with eccHbm := t.pf.eccHbm, eccLost := t.pf.eccLost } }
  corrected : s.symbols ch sec = 1 → t.pf.eccHbm = min (s.pf.eccHbm + 1) (2 ^ 64 - 1) ∧ t.symbols ch sec = 0
  lost : 1 < s.symbols ch sec → t.pf.eccLost = min (s.pf.eccLost + 1) (2 ^ 64 - 1) ∧ t.badSectors = s.badSectors
  other : ∀ sec', sectorAddr ch sec' / 32 ≠ sectorAddr ch sec / 32 → t.symbols ch sec' = s.symbols ch sec'

section
variable {s t : State} {ch sec : Nat}

theorem SectorRead.mem (h : SectorRead s t ch sec) : t.mem = s.mem := by rw [h.rest]
theorem SectorRead.fibres (h : SectorRead s t ch sec) : t.fibres = s.fibres := by rw [h.rest]
theorem SectorRead.l2 (h : SectorRead s t ch sec) : t.l2 = s.l2 := by rw [h.rest]
theorem SectorRead.ports (h : SectorRead s t ch sec) : t.ports = s.ports := by rw [h.rest]
theorem SectorRead.parts (h : SectorRead s t ch sec) : t.parts = s.parts := by rw [h.rest]
theorem SectorRead.portWait (h : SectorRead s t ch sec) : t.portWait = s.portWait := by rw [h.rest]
theorem SectorRead.channelOwner (h : SectorRead s t ch sec) (c : Nat) : t.channelOwner c = s.channelOwner c := by rw [h.rest]; rfl

theorem lookup_filter_ne (l : List (Nat × Nat)) (a b : Nat) :
    (l.filter (fun x => x.1 != a)).lookup b = if b = a then none else l.lookup b := by
  induction l with
  | nil => simp
  | cons x l ih =>
    obtain ⟨k, v⟩ := x
    by_cases hk : k = a
    · rw [List.filter_cons_of_neg (by simp [hk]), ih]
      split
      · rfl
      next hb => rw [List.lookup_cons, beq_false_of_ne (fun h => hb (h.trans hk))]
    · rw [List.filter_cons_of_pos (by simp [hk]), List.lookup_cons, List.lookup_cons, ih]
      by_cases hb : b = k
      · simp only [beq_iff_eq.2 hb]
        rw [if_neg (fun h => hk (hb.symm.trans h))]
      · rw [beq_false_of_ne hb]

theorem symbols_healSector (s : State) (ch sec sec' : Nat) : (s.healSector ch sec).symbols ch sec' =
    if sectorAddr ch sec' / 32 = sectorAddr ch sec / 32 then 0 else s.symbols ch sec' := by
  simp only [symbols, healSector, lookup_filter_ne]
  split <;> rfl

/-- A read reports what it found, and changes no more than that asks. -/
theorem readSector_sectorRead (s : State) (ch sec : Nat) :
    (s.readSector ch sec).1 = sectorStatus (s.symbols ch sec) ∧ SectorRead s (s.readSector ch sec).2 ch sec := by
  unfold readSector
  split
  next h => exact ⟨by rw [h]; rfl, rfl, by rw [h]; exact nofun, by rw [h]; exact nofun, fun _ _ => rfl⟩
  next h =>
    refine ⟨by rw [h]; rfl, rfl, fun _ => ⟨rfl, ?_⟩, by rw [h]; exact nofun, fun sec' hne => ?_⟩
    · exact (s.symbols_healSector ch sec sec).trans (if_pos rfl)
    · exact (s.symbols_healSector ch sec sec').trans (if_neg hne)
  next h0 h1 =>
    refine ⟨?_, rfl, fun h => absurd h h1, fun _ => ⟨rfl, rfl⟩, fun _ _ => rfl⟩
    simp only [sectorStatus, if_neg h0, if_neg h1]

/-- Two sectors of a line are two sectors of the device. -/
theorem sectorAddr_succ_ne (ch sec : Nat) : sectorAddr ch (sec + 1) / 32 ≠ sectorAddr ch sec / 32 := by
  unfold sectorAddr
  omega

end

/-! ### Requests that the base die performs (R343, R344) -/

section
variable {s : State} {r : PortReq} (hr : s.portReq r.ch r.tag = some r)
include hr

theorem perform_readSector (hdone : r.done = false) (hturn : s.portTurn r = true)
    (hkind : r.kind = .readSector ∨ r.kind = .partialWrite) :
    s.perform r.ch r.tag r.kind = some ((s.readSector r.ch r.sector).2.setPort { r with
      done := true, status := (sectorStatus (s.symbols r.ch r.sector), 0) }) := by
  obtain ⟨hstatus, -⟩ := s.readSector_sectorRead r.ch r.sector
  rw [← hstatus]
  unfold perform
  rcases hkind with h | h <;> simp [hr, h, hdone, hturn]

theorem perform_readLine (hdone : r.done = false) (hturn : s.portTurn r = true) (hkind : r.kind = .readLine) :
    s.perform r.ch r.tag .readLine = some (((s.readSector r.ch r.sector).2.readSector r.ch (r.sector + 1)).2.setPort { r with
      done := true, status := (sectorStatus (s.symbols r.ch r.sector), sectorStatus (s.symbols r.ch (r.sector + 1))) }) := by
  obtain ⟨hstatus, hread⟩ := s.readSector_sectorRead r.ch r.sector
  obtain ⟨hstatus', -⟩ := (s.readSector r.ch r.sector).2.readSector_sectorRead r.ch (r.sector + 1)
  rw [hread.other _ (sectorAddr_succ_ne r.ch r.sector)] at hstatus'
  rw [← hstatus, ← hstatus']
  simp only [perform, hr]
  simp [hdone, hturn, hkind]

theorem perform_writeSector (hdone : r.done = false) (hturn : s.portTurn r = true) (hkind : r.kind = .writeSector) :
    s.perform r.ch r.tag .writeSector = some ((s.healSector r.ch r.sector).setPort { r with done := true }) := by
  simp only [perform, hr]
  simp [hdone, hturn, hkind]

theorem perform_writeLine (hdone : r.done = false) (hturn : s.portTurn r = true) (hkind : r.kind = .writeLine) :
    s.perform r.ch r.tag .writeLine =
      some (((s.healSector r.ch r.sector).healSector r.ch (r.sector + 1)).setPort { r with done := true }) := by
  simp only [perform, hr]
  simp [hdone, hturn, hkind]

end

/-- The requests with one of them marked as performed. -/
theorem setPort_ports (s : State) (r x : PortReq) (h : x.ch = r.ch ∧ x.tag = r.tag) :
    (s.setPort x).ports = s.ports.map (fun y => if y.ch == r.ch && y.tag == r.tag then x else y) := by
  rw [setPort, h.1, h.2]

/-! ### Replies (R343, R344, R348) -/

/-- The bytes of its line that a read's reply puts into the slice. -/
def PortReq.gives (r : PortReq) (i : Nat) : Prop :=
  r.kind = .readLine ∧ (i < 32 ∧ r.status.1 ≠ 2 ∨ 32 ≤ i ∧ r.status.2 ≠ 2) ∨
    r.kind = .readSector ∧ r.status.1 ≠ 2 ∧ i / 32 = sectorAddr r.ch r.sector % 64 / 32

/-- Those bytes as the mask of the reply. -/
def replyMask (r : PortReq) : List Bool :=
  (List.range 64).map (fun i =>
    if r.kind == .readLine then (if i < 32 then r.status.1 != 2 else r.status.2 != 2)
    else r.status.1 != 2 && (decide (i < 32) == decide (sectorAddr r.ch r.sector % 64 < 32)))

theorem replyMask_getD {r : PortReq} (hkind : r.kind = .readSector ∨ r.kind = .readLine) {i : Nat} (hi : i < 64) :
    (replyMask r).getD i false = true ↔ PortReq.gives r i := by
  have hget : (replyMask r).getD i false = if r.kind == .readLine then (if i < 32 then r.status.1 != 2 else r.status.2 != 2)
      else r.status.1 != 2 && (decide (i < 32) == decide (sectorAddr r.ch r.sector % 64 < 32)) := by
    simp [replyMask, hi]
  rw [hget, PortReq.gives]
  rcases hkind with h | h
  · have hhalf : (decide (i < 32) = decide (sectorAddr r.ch r.sector % 64 < 32)) ↔ i / 32 = sectorAddr r.ch r.sector % 64 / 32 := by
      rw [decide_eq_decide]
      omega
    simp [h, hhalf]
  · by_cases hlow : i < 32
    · simp [h, hlow]
    · simp [h, hlow, Nat.le_of_not_lt hlow]

theorem any_replyMask {r : PortReq} (hkind : r.kind = .readSector ∨ r.kind = .readLine) :
    (replyMask r).any (· == true) = true ↔ ∃ i < 64, PortReq.gives r i := by
  have hlen : (replyMask r).length = 64 := by simp [replyMask]
  rw [List.any_eq_true]
  constructor
  · rintro ⟨b, hb, htrue⟩
    obtain ⟨i, hi, rfl⟩ := List.mem_iff_getElem.1 hb
    rw [hlen] at hi
    refine ⟨i, hi, (replyMask_getD hkind hi).1 ?_⟩
    rw [List.getD_eq_getElem _ _ (by rwa [hlen])]
    simpa using htrue
  · rintro ⟨i, hi, hgives⟩
    have hget := (replyMask_getD hkind hi).2 hgives
    rw [List.getD_eq_getElem _ _ (by rwa [hlen])] at hget
    exact ⟨true, hget ▸ List.getElem_mem _, rfl⟩

section
variable {s : State} {r : PortReq}

/-- A reply to be taken: performed, and behind the answers to older writes of its sectors. -/
structure Replies (s : State) (r : PortReq) : Prop where
  found : s.portReq r.ch r.tag = some r
  done : r.done = true
  turn : s.olderWrite r = false

theorem Replies.readReply (h : s.Replies r) (hkind : r.kind = .readSector ∨ r.kind = .readLine ∨ r.kind = .scrub) :
    s.readReply r.ch r.tag = some (if r.kind = .scrub ∨ (replyMask r).any (· == true) = false then s.dropPort r
      else (s.dropPort r).allocate { part := 0, policy := r.policy } (lineOf (sectorAddr r.ch r.sector)) (replyMask r) noBytes []) := by
  have hread : r.kind.isRead = true := by rcases hkind with h | h | h <;> rw [h] <;> rfl
  unfold State.readReply
  simp only [h.found, h.done, hread, h.turn, Bool.not_true, Bool.or_self, Bool.false_eq_true, if_false]
  by_cases hscrub : r.kind = .scrub
  · rw [if_pos (by simp [hscrub]), if_pos (.inl hscrub)]
  · rw [if_neg (by simpa using hscrub)]
    change (if (replyMask r).any (· == true) then some _ else some _) = _
    cases (replyMask r).any (· == true) with
    | true => exact congrArg some (if_neg (by simp [hscrub])).symm
    | false => exact congrArg some (if_pos (Or.inr rfl)).symm

/-- A reply that gives the slice nothing retires its request. -/
theorem Replies.exec_readData_none (h : s.Replies r) (hwait : s.portWait = false)
    (hkind : r.kind = .readSector ∨ r.kind = .readLine ∨ r.kind = .scrub) (hnone : ∀ i < 64, ¬ PortReq.gives r i) :
    exec (.readData r.ch r.tag) s = .next (s.dropPort r) := by
  have hdrop : r.kind = .scrub ∨ (replyMask r).any (· == true) = false := by
    rcases hkind with hk | hk | hk
    · exact .inr (Bool.eq_false_iff.2 fun hany => by
        obtain ⟨i, hi, hg⟩ := (any_replyMask (.inl hk)).1 hany
        exact hnone i hi hg)
    · exact .inr (Bool.eq_false_iff.2 fun hany => by
        obtain ⟨i, hi, hg⟩ := (any_replyMask (.inr hk)).1 hany
        exact hnone i hi hg)
    · exact .inl hk
  have hclear : (s.dropPort r).portWait = false := hwait
  simp only [exec, execReadData, h.readReply hkind, if_pos hdrop, evPort, hclear]
  rfl

/-- A reply that gives the slice bytes puts them into its line. -/
theorem Replies.exec_readData_some (h : s.Replies r) (hgives : ∃ i < 64, PortReq.gives r i)
    (hserve : s.portsServe (.readData r.ch r.tag)) :
    (r.kind = .readSector ∨ r.kind = .readLine) ∧ exec (.readData r.ch r.tag) s = .next ((s.dropPort r).allocate
      { part := 0, policy := r.policy } (lineOf (sectorAddr r.ch r.sector)) (replyMask r) noBytes []) := by
  have hkind : r.kind = .readSector ∨ r.kind = .readLine := by
    obtain ⟨i, -, ⟨hk, -⟩ | ⟨hk, -⟩⟩ := hgives
    · exact .inr hk
    · exact .inl hk
  have hgo : ¬ (r.kind = .scrub ∨ (replyMask r).any (· == true) = false) := by
    rw [(any_replyMask hkind).2 hgives]
    rcases hkind with hk | hk <;> simp [hk]
  refine ⟨hkind, exec_of_portsServe (name := "READ_DATA") ?_ hserve⟩
  simp only [exec, execReadData, h.readReply (hkind.elim .inl fun hk => .inr (.inl hk)), if_neg hgo]

theorem sendPort_l2 (s : State) (a : Nat) (x : PortReq) : (s.sendPort a x).l2 = s.l2 := by
  unfold sendPort
  split <;> rfl

theorem writeBack_l2 (s : State) (x : L2Line) : (s.writeBack x).l2 = s.l2 := by
  unfold writeBack
  dsimp only
  split
  · rfl
  split
  · exact sendPort_l2 ..
  · refine List.foldlRecOn (motive := fun t : State => t.l2 = s.l2) _ _ rfl fun t ht i _ => ?_
    split
    · exact ht
    · split <;> exact (sendPort_l2 ..).trans ht

/-- A line that is brought in stands in the slices, with the bytes that came as valid. -/
theorem allocate_valid (s : State) (u : HomeUse) (ln : Nat) (valid : List Bool) :
    (∃ y ∈ (s.allocate u ln valid noBytes []).l2, y.line = ln) ∧
    (∀ y ∈ (s.allocate u ln valid noBytes []).l2, y.line = ln → y.valid.length = 64 → ∀ i < 64, valid.getD i false = true →
      y.valid.getD i false = true) ∧
    ((∃ y ∈ s.l2, y.line = ln) → (s.allocate u ln valid noBytes []).ports = s.ports) := by
  unfold allocate
  extract_lets join sl wrote upd new
  have hupd : ∀ x, (upd x).line = x.line := fun x => by dsimp only [upd]; split <;> rfl
  split
  next hheld =>
    obtain ⟨x, hx, hline⟩ := List.any_eq_true.1 hheld
    refine ⟨⟨upd x, List.mem_map.2 ⟨x, hx, rfl⟩, by rw [hupd]; simpa using hline⟩, fun y hy hl hlen i hi hv => ?_, fun _ => rfl⟩
    obtain ⟨z, -, rfl⟩ := List.mem_map.1 hy
    rw [hupd] at hl
    have hz : (z.line == ln) = true := by simpa using hl
    dsimp only [upd, join] at hlen ⊢
    simp only [hz, if_true, List.length_mapIdx] at hlen ⊢
    rw [List.getD_eq_getElem _ _ (by simpa [hlen] using hi), List.getElem_mapIdx, hv, Bool.or_true]
  next hheld =>
    have hnone : ∀ y ∈ s.l2, y.line ≠ ln := by
      intro y hy hl
      exact hheld (List.any_eq_true.2 ⟨y, hy, by simpa using hl⟩)
    have hnew : ∀ i, valid.getD i false = true → new.valid.getD i false = true := fun _ => id
    refine ⟨?_, fun y hy hl _ i _ hv => ?_, fun ⟨y, hy, hl⟩ => absurd hl (hnone y hy)⟩
    · split
      · exact ⟨new, List.mem_append_right _ List.mem_cons_self, rfl⟩
      · refine ⟨new, ?_, rfl⟩
        dsimp only
        split
        · exact List.mem_cons_self
        · exact List.mem_append_right _ List.mem_cons_self
    · suffices hmem : y ∈ s.l2 ∨ y = new by
        rcases hmem with hold | rfl
        · exact absurd hl (hnone y hold)
        · exact hnew i hv
      split at hy
      · exact (List.mem_append.1 hy).imp id List.mem_singleton.1
      · have hroom : ∀ z ∈ (s.roomFor sl ln).l2, z ∈ s.l2 := by
          intro z hz
          unfold roomFor at hz
          split at hz
          · exact hz
          · split at hz
            · exact hz
            · exact (writeBack_l2 s _) ▸ (List.mem_filter.1 hz).1
        dsimp only at hy
        split at hy
        · exact (List.mem_cons.1 hy).symm.imp (hroom y) id
        · exact (List.mem_append.1 hy).imp (hroom y) List.mem_singleton.1

/-- The reply to a read, for every kind of read and every part that it gives. -/
theorem Replies.readDataClause (h : s.Replies r) (hwait : s.portWait = false)
    (hkind : r.kind = .readSector ∨ r.kind = .readLine ∨ r.kind = .scrub) :
    let retired := s.ports.filter (fun y => !(y.ch == r.ch && y.tag == r.tag))
    ((∀ i < 64, ¬ PortReq.gives r i) → exec (.readData r.ch r.tag) s = .next { s with ports := retired }) ∧
      ((∃ i < 64, PortReq.gives r i) → s.portsServe (.readData r.ch r.tag) →
        ∃ t, exec (.readData r.ch r.tag) s = .next t ∧ t.mem = s.mem ∧ t.fibres = s.fibres ∧
          (∃ y ∈ t.l2, y.line = sectorAddr r.ch r.sector / 64) ∧
          (∀ y ∈ t.l2, y.line = sectorAddr r.ch r.sector / 64 → y.valid.length = 64 → ∀ i < 64, PortReq.gives r i →
            y.valid.getD i false = true) ∧
          ∀ x, s.l2Line (sectorAddr r.ch r.sector) = some x → t.ports = retired) := by
  refine ⟨fun hnone => h.exec_readData_none hwait hkind hnone, fun hgives hserve => ?_⟩
  obtain ⟨hline, hexec⟩ := h.exec_readData_some hgives hserve
  obtain ⟨hstands, hvalid, hports⟩ := (s.dropPort r).allocate_valid { part := 0, policy := r.policy }
    (lineOf (sectorAddr r.ch r.sector)) (replyMask r)
  have hhomes := (s.dropPort r).allocate_homes { part := 0, policy := r.policy } (lineOf (sectorAddr r.ch r.sector)) (replyMask r) noBytes []
  refine ⟨_, hexec, upToHomes_mem hhomes, upToHomes_fibres hhomes, hstands, fun y hy hl hlen i hi hg => ?_, fun x hx => hports ⟨x, ?_⟩⟩
  · exact hvalid y hy hl hlen i hi ((replyMask_getD hline hi).2 hg)
  · exact ⟨List.mem_of_find?_eq_some hx, by simpa using List.find?_some hx⟩

/-- The answer to a write (R344). -/
theorem exec_writeDone (hfound : s.portReq r.ch r.tag = some r) (hdone : r.done = true) (hwrite : r.kind.isRead = false) :
    exec (.writeDone r.ch r.tag) s = .next (match r.ctx with
      | some c => if r.status.1 == 2 then (s.dropPort r).noteFatal c 5 (sectorAddr r.ch r.sector) else s.dropPort r
      | none => s.dropPort r) := by
  simp only [exec, execWriteDone, writeReply, hfound, hdone, hwrite]
  cases r.ctx <;> rfl

/-- A fatal record is added to the context that it names. -/
theorem noteFatal_contexts (s : State) (c kind value : Nat) {x : Context} (hx : x ∈ s.contexts) (hid : x.id = c) :
    ∃ y ∈ (s.noteFatal c kind value).contexts, y.id = c ∧ (kind, value) ∈ y.fatal := by
  have hsome : (s.context c).isSome := List.find?_isSome.2 ⟨x, hx, by simp [hid]⟩
  obtain ⟨d, hd⟩ := Option.isSome_iff_exists.1 hsome
  obtain ⟨z, hz, hfatal⟩ := noteFatal_context hd kind value
  exact ⟨z, List.mem_of_find?_eq_some hz, by simpa using List.find?_some hz, by rw [hfatal]; simp⟩

theorem noteFatal_ports (s : State) (c kind value : Nat) : (s.noteFatal c kind value).ports = s.ports := by
  unfold noteFatal
  split <;> rfl

theorem noteFatal_parts (s : State) (c kind value : Nat) : (s.noteFatal c kind value).parts = s.parts := by
  unfold noteFatal
  split <;> rfl

end

/-! ### Scrubbing (R349) -/

/-- The state in which a scrub read of a sector is performed: the read of a channel's first sector begins a pass. -/
def scrubPass (s : State) (ch sec : Nat) : State :=
  if sec = 0 then { s with rowFixes := s.rowFixes.filter (fun x => x.1 / 2 ^ 32 != ch) } else s

/-- The frame of a sector is on its partition's list of retired frames. -/
def frameKnown (s : State) (ch sec : Nat) : Bool :=
  match s.channelOwner ch with
  | some p => (s.part p).retired.contains (sectorAddr ch sec / 65536)
  | none => false

theorem scrubPass_rest (s : State) (ch sec : Nat) : s.scrubPass ch sec = { s with rowFixes := (s.scrubPass ch sec).rowFixes } := by
  unfold scrubPass
  split <;> rfl

theorem symbols_scrubPass (s : State) (ch sec : Nat) : (s.scrubPass ch sec).symbols ch sec = s.symbols ch sec := by
  rw [scrubPass_rest]
  rfl

theorem scrub_eq (s : State) (ch sec : Nat) : s.scrub ch sec =
    (let r := (s.scrubPass ch sec).readSector ch sec
     (r.1, if r.1 == 2 && !(s.scrubPass ch sec).frameKnown ch sec then r.2.retire ch sec else r.2)) := by
  unfold scrub scrubPass
  by_cases h : sec = 0
  · rw [if_pos h, if_pos (beq_iff_eq.2 h)]
    rfl
  · rw [if_neg h, if_neg (by simpa using h)]
    rfl

/-- A frame is retired to the list of the channel's partition, and the hypervisor and the frame's last context are told. -/
structure Retires (s t : State) (ch sec : Nat) : Prop where
  mem : t.mem = s.mem
  fibres : t.fibres = s.fibres
  ports : t.ports = s.ports
  badSectors : t.badSectors = s.badSectors
  eccLost : t.pf.eccLost = s.pf.eccLost
  portWait : t.portWait = s.portWait
  retired : ∀ p, s.channelOwner ch = some p → p < s.parts.length → (s.part p).retired.length < 64 →
    sectorAddr ch sec / 65536 ∈ (t.part p).retired

theorem Retires.noteFatal {s t : State} {ch sec : Nat} (h : Retires s t ch sec) (c kind value : Nat) :
    Retires s (t.noteFatal c kind value) ch sec := by
  obtain ⟨hmem, hfibres, hports, hbad, hecc, hwait, hretired⟩ := h
  have hparts := t.noteFatal_parts c kind value
  obtain ⟨hmem', hfibres', -⟩ := t.noteFatal_rest c kind value
  refine ⟨hmem'.trans hmem, hfibres'.trans hfibres, (t.noteFatal_ports c kind value).trans hports, ?_, ?_, ?_, fun p hp hlen hroom => ?_⟩
  · rw [← hbad]
    unfold State.noteFatal
    split <;> rfl
  · rw [← hecc]
    unfold State.noteFatal
    split <;> rfl
  · rw [← hwait]
    unfold State.noteFatal
    split <;> rfl
  · rw [part, hparts]
    exact hretired p hp hlen hroom

theorem retire_retires (s : State) (ch sec : Nat) : Retires s (s.retire ch sec) ch sec := by
  have hlast : ∀ u : State, Retires s u ch sec → Retires s (match u.frameCtx.lookup (sectorAddr ch sec / 65536) with
      | some c => u.noteFatal c 6 (sectorAddr ch sec)
      | none => u) ch sec := fun u hu => by
    split
    · exact hu.noteFatal ..
    · exact hu
  unfold retire
  apply hlast
  cases hown : s.channelOwner ch with
  | none => exact ⟨rfl, rfl, rfl, rfl, rfl, rfl, fun p hp => absurd (hown.symm.trans hp) nofun⟩
  | some q =>
    refine ⟨rfl, rfl, rfl, rfl, rfl, rfl, fun p hp hlen hroom => ?_⟩
    obtain rfl : q = p := Option.some.inj (hown.symm.trans hp)
    change sectorAddr ch sec / 65536 ∈ ((s.updPart q _).part q).retired
    rw [part_updPart_same s _ hlen]
    split
    next hin => simpa using hin
    · rw [if_neg (by omega)]
      simp

section
variable {s : State} {ch sec : Nat}

/-- The request that a scrub read leaves under way until its reply is taken. -/
def scrubReq (ch sec tag st : Nat) : PortReq :=
  { kind := .scrub, ch := ch, tag := tag, sector := sec, done := true, status := (st, 0) }

/-- A sector's read with its frame retired where no list has it. -/
def scrubbed (s : State) (ch sec : Nat) : State := (s.scrub ch sec).2

theorem exec_scrubRead (hwait : s.portWait = false) (hch : ch < 256) (hsec : sec < 50331648) (hahead : s.portAhead ch sec = false)
    {tag : Nat} (htag : s.freeTag ch = some tag) (hclear : (s.scrubbed ch sec).portWait = s.portWait) :
    exec (.scrubRead ch sec) s = .next { s.scrubbed ch sec with
      ports := (s.scrubbed ch sec).ports ++ [scrubReq ch sec tag (s.scrub ch sec).1] } := by
  have hscrub : s.scrubRead ch sec = some { s.scrubbed ch sec with
      ports := (s.scrubbed ch sec).ports ++ [scrubReq ch sec tag (s.scrub ch sec).1] } := by
    rw [scrubRead, hahead, htag]
    rfl
  simp only [exec, execScrubRead, hch, hsec, and_self, if_true, hscrub, evPort, hclear, hwait]
  rfl

theorem exec_scrubRead_noTag (hch : ch < 256) (hsec : sec < 50331648) (hahead : s.portAhead ch sec = false) (htag : s.freeTag ch = none) :
    exec (.scrubRead ch sec) s = .refused (.portBusy "SCRUB_READ") := by
  have hscrub : s.scrubRead ch sec = some s.noTag := by
    rw [scrubRead, hahead, htag]
    rfl
  simp only [exec, execScrubRead, hch, hsec, and_self, if_true, hscrub, evPort]
  rfl

/-- A scrub read's status, and what it leaves of a sector that it can correct, and of one that it cannot. -/
theorem scrub_cases (s : State) (ch sec : Nat) :
    (s.scrub ch sec).1 = sectorStatus (s.symbols ch sec) ∧
    (s.symbols ch sec < 2 → SectorRead (s.scrubPass ch sec) (s.scrubbed ch sec) ch sec) ∧
    (2 ≤ s.symbols ch sec → ∃ u, SectorRead (s.scrubPass ch sec) u ch sec ∧
      s.scrubbed ch sec = if (s.scrubPass ch sec).frameKnown ch sec = true then u else u.retire ch sec) := by
  obtain ⟨hstatus, hread⟩ := (s.scrubPass ch sec).readSector_sectorRead ch sec
  rw [symbols_scrubPass] at hstatus
  rw [scrubbed, scrub_eq]
  dsimp only
  refine ⟨hstatus, fun hlow => ?_, fun hhigh => ⟨_, hread, ?_⟩⟩
  · have hne : ((s.scrubPass ch sec).readSector ch sec).1 ≠ 2 := by
      rw [hstatus, sectorStatus]
      split_ifs <;> omega
    rw [if_neg (by simp [hne])]
    exact hread
  · have htwo : ((s.scrubPass ch sec).readSector ch sec).1 = 2 := by
      rw [hstatus, sectorStatus, if_neg (by omega), if_neg (by omega)]
    rw [htwo]
    cases (s.scrubPass ch sec).frameKnown ch sec <;> rfl

theorem scrubbed_clean (h : s.symbols ch sec = 0) : s.scrubbed ch sec = s.scrubPass ch sec := by
  have hread : (s.scrubPass ch sec).readSector ch sec = (0, s.scrubPass ch sec) := by
    unfold readSector
    rw [symbols_scrubPass, h]
    rfl
  rw [scrubbed, scrub_eq, hread]
  rfl

theorem mem_of_frameKnown {p : Nat} (h : s.frameKnown ch sec = true) (hp : s.channelOwner ch = some p) :
    sectorAddr ch sec / 65536 ∈ (s.part p).retired := by
  rw [frameKnown, hp] at h
  simpa using h

/-- The scrub of a sector that cannot be corrected: its loss is counted, its frame retired, and its symbols stay. -/
theorem scrubbed_lost (hlost : 2 ≤ s.symbols ch sec) : (s.scrubbed ch sec).mem = s.mem ∧ (s.scrubbed ch sec).ports = s.ports ∧
    (s.scrubbed ch sec).portWait = s.portWait ∧ (s.scrubbed ch sec).fibres = s.fibres ∧
    (s.scrubbed ch sec).pf.eccLost = min (s.pf.eccLost + 1) (2 ^ 64 - 1) ∧ (s.scrubbed ch sec).badSectors = s.badSectors ∧
    ∀ p, s.channelOwner ch = some p → p < s.parts.length → (s.part p).retired.length < 64 →
      sectorAddr ch sec / 65536 ∈ ((s.scrubbed ch sec).part p).retired := by
  obtain ⟨-, -, hcase⟩ := s.scrub_cases ch sec
  obtain ⟨u, hread, hscrubbed⟩ := hcase hlost
  obtain ⟨hecc, hbad⟩ := hread.lost (by rw [symbols_scrubPass]; exact hlost)
  have hpass := s.scrubPass_rest ch sec
  generalize s.scrubPass ch sec = v at *
  have hparts : u.parts = s.parts := hread.parts.trans (by rw [hpass])
  have howner : ∀ c, u.channelOwner c = s.channelOwner c := fun c => (hread.channelOwner c).trans (by rw [hpass]; rfl)
  have hmem : u.mem = s.mem := hread.mem.trans (by rw [hpass])
  have hports : u.ports = s.ports := hread.ports.trans (by rw [hpass])
  have hwait : u.portWait = s.portWait := hread.portWait.trans (by rw [hpass])
  have hfibres : u.fibres = s.fibres := hread.fibres.trans (by rw [hpass])
  have hecc : u.pf.eccLost = min (s.pf.eccLost + 1) (2 ^ 64 - 1) := hecc.trans (by rw [hpass])
  have hbad : u.badSectors = s.badSectors := hbad.trans (by rw [hpass])
  have hknown : v.frameKnown ch sec = s.frameKnown ch sec := by rw [hpass]; rfl
  rw [hscrubbed]
  split
  next h =>
    refine ⟨hmem, hports, hwait, hfibres, hecc, hbad, fun p hp _ _ => ?_⟩
    rw [part, hparts]
    exact mem_of_frameKnown (hknown.symm.trans h) hp
  next h =>
    have hret := u.retire_retires ch sec
    refine ⟨hret.mem.trans hmem, hret.ports.trans hports, hret.portWait.trans hwait, hret.fibres.trans hfibres,
      hret.eccLost.trans hecc, hret.badSectors.trans hbad, fun p hp hlen hroom => ?_⟩
    refine hret.retired p ((howner ch).trans hp) (by rwa [hparts]) ?_
    rwa [part, hparts]

end

/-! ### Spares (R350, R351) -/

theorem exec_spareRowCopy (s : State) {ch row : Nat} (hch : ch < 256) (hfix : 16 ≤ (s.rowFixes.lookup (ch * 2 ^ 32 + row)).getD 0)
    (hused : s.pf.rowsUsed.getD ch 0 < Config.spareRows) : exec (.spareRowCopy ch row) s = .next (s.copyRow ch row) :=
  congrArg (ev "SPARE_ROW_COPY") (if_pos ⟨hch, hfix, hused⟩)

theorem modify_eq_set_getD (l : List Nat) {k : Nat} (h : k < l.length) : l.modify k (· + 1) = l.set k (l.getD k 0 + 1) := by
  rw [List.modify_eq_set_getElem? (· + 1) k l]
  simp [h]

/-- A channel's sectors, each as lost. -/
def lostSectors (ch : Nat) : List (Nat × Nat) := (List.range 50331648).map (fun i => (sectorAddr ch i / 32, 2))

theorem mem_lostSectors {ch sec : Nat} (h : sec < 50331648) : (sectorAddr ch sec / 32, 2) ∈ lostSectors ch :=
  List.mem_map.2 ⟨sec, List.mem_range.2 h, rfl⟩

theorem exec_spareChannelTakeover (s : State) {ch : Nat} (readable : Bool) (hch : ch < 256)
    (hfree : s.pf.spareChannel.getD (ch / 32) true = false) (hspent : Config.spareRows ≤ s.pf.rowsUsed.getD ch 0) :
    exec (.spareChannelTakeover ch readable) s = .next (
      let s1 := s.updPf (fun f => { f with spareChannel := f.spareChannel.set (ch / 32) true })
      if readable then s1
      else { s1 with badSectors := s1.badSectors.filter (fun b => channelOf (32 * b.1) != ch) ++ lostSectors ch }) := by
  refine congrArg (ev "SPARE_CHANNEL_TAKEOVER") (if_neg ?_)
  rw [hfree]
  rintro (h | h | h)
  · omega
  · exact absurd h nofun
  · omega

theorem exec_clusterSpareTakeover (s : State) {k : Nat} (hk : k < 48) (hgangs : s.gangsOn k = []) (hjobs : ∀ j ∈ s.jobs, j.cluster ≠ k) :
    exec (.clusterSpareTakeover k) s = .next (s.replaceCluster k) := by
  have hnojob : s.jobs.any (fun j => j.cluster == k) = false := by simpa using hjobs
  have htake : s.spareTakeover k = some (s.replaceCluster k) := by
    simp only [spareTakeover, hgangs, hnojob]
    rfl
  exact congrArg (ev "CLUSTER_SPARE_TAKEOVER") ((if_pos hk).trans htake)

/-- A spare cluster takes the number: it responds, and nothing of the old caches is left. -/
theorem replaceCluster_spare (s : State) {k : Nat} (hk : k < 48) (hlen : k < s.clusters.length) (hleft : s.sparesUsed (k / 24) < 2) :
    (s.replaceCluster k).mem = s.mem ∧ (s.replaceCluster k).fibres = s.fibres ∧ ((s.replaceCluster k).cluster k).present = true ∧
      (s.replaceCluster k).sparesUsed (k / 24) = s.sparesUsed (k / 24) + 1 ∧ ∀ x ∈ (s.replaceCluster k).l1, x.core / 4 ≠ k := by
  unfold replaceCluster
  rw [if_pos hleft]
  refine ⟨rfl, rfl, ?_, ?_, fun x hx => by simpa using (List.mem_filter.1 hx).2⟩
  · simp [cluster, updCluster, updPf, List.getD_eq_getElem?_getD, hlen]
  · have hdie : k / 24 = 0 ∨ k / 24 = 1 := by omega
    rcases hdie with h | h <;> rw [h] <;> rfl

/-- With no spare left the cluster leaves its partition, and its cores begin anew. -/
theorem replaceCluster_none (s : State) {k : Nat} (hnone : 2 ≤ s.sparesUsed (k / 24)) (hlen : k < s.pf.clown.length) :
    (s.replaceCluster k).mem = s.mem ∧ (s.replaceCluster k).fibres = s.fibres ∧ (s.replaceCluster k).clusterOwner k = none ∧
      (s.clusterOwner k ≠ none → ∀ c < s.cores.length, c / 4 = k →
        (s.replaceCluster k).core c = { CoreSt.initial with cycle := (s.core c).cycle }) := by
  have hset : (s.pf.clown.set k 0).getD k 0 = 0 := by simp [List.getD_eq_getElem?_getD, hlen]
  unfold replaceCluster
  rw [if_neg (by omega)]
  refine ⟨rfl, rfl, ?_, fun howned c hc hck => ?_⟩
  · change ownerOf ((s.pf.clown.set k 0).getD k 0) = none
    rw [hset]
    rfl
  · have hne : (s.pf.clown.getD k 0 != (s.pf.clown.set k 0).getD k 0) = true := by
      rw [hset, bne_iff_ne]
      exact fun h => howned (by rw [clusterOwner, h]; rfl)
    simp only [core, moveClusters, hvRecord, List.getD_eq_getElem?_getD, List.getElem?_mapIdx, List.getElem?_eq_getElem hc,
      Option.map_some, Option.getD_some, hck]
    rw [List.getD_eq_getElem?_getD, List.getD_eq_getElem?_getD] at hne
    rw [if_pos hne]
    rfl

/-- The contexts with a gang on a cluster. -/
def contextsOn (s : State) (k : Nat) : List Nat :=
  ((s.gangs.filter (fun g => g.cluster == k && g.phase != .ended && g.phase != .waiting && g.phase != .saved)).map (·.ctx)).dedup

theorem exec_clusterLost (s : State) {k : Nat} (hk : k < 48) : exec (.clusterLost k) s = .next
    (((s.contextsOn k).foldl (fun s c => s.endContext c 9 k) s).updCluster k (fun c => { c with present := false })) :=
  congrArg (ev "CLUSTER_LOST") (if_pos hk)

end State

/-! ### The settled statement -/

open State

/-- Settles O54: each request of a channel port, each reply and each spare by the case of the operation that performs it. -/
theorem portsAndSparesComplete : Obligations.PortsAndSparesComplete := by
  unfold Obligations.PortsAndSparesComplete
  refine ⟨fun s r hr hwait => ⟨?reads, ?line, ?whole, ?wholeLine, fun hkind hdone hturn => ?reply, ?answer, ?lost⟩,
    fun s ch sec hch hwait => ⟨fun hdr hk => ?reserved, fun hsec hahead => ⟨?noTag, ?scrub⟩⟩,
    fun s k => ⟨?row, fun hk hlen hfree hspent => ⟨?readable, ?unreadable⟩, ?takeover, ?gone⟩⟩
  case reads =>
    intro k i hki hkind hdone hturn
    obtain ⟨-, hread⟩ := s.readSector_sectorRead r.ch r.sector
    have hexec : exec i s = .next ((s.readSector r.ch r.sector).2.setPort
        { r with done := true, status := (sectorStatus (s.symbols r.ch r.sector), 0) }) := by
      simp only [List.mem_cons, Prod.mk.injEq, List.not_mem_nil, or_false] at hki
      rcases hki with ⟨rfl, rfl⟩ | ⟨rfl, rfl⟩
      · exact congrArg (ev "READ_SECTOR") ((congrArg _ hkind.symm).trans (perform_readSector hr hdone hturn (.inl hkind)))
      · exact congrArg (ev "PARTIAL_WRITE") ((congrArg _ hkind.symm).trans (perform_readSector hr hdone hturn (.inr hkind)))
    refine ⟨_, hexec, hread.mem, hread.l2, ?_, hread.corrected, hread.lost⟩
    rw [← hread.ports]
    exact setPort_ports _ r _ ⟨rfl, rfl⟩
  case line =>
    intro hkind hdone hturn
    obtain ⟨-, hread⟩ := s.readSector_sectorRead r.ch r.sector
    obtain ⟨-, hnext⟩ := (s.readSector r.ch r.sector).2.readSector_sectorRead r.ch (r.sector + 1)
    refine ⟨_, congrArg (ev "READ_LINE") (perform_readLine hr hdone hturn hkind), hnext.mem.trans hread.mem, hnext.l2.trans hread.l2, ?_⟩
    rw [← hread.ports, ← hnext.ports]
    exact setPort_ports _ r _ ⟨rfl, rfl⟩
  case whole =>
    intro hkind hdone hturn
    exact ⟨_, congrArg (ev "WRITE_SECTOR") (perform_writeSector hr hdone hturn hkind), rfl, setPort_ports s r _ ⟨rfl, rfl⟩, rfl⟩
  case wholeLine =>
    intro hkind hdone hturn
    exact ⟨_, congrArg (ev "WRITE_LINE") (perform_writeLine hr hdone hturn hkind), rfl, setPort_ports s r _ ⟨rfl, rfl⟩, rfl⟩
  case reply => exact Replies.readDataClause ⟨hr, hdone, hturn⟩ hwait hkind
  case answer =>
    intro hkind hdone hnone
    have hwrite : r.kind.isRead = false := by rcases hkind with h | h | h <;> rw [h] <;> rfl
    rw [exec_writeDone hr hdone hwrite]
    cases hctx : r.ctx with
    | none => rfl
    | some c =>
      have hstatus : (r.status.1 == 2) = false := beq_false_of_ne fun h => absurd (hctx.symm.trans (hnone h)) nofun
      dsimp only
      rw [hstatus]
      rfl
  case lost =>
    intro c hkind hdone hstatus hctx
    refine ⟨_, exec_writeDone hr hdone (by rw [hkind]; rfl), ?_⟩
    simp only [hctx, beq_iff_eq.2 hstatus, if_true]
    exact ⟨noteFatal_ports .., fun x hx hid => noteFatal_contexts (s.dropPort r) c 5 _ hx hid⟩
  case reserved =>
    have hcode : (hdr.extractLsb' 60 4).toNat = hdr.toNat / 2 ^ 60 := by
      rw [BitVec.extractLsb'_toNat, Nat.shiftRight_eq_div_pow]
      have := hdr.isLt
      omega
    exact congrArg (ev "PORT_RESERVED_KIND") (if_pos ⟨hch, by rw [hcode]; exact hk⟩)
  case noTag => exact exec_scrubRead_noTag hch hsec hahead
  case scrub =>
    intro tag htag
    obtain ⟨hstatus, hlow, -⟩ := s.scrub_cases ch sec
    have hpass := s.scrubPass_rest ch sec
    refine ⟨fun hsym => ?_, fun hsym => ?_, fun hsym => ?_⟩
    · have hclean := scrubbed_clean hsym
      have hports : (s.scrubPass ch sec).ports = s.ports := by rw [hpass]
      rw [exec_scrubRead hwait hch hsec hahead htag (by rw [hclean, hpass]), hclean, hstatus, hsym, hports]
      rfl
    · have hread := hlow (by omega)
      obtain ⟨hecc, hhealed⟩ := hread.corrected (by rw [symbols_scrubPass]; exact hsym)
      have hports : (s.scrubbed ch sec).ports = s.ports := hread.ports.trans (by rw [hpass])
      refine ⟨_, exec_scrubRead hwait hch hsec hahead htag (hread.portWait.trans (by rw [hpass])), hread.mem.trans (by rw [hpass]), ?_,
        hhealed, hecc.trans (by rw [hpass])⟩
      dsimp only
      rw [hports, hstatus, hsym]
      rfl
    · obtain ⟨hmem, hports, hclear, hfibres, hecc, hbad, hretired⟩ := scrubbed_lost hsym
      refine ⟨_, exec_scrubRead hwait hch hsec hahead htag hclear, hmem, ?_, hfibres, hecc, ?_, hretired⟩
      · dsimp only
        rw [hports, hstatus, sectorStatus, if_neg (by omega), if_neg (by omega)]
        rfl
      · simp only [symbols, hbad]
  case row =>
    intro row hk hlen hfix hused
    refine ⟨_, exec_spareRowCopy s hk hfix hused, rfl, ?_, rfl⟩
    rw [← modify_eq_set_getD _ hlen]
    rfl
  case readable => exact exec_spareChannelTakeover s true hk hfree hspent
  case unreadable =>
    exact ⟨_, exec_spareChannelTakeover s false hk hfree hspent, rfl, rfl, fun sec hsec => List.mem_append_right _ (mem_lostSectors hsec)⟩
  case takeover =>
    intro hk hlen hgangs hjobs
    have hexec := s.exec_clusterSpareTakeover hk hgangs hjobs
    exact ⟨fun hleft => ⟨_, hexec, s.replaceCluster_spare hk hlen hleft⟩, fun hnone hown => ⟨_, hexec, s.replaceCluster_none hnone hown⟩⟩
  case gone =>
    intro hk hlen
    obtain ⟨-, hclusters, -⟩ := foldl_endContext_keepsClocks (s.contextsOn k) 9 k s
    refine ⟨_, s.exec_clusterLost hk, fun hacq => ((foldl_endContext_leavesMem (s.contextsOn k) 9 k s).same hacq).1, ?_, ?_⟩
    · rw [cluster, updCluster, List.getD_eq_getElem?_getD]
      simp [hclusters, hlen]
    · intro g hg hcluster hphase x hx hid
      obtain ⟨c, -, -, -, hlive⟩ := foldl_endContext_endsContexts (s.contextsOn k) 9 k s x hx
      by_contra hne
      refine (hlive (by simpa using hne)).2 ?_
      rw [hid]
      exact List.mem_dedup.2 (List.mem_map.2 ⟨g, List.mem_filter.2 ⟨hg, by simp [hcluster, hphase]⟩, rfl⟩)

end Sys2Proof.Machine

/-! ## Flits and links (R352, R363 to R368, R373) -/

namespace Sys2Proof.Machine

namespace State

/-! ### What a session's change leaves to the link engines -/

theorem setSession_enabled (s : State) (p q : Nat) (x : Session) : ((s.setSession p x).part q).enabled = (s.part q).enabled := by
  simp only [setSession, updPart, part, List.getD_eq_getElem?_getD, List.getElem?_modify]
  cases s.parts[q]? with
  | none => rfl
  | some y => by_cases h : p = q <;> simp [h]

@[simp] theorem linkServes_setSession (s : State) (p q : Nat) (x : Session) : (s.setSession p x).linkServes q = s.linkServes q := by
  rw [linkServes, linkServes, serving, serving, setSession_enabled]
  rfl

/-! ### Arrival (R363, R364, R367) -/

/-- The link asks for the flit that it expects again. -/
def flitAgain (s : State) (link : Nat) : State := s.updLink link (fun y => { y with nakOut := some y.rxSeq })

/-- The flit has taken its place in sequence. -/
def flitTook (s : State) (link : Nat) (b : List Byte) : State := s.updLink link (fun y => (y.acked (flitAcked b)).received)

theorem link_updLink_same (s : State) {l : Nat} (h : l < s.links.length) (f : Link → Link) : (s.updLink l f).link l = f (s.link l) := by
  simp [link, List.getD_eq_getElem?_getD, h]

theorem link_updLink_ne (s : State) {l j : Nat} (h : j ≠ l) (f : Link → Link) : (s.updLink l f).link j = s.link j := by
  simp [link, List.getD_eq_getElem?_getD, h.symm]

/-- A flit of 256 bytes arrives at a link that is up. -/
structure FlitArrives (s : State) (link : Nat) (b : List Byte) : Prop where
  link_lt : link < 16
  length : b.length = 256
  up : (s.link link).up = true

/-- It is unharmed and the expected one. -/
structure InSequence (s : State) (link : Nat) (b : List Byte) : Prop extends FlitArrives s link b where
  crc : flitCrcOk b = true
  seq : flitSeq b = (s.link link).rxSeq

/-- The payload that the session opens of a flit, where its tag verifies. -/
def flitOpened (x : Session) (b : List Byte) : Option (List Byte) :=
  Config.gcmOpen x.rxKey (flitIv x.rxSalt x.rxCount) ((b.drop 8).take 16) ((b.drop 24).take 216) (b.drop 240)

/-- The session after the flit's counter. -/
def counted (x : Session) : Session := { x with rxCount := x.rxCount + 1 }

section
variable {s : State} {link : Nat} {b : List Byte}

theorem FlitArrives.guard (h : FlitArrives s link b) :
    (decide (link ≥ Config.links) || b.length != 256 || !(s.link link).up) = false := by
  obtain ⟨hlink, hlength, hup⟩ := h
  rw [hlength, hup, decide_eq_false (p := link ≥ Config.links) (Nat.not_le.2 hlink)]
  rfl

theorem out_of_sequence (h : flitCrcOk b = false ∨ flitSeq b ≠ (s.link link).rxSeq) :
    (!flitCrcOk b || flitSeq b != (s.link link).rxSeq) = true := by
  rcases h with h | h
  · simp [h]
  · simp [h]

theorem InSequence.in_sequence (h : InSequence s link b) : (!flitCrcOk b || flitSeq b != (s.link link).rxSeq) = false := by
  rw [h.crc, h.seq, bne_self_eq_false]
  rfl

theorem FlitArrives.receive_again (h : FlitArrives s link b) (hbad : flitCrcOk b = false ∨ flitSeq b ≠ (s.link link).rxSeq)
    (f : State → Nat → Session → List Byte → Option State) : s.receiveFlit link b (flitKind b) f = some (s.flitAgain link) := by
  unfold receiveFlit
  dsimp only
  rw [h.guard, out_of_sequence hbad, bne_self_eq_false]
  rfl

/-- A flit in sequence, by the owner of the link, its session, and what that opens. -/
theorem InSequence.receive (h : InSequence s link b) (f : State → Nat → Session → List Byte → Option State) :
    s.receiveFlit link b (flitKind b) f = match s.linkOwner link with
      | none => some (s.flitTook link b)
      | some p => match s.session p (flitSession b) with
        | none => some (s.flitTook link b)
        | some x => match flitOpened x b with
          | none => some ((s.flitTook link b).loseSession p x.n)
          | some pt => some ((f ((s.flitTook link b).setSession p (counted x)) p (counted x) pt).getD (s.flitAgain link)) := by
  unfold receiveFlit
  dsimp only
  rw [h.guard, h.in_sequence, bne_self_eq_false]
  change (match s.linkOwner link with
    | none => some (s.flitTook link b)
    | some p => match s.session p (flitSession b) with
      | none => some (s.flitTook link b)
      | some x => match flitOpened x b with
        | none => some ((s.flitTook link b).loseSession p x.n)
        | some pt => match f ((s.flitTook link b).setSession p (counted x)) p (counted x) pt with
          | some s2 => some s2
          | none => some (s.flitAgain link)) = _
  cases s.linkOwner link with
  | none => rfl
  | some p =>
    dsimp only
    cases s.session p (flitSession b) with
    | none => rfl
    | some x =>
      dsimp only
      cases flitOpened x b with
      | none => rfl
      | some pt =>
        dsimp only
        cases f ((s.flitTook link b).setSession p (counted x)) p (counted x) pt <;> rfl

/-- An event takes a flit of a kind. -/
def FlitEvent (link : Nat) (b : List Byte) (k : Nat) (i : Instr) : Prop := (k, i) ∈
  [(0, Instr.flitData link b), (1, Instr.flitAcknowledgement link b), (2, Instr.flitContribution link b), (3, Instr.flitControl link b)]

/-- What a flit leaves whatever takes its payload, its event leaves. -/
theorem exec_of_receive {k : Nat} {i : Instr} (hmem : FlitEvent link b k i) (hkind : flitKind b = k) {t : State}
    (ht : ∀ f, s.receiveFlit link b (flitKind b) f = some t) (hclear : t.portWait = false) : exec i s = .next t := by
  have hport : ∀ name, evPort name (some t) = .next t := fun name => by
    rw [evPort, hclear]
    rfl
  subst hkind
  simp only [FlitEvent, List.mem_cons, Prod.mk.injEq, List.not_mem_nil, or_false] at hmem
  rcases hmem with ⟨hk, rfl⟩ | ⟨hk, rfl⟩ | ⟨hk, rfl⟩ | ⟨hk, rfl⟩
  · exact (congrArg (evPort "FLIT_DATA") (hk ▸ ht _)).trans (hport _)
  · exact congrArg (ev "FLIT_ACKNOWLEDGEMENT") (hk ▸ ht _)
  · exact (congrArg (evPort "FLIT_CONTRIBUTION") (hk ▸ ht _)).trans (hport _)
  · exact (congrArg (evPort "FLIT_CONTROL") (hk ▸ ht _)).trans (hport _)

end

/-! ### The payload of a flit that its session has opened -/

/-- A flit in sequence whose session has opened it. -/
structure FlitOpens (s : State) (link : Nat) (b : List Byte) (p : Nat) (x : Session) (pt : List Byte) : Prop extends InSequence s link b where
  owner : s.linkOwner link = some p
  session : s.session p (flitSession b) = some x
  opens : flitOpened x b = some pt

section
variable {s : State} {link : Nat} {b : List Byte} {p : Nat} {x : Session} {pt : List Byte}

/-- The state in which a payload is taken. -/
def flitCounted (s : State) (link : Nat) (b : List Byte) (p : Nat) (x : Session) : State := (s.flitTook link b).setSession p (counted x)

theorem linkServes_flitCounted (s : State) (link : Nat) (b : List Byte) (p q : Nat) (x : Session) :
    (s.flitCounted link b p x).linkServes q = s.linkServes q :=
  linkServes_setSession ..

theorem FlitOpens.receive (h : FlitOpens s link b p x pt) (f : State → Nat → Session → List Byte → Option State) :
    s.receiveFlit link b (flitKind b) f = some ((f (s.flitCounted link b p x) p (counted x) pt).getD (s.flitAgain link)) := by
  have hgood := h.toInSequence.receive f
  rw [h.owner] at hgood
  dsimp only at hgood
  rw [h.session] at hgood
  dsimp only at hgood
  rw [h.opens] at hgood
  exact hgood

theorem FlitOpens.exec_data (h : FlitOpens s link b p x pt) (hkind : flitKind b = 0) : exec (.flitData link b) s =
    evPort "FLIT_DATA" (some (if s.linkServes p then (s.flitCounted link b p x).windowPut p (counted x) (flitJob b) (flitOff b) pt
      else s.flitAgain link)) := by
  refine congrArg (evPort "FLIT_DATA") ((hkind ▸ h.receive _).trans (congrArg some ?_))
  rw [linkServes_flitCounted]
  cases s.linkServes p <;> rfl

theorem FlitOpens.exec_contribution (h : FlitOpens s link b p x pt) (hkind : flitKind b = 2) : exec (.flitContribution link b) s =
    evPort "FLIT_CONTRIBUTION" (some ((if s.linkServes p then (s.flitCounted link b p x).contribute p (counted x) (flitOff b) pt
      else none).getD (s.flitAgain link))) := by
  refine congrArg (evPort "FLIT_CONTRIBUTION") ((hkind ▸ h.receive _).trans (congrArg some ?_))
  rw [linkServes_flitCounted]

/-- What a control flit does (R366 to R368). -/
def flitControlled (s : State) (p : Nat) (x : Session) (job : Nat) (pt : List Byte) : Option State :=
  match Config.controlKind pt with
  | 0 => match x.newRx with
    | some k => some (s.setSession p { x with rxKey := Config.sessionKey k 1, rxSalt := Config.sessionSalt k 1, rxCount := 0, newRx := none })
    | none => some s
  | 1 => some (s.loseSession p x.n)
  | 2 => if s.linkServes p then s.windowGet p x job pt else none
  | _ => some s

/-- A control flit of another kind does nothing more. -/
theorem flitControlled_other (s : State) (p : Nat) (x : Session) (job : Nat) {pt : List Byte} (h : 3 ≤ Config.controlKind pt) :
    s.flitControlled p x job pt = some s := by
  unfold flitControlled
  split
  · omega
  · omega
  · omega
  · rfl

theorem FlitOpens.exec_control (h : FlitOpens s link b p x pt) (hkind : flitKind b = 3) : exec (.flitControl link b) s =
    evPort "FLIT_CONTROL" (some (((s.flitCounted link b p x).flitControlled p (counted x) (flitJob b) pt).getD (s.flitAgain link))) :=
  congrArg (evPort "FLIT_CONTROL") (hkind ▸ h.receive _)

theorem FlitOpens.exec_acknowledgement (h : FlitOpens s link b p x pt) (hkind : flitKind b = 1) :
    exec (.flitAcknowledgement link b) s = .next { s.flitCounted link b p x with linkJobs := s.linkJobs.map (fun j =>
      if j.part == p && j.session == x.n && j.kind == .put && j.stage == 1 && j.id % 65536 == flitJob b then
        { j with stage := 2, error := if Config.ackError pt == 2 then 2 else 0 } else j) } :=
  congrArg (ev "FLIT_ACKNOWLEDGEMENT") (a₂ := some _) (hkind ▸ h.receive _)

/-- A partition that the link engines do not serve takes no payload that it would have to act on. -/
theorem FlitOpens.exec_again (h : FlitOpens s link b p x pt) (hserve : s.linkServes p = false) (hwait : s.portWait = false) {k : Nat}
    {i : Instr} (hmem : FlitEvent link b k i) (hkind : flitKind b = k) (hacts : k = 0 ∨ k = 2 ∨ k = 3 ∧ Config.controlKind pt = 2) :
    exec i s = .next (s.flitAgain link) := by
  have hport : ∀ name, evPort name (some (s.flitAgain link)) = .next (s.flitAgain link) := fun name => by
    rw [evPort, show (s.flitAgain link).portWait = false from hwait]
    rfl
  simp only [FlitEvent, List.mem_cons, Prod.mk.injEq, List.not_mem_nil, or_false] at hmem
  rcases hmem with ⟨hk, rfl⟩ | ⟨hk, rfl⟩ | ⟨hk, rfl⟩ | ⟨hk, rfl⟩
  · rw [h.exec_data (hkind.trans hk), hserve]
    exact hport _
  · omega
  · rw [h.exec_contribution (hkind.trans hk), hserve]
    exact hport _
  · have hasks : Config.controlKind pt = 2 := by omega
    rw [h.exec_control (hkind.trans hk)]
    unfold flitControlled
    rw [hasks, linkServes_flitCounted, hserve]
    exact hport _

end

/-! ### Flits of a reserved kind (R364) -/

/-- A flit of a reserved kind has taken its place and is counted. -/
def flitDropped (s : State) (link : Nat) (b : List Byte) : State :=
  s.updLink link (fun y => { (y.acked (flitAcked b)).received with errors := y.errors + 1 })

theorem InSequence.exec_reserved {s : State} {link : Nat} {b : List Byte} (h : InSequence s link b) (hkind : 4 ≤ flitKind b) :
    exec (.flitReservedKind link b) s = .next (match s.linkOwner link with
      | none => s.flitDropped link b
      | some p => match s.session p (flitSession b) with
        | none => s.flitDropped link b
        | some x => (s.flitDropped link b).setSession p { x with rxCount := x.rxCount + 1 }) := by
  refine congrArg (ev "FLIT_RESERVED_KIND") (a₂ := some ((s.flitDropped link b).skipFlit link b)) ((if_neg ?_).trans (if_neg ?_))
  · rw [h.guard, decide_eq_false (by omega)]
    exact nofun
  · rw [h.in_sequence]
    exact nofun

/-! ### Contributions (R373) -/

section
variable {s : State} {link : Nat} {b : List Byte} {p : Nat} {x : Session} {pt : List Byte}

/-- The reduces that want a contribution of a session's peer, with its rank. -/
def wantedBy (s : State) (p n : Nat) : List (LinkJob × Nat) := s.linkJobs.filterMap (fun j => (wantedRank j p n).map (fun r => (j, r)))

/-- A contribution that the link engine takes or refuses. -/
theorem FlitOpens.exec_contribute (h : FlitOpens s link b p x pt) (hkind : flitKind b = 2) (hserve : s.linkServes p = true)
    (hports : s.portsServe (.flitContribution link b)) : exec (.flitContribution link b) s =
      .next (((s.flitCounted link b p x).contribute p (counted x) (flitOff b) pt).getD (s.flitAgain link)) := by
  refine exec_of_portsServe (name := "FLIT_CONTRIBUTION") ?_ hports
  rw [h.exec_contribution hkind, hserve]
  rfl

/-- Which reduce a contribution goes to. -/
theorem contribute_flitCounted (s : State) (link : Nat) (b : List Byte) (p : Nat) (x : Session) (off : Nat) (pt : List Byte) :
    let u := s.flitCounted link b p x
    let coll := (Config.contributionInfo pt).2.1
    let keep := u.setSession p { counted x with early := x.early ++ [(off, pt, s.time)] }
    u.contribute p (counted x) off pt = match (s.wantedBy p x.n).find? (fun y => (lcard y.1.card).coll == coll) with
      | some y => if y.1.deadline ≤ s.time then none else u.contributeTo y.1 y.2 off pt
      | none =>
        if s.reducePosted p x.n coll then some keep
        else match (s.wantedBy p x.n).find? (fun y => decide (s.time < y.1.deadline)) with
        | some y => u.contributeTo y.1 y.2 off pt
        | none =>
          if x.late.contains coll then
            some (u.setSession p (if lastPiece off pt then { counted x with late := x.late.erase coll } else counted x))
          else some keep := by
  rfl

/-- A piece whose card is not the reduce's, or that lies past its slot, is excluded. -/
theorem contributeTo_excluded (s : State) (j : LinkJob) (r off : Nat) (pt : List Byte)
    (h : (Config.contributionInfo pt).2 ≠ ((lcard j.card).coll, (lcard j.card).n, (lcard j.card).desc.toNat, (lcard j.card).mask) ∨
      slotStride (lcard j.card) < off + (Config.contributionInfo pt).1 % 217) :
    s.contributeTo j r off pt = some (s.setLinkJob { j with
      excluded := if (Config.contributionInfo pt).2.1 == (lcard j.card).coll && lastPiece off pt then j.excluded ++ [r] else j.excluded
      error := 3 }) := by
  refine if_pos ?_
  rcases h with h | h
  · rw [bne_iff_ne.2 h]
    rfl
  · rw [decide_eq_true h, Bool.or_true]

/-- A piece that the reduce's card agrees with is written into the sender's slot. -/
theorem contributeTo_written (s : State) (j : LinkJob) (r off : Nat) (pt : List Byte) {v : State} {e : Nat}
    (hcard : (Config.contributionInfo pt).2 = ((lcard j.card).coll, (lcard j.card).n, (lcard j.card).desc.toNat, (lcard j.card).mask))
    (hfits : off + (Config.contributionInfo pt).1 % 217 ≤ slotStride (lcard j.card))
    (hwrite : s.linkWrite j (slotAddr (lcard j.card) r + off) (pt.take ((Config.contributionInfo pt).1 % 217)) = .ok (v, e)) :
    let got := (j.got.lookup r).getD 0 + (Config.contributionInfo pt).1 % 217
    s.contributeTo j r off pt = some (v.setLinkJob { j with
      got := setCount j.got r got, arrived := if slotStride (lcard j.card) ≤ got then j.arrived ++ [r] else j.arrived
      ctime := max j.ctime e }) := by
  intro got
  unfold contributeTo
  dsimp only
  rw [if_neg (by rw [hcard, bne_self_eq_false, decide_eq_false (by omega)]; exact nofun), hwrite]

end

end State

open State

/-! ### The settled statement -/

/-- Settles O58: a flit by the case of its place in sequence, its session and its payload; the link's own events by their guards. -/
theorem flitEventsComplete : Obligations.FlitEventsComplete := by
  unfold Obligations.FlitEventsComplete
  intro s link b hlink hlen hwait
  refine ⟨fun hlength hup hbad => ⟨?badKinds, ?badReserved⟩,
    fun hlength hup hcrc hseq => ⟨?noOwner, ?noSession, fun p x howner hsession => ⟨?lost, fun pt hopened => ⟨?unserved, ?data, ?ack, ?contribution, ?control⟩⟩,
      ?reserved⟩,
    ?nak, ?retrain, ?retrained, ?bridge⟩
  case badKinds =>
    intro k i hki hkind
    exact exec_of_receive hki hkind (FlitArrives.receive_again ⟨hlink, hlength, hup⟩ hbad) hwait
  case badReserved =>
    intro hkind
    refine congrArg (ev "FLIT_RESERVED_KIND") ((if_neg ?_).trans (if_pos (out_of_sequence hbad)))
    rw [FlitArrives.guard ⟨hlink, hlength, hup⟩, decide_eq_false (by omega)]
    exact nofun
  case noOwner =>
    intro k i hki hkind hnone
    refine exec_of_receive hki hkind (fun f => ?_) hwait
    rw [InSequence.receive ⟨⟨hlink, hlength, hup⟩, hcrc, hseq⟩, hnone]
    rfl
  case noSession =>
    intro k i p hki hkind howner hnone
    refine exec_of_receive hki hkind (fun f => ?_) hwait
    rw [InSequence.receive ⟨⟨hlink, hlength, hup⟩, hcrc, hseq⟩, howner]
    dsimp only
    rw [hnone]
    rfl
  case lost =>
    intro hnone k i hki hkind
    refine exec_of_receive hki hkind (fun f => ?_) hwait
    rw [InSequence.receive ⟨⟨hlink, hlength, hup⟩, hcrc, hseq⟩, howner]
    dsimp only
    rw [hsession]
    dsimp only
    rw [show flitOpened x b = none from hnone]
    rfl
  case unserved =>
    intro hserve k i hki hkind hacts
    exact FlitOpens.exec_again ⟨⟨⟨hlink, hlength, hup⟩, hcrc, hseq⟩, howner, hsession, hopened⟩ hserve hwait hki hkind hacts
  case data =>
    intro hkind hserve hports
    refine exec_of_portsServe (name := "FLIT_DATA") ?_ hports
    rw [FlitOpens.exec_data ⟨⟨⟨hlink, hlength, hup⟩, hcrc, hseq⟩, howner, hsession, hopened⟩ hkind, if_pos hserve]
    rfl
  case ack =>
    intro hkind
    rw [FlitOpens.exec_acknowledgement ⟨⟨⟨hlink, hlength, hup⟩, hcrc, hseq⟩, howner, hsession, hopened⟩ hkind]
    simp only [beq_iff_eq]
    rfl
  case contribution =>
    intro hkind hserve hports
    have hexec := FlitOpens.exec_contribute ⟨⟨⟨hlink, hlength, hup⟩, hcrc, hseq⟩, howner, hsession, hopened⟩ hkind hserve hports
    rw [contribute_flitCounted] at hexec
    refine ⟨fun j r hmine => ?taken, fun hmine hposted => ?kept, fun hmine hposted => ?unwanted⟩
    case taken =>
      rw [show (s.wantedBy p x.n).find? _ = some (j, r) from hmine] at hexec
      dsimp only at hexec
      refine ⟨fun hpast => ?_, fun hin hdiffers => ?_, fun v e hin hagrees hfits hwrite => ?_⟩
      · rw [if_pos hpast] at hexec
        exact hexec
      · rw [if_neg (by omega), contributeTo_excluded _ _ _ _ _ hdiffers] at hexec
        exact hexec
      · have htaken := contributeTo_written (s.flitCounted link b p x) j r (flitOff b) pt hagrees hfits hwrite
        rw [if_neg (by omega), htaken] at hexec
        exact hexec
    case kept =>
      rw [show (s.wantedBy p x.n).find? _ = none from hmine] at hexec
      dsimp only at hexec
      rw [if_pos hposted] at hexec
      exact hexec
    case unwanted =>
      rw [show (s.wantedBy p x.n).find? _ = none from hmine] at hexec
      dsimp only at hexec
      rw [if_neg (by rw [hposted]; exact nofun)] at hexec
      refine ⟨fun j r hany => ?_, fun hnone => ?_⟩
      · have hother : ((Config.contributionInfo pt).2.1 == (lcard j.card).coll) = false := by
          have hmiss := List.find?_eq_none.1 hmine _ (List.mem_of_find?_eq_some hany)
          exact beq_false_of_ne fun heq => hmiss (beq_iff_eq.2 heq.symm)
        rw [show (s.wantedBy p x.n).find? (fun y => decide (s.time < y.1.deadline)) = some (j, r) from hany] at hexec
        dsimp only at hexec
        rw [contributeTo_excluded _ _ _ _ _ (.inl fun heq => by rw [heq, beq_self_eq_true] at hother; exact absurd hother nofun), hother] at hexec
        exact hexec
      · rw [show (s.wantedBy p x.n).find? (fun y => decide (s.time < y.1.deadline)) = none from hnone] at hexec
        dsimp only at hexec
        refine ⟨fun hlate => ?_, fun hlate => ?_⟩
        · rw [if_neg (by simpa using hlate)] at hexec
          exact hexec
        · rw [if_pos (by simpa using hlate)] at hexec
          exact hexec
  case control =>
    intro hkind
    have hexec := FlitOpens.exec_control ⟨⟨⟨hlink, hlength, hup⟩, hcrc, hseq⟩, howner, hsession, hopened⟩ hkind
    have hport : ∀ t : State, t.portWait = false → evPort "FLIT_CONTROL" (some t) = .next t := fun t ht => by
      rw [evPort, ht]
      rfl
    refine ⟨fun k hzero hnew => ?_, fun hnothing => ?_, fun hone => ?_, fun htwo hserve hports => ?_⟩
    · unfold flitControlled at hexec
      rw [hzero, show (counted x).newRx = some k from hnew] at hexec
      exact hexec.trans (hport _ hwait)
    · obtain ⟨hzero, hnew⟩ | hother := hnothing
      · unfold flitControlled at hexec
        rw [hzero, show (counted x).newRx = none from hnew] at hexec
        exact hexec.trans (hport _ hwait)
      · rw [flitControlled_other _ _ _ _ hother] at hexec
        exact hexec.trans (hport _ hwait)
    · unfold flitControlled at hexec
      rw [hone] at hexec
      exact hexec.trans (hport _ hwait)
    · refine exec_of_portsServe (name := "FLIT_CONTROL") ?_ hports
      unfold flitControlled at hexec
      rw [htwo, linkServes_flitCounted, hserve] at hexec
      exact hexec
  case reserved =>
    intro hkind
    have hexec := InSequence.exec_reserved ⟨⟨hlink, hlength, hup⟩, hcrc, hseq⟩ hkind
    refine ⟨fun hnone => ?_, fun p howner hnone => ?_, fun p x howner hsession => ?_⟩
    · rw [hnone] at hexec
      exact hexec
    · rw [howner] at hexec
      dsimp only at hexec
      rw [hnone] at hexec
      exact hexec
    · rw [howner] at hexec
      dsimp only at hexec
      rw [hsession] at hexec
      exact hexec
  case nak =>
    intro seq hup
    have hguard : ¬ (decide (link ≥ Config.links) || !(s.link link).up) = true := by
      rw [hup, decide_eq_false (p := link ≥ Config.links) (Nat.not_le.2 hlink)]
      exact nofun
    refine ⟨_, congrArg (ev "NAK") (if_neg hguard), rfl, ?_, fun j hj => ?_⟩
    · rw [link_updLink_same s hlen]
      cases (s.link link).replay.findIdx? (fun x => x.1 == seq.toNat) <;> rfl
    · exact link_updLink_ne s hj _
  case retrain => exact fun hup hfailed => congrArg (ev "LINK_RETRAIN") (if_pos ⟨hlink, hup, hfailed⟩)
  case retrained =>
    refine fun hretraining => ⟨congrArg (ev "LINK_RETRAINED") (if_pos ⟨hlink, hretraining⟩), fun lane hlane hfree => ?_⟩
    exact congrArg (ev "LANE_REPLACE") ((if_neg (Nat.not_le.2 hlink)).trans (if_pos ⟨hlink, hlane, hretraining, hfree⟩))
  case bridge =>
    intro dir hdir lane hlane hfree
    have hnone : s.pf.bridgeSpares.any (fun x => x.1 == dir && x.2 / 32 == lane / 32) = false := by
      refine List.any_eq_false.2 fun x hx => ?_
      have hapart := hfree x hx
      simp only [Bool.and_eq_true, beq_iff_eq]
      tauto
    have hdirs : 16 + dir - Config.links = dir := Nat.add_sub_cancel_left ..
    have hbeyond : Config.links ≤ 16 + dir := Nat.le_add_right ..
    simp only [exec, execLaneReplace, hdirs, hnone, if_pos hbeyond, decide_eq_true hdir, decide_eq_true hlane]
    rfl

end Sys2Proof.Machine

/-! ## Queues and nodes (R295, R297, R299 to R304, R308) -/

namespace Sys2Proof.Machine

namespace State

/-! ### The registers of a queue (R295, R297) -/

/-- Before READY a write of a queue's register changes nothing (R353). -/
theorem exec_queue_notReady {s : State} (p q : Nat) (hready : s.pf.ready = false) (v : DWord) :
    exec (.sqtail p q v) s = .next s ∧ exec (.cqhead p q v) s = .next s ∧ exec (.qsize p q v) s = .next s := by
  have hvf : ∀ r, s.vfWrite r = some s := fun r => by rw [vfWrite, hready]; rfl
  exact ⟨congrArg (ev "SQTAIL") (hvf _), congrArg (ev "CQHEAD") (hvf _), congrArg (ev "QSIZE") (hvf _)⟩

/-- The fields of a word for QSIZE: two sizes and the enable bit. -/
theorem qsize_fields {v : DWord} {a b : Nat} {on : Bool} (hv : v = BitVec.ofNat 64 (a + 256 * b + if on then 2 ^ 31 else 0)) (ha : a < 16)
    (hb : b < 16) : v.toNat % 16 = a ∧ v.toNat / 256 % 16 = b ∧ v.getLsbD 31 = on ∧
      v.toNat - (a + 256 * b + if on then 2 ^ 31 else 0) = 0 := by
  have hnat : v.toNat = a + 256 * b + if on then 2 ^ 31 else 0 := by
    rw [hv, BitVec.toNat_ofNat]
    cases on <;> simp <;> omega
  refine ⟨?_, ?_, ?_, by omega⟩
  · cases on <;> simp at hnat <;> omega
  · cases on <;> simp at hnat <;> omega
  · rw [← BitVec.testBit_toNat, hnat, Nat.testBit_eq_decide_div_mod_eq]
    cases on
    · exact decide_eq_false (by simp; omega)
    · exact decide_eq_true (by simp; omega)

section
variable {s : State} {p q : Nat} (hp : p < 16) (hq : q < 8)
include hp hq

theorem queue_guard : (decide (p < Config.partitions) && decide (q < 8)) = true := by
  rw [decide_eq_true (p := p < Config.partitions) hp, decide_eq_true hq]
  rfl

theorem exec_sqtail (hready : s.pf.ready = true) (v : DWord) : exec (.sqtail p q v) s = .next
    (if v.toNat < 2 ^ Queue.sqLog (s.queueOf p q) then s.setQueue p q { s.queueOf p q with sqtail := v.toNat } else s) :=
  congrArg (ev "SQTAIL") ((if_pos hready).trans (if_pos (queue_guard hp hq)))

theorem exec_cqhead (hready : s.pf.ready = true) (v : DWord) : exec (.cqhead p q v) s = .next
    (if v.toNat < 2 ^ Queue.cqLog (s.queueOf p q) then s.setQueue p q { s.queueOf p q with cqhead := v.toNat } else s) :=
  congrArg (ev "CQHEAD") ((if_pos hready).trans (if_pos (queue_guard hp hq)))

/-- What a write of QSIZE to a queue that is on leaves: only the enable bit may change. -/
theorem exec_qsize_off (hready : s.pf.ready = true) {v : DWord} (hon : (s.queueOf p q).size.getLsbD 31 = true) (hv : v.getLsbD 31 = false) :
    exec (.qsize p q v) s = .next (s.setQueue p q { s.queueOf p q with size := v &&& 0xF0F }) := by
  refine congrArg (ev "QSIZE") (a₂ := some _) ((if_pos hready).trans ((if_pos (queue_guard hp hq)).trans ((if_pos hon).trans ?_)))
  rw [hv]
  rfl

/-- A queue that is off takes sizes of at least 16 entries. -/
theorem exec_qsize_sizes (hready : s.pf.ready = true) {v : DWord} {a b : Nat} (hoff : (s.queueOf p q).size.getLsbD 31 = false)
    (hv : v = BitVec.ofNat 64 (a + 256 * b)) (ha : 4 ≤ a) (ha' : a < 16) (hb : 4 ≤ b) (hb' : b < 16) :
    exec (.qsize p q v) s = .next (s.setQueue p q { s.queueOf p q with size := v }) := by
  obtain ⟨hsq, hcq, hbit, hrest⟩ := qsize_fields (on := false) hv ha' hb'
  refine congrArg (ev "QSIZE") ((if_pos hready).trans ((if_pos (queue_guard hp hq)).trans ((if_neg ?_).trans ((if_neg ?_).trans (if_pos ?_)))))
  · rw [Queue.on, hoff]
    exact nofun
  · rw [hsq, hcq, hbit, hrest, decide_eq_false (by omega), decide_eq_false (by omega)]
    exact nofun
  · rw [hbit]
    rfl

/-- A queue that is off is turned on where its rings lie in the partition, its indices and phase as after reset. -/
theorem exec_qsize_on (hready : s.pf.ready = true) {v : DWord} {a b : Nat} (hoff : (s.queueOf p q).size.getLsbD 31 = false)
    (hv : v = BitVec.ofNat 64 (a + 256 * b + 2 ^ 31)) (ha : 4 ≤ a) (ha' : a < 16) (hb : 4 ≤ b) (hb' : b < 16)
    (hsub : (s.gpKeys p (s.queueOf p q).base.toNat 1 (64 * 2 ^ a)).isSome = true)
    (hcmp : (s.gpKeys p (s.queueOf p q).cqbase.toNat 2 (16 * 2 ^ b)).isSome = true)
    (hbase : (s.queueOf p q).base.toNat % 64 = 0) (hcqbase : (s.queueOf p q).cqbase.toNat % 16 = 0) :
    exec (.qsize p q v) s = .next (s.setQueue p q
      { s.queueOf p q with size := v, sqtail := 0, sqhead := 0, cqhead := 0, cqtail := 0, phase := true }) := by
  obtain ⟨hsq, hcq, hbit, hrest⟩ := qsize_fields (on := true) hv ha' hb'
  refine congrArg (ev "QSIZE") ((if_pos hready).trans ((if_pos (queue_guard hp hq)).trans ((if_neg ?_).trans ((if_neg ?_).trans
    ((if_neg ?_).trans (congrArg some (if_pos ?_)))))))
  · rw [Queue.on, hoff]
    exact nofun
  · rw [hsq, hcq, hbit, hrest, decide_eq_false (by omega), decide_eq_false (by omega)]
    exact nofun
  · rw [hbit]
    exact nofun
  · rw [hsq, hcq, hsub, hcmp, hbase, hcqbase]
    rfl

end

/-! ### Posting (R297, R302) -/

/-- Which context a record names depends on the contexts and the next identifier alone, and only those change. -/
theorem openContext_with (s t : State) (p : Nat) (c : List Byte) :
    State.openContext { t with contexts := s.contexts, nextId := s.nextId } p c =
      (s.openContext p c).map (fun x => ({ t with contexts := x.1.contexts, nextId := x.1.nextId }, x.2)) := by
  unfold openContext
  dsimp only
  by_cases hform : (cardN c 0 8 / 2 ^ 52 != 0 || cardN c 8 8 % 8192 != 0 || cardN c 16 4 != 0 || cardN c 24 8 % 64 != 0 ||
      decide (cardN c 20 4 < 4) || decide (16 < cardN c 20 4)) = true
  · rw [if_pos hform, if_pos hform]
    rfl
  · rw [if_neg hform, if_neg hform]
    cases s.contexts.find? (fun x => x.part == p && x.ctxid == cardN c 0 8 / 2 ^ 20 % 2 ^ 28) with
    | none => rfl
    | some x =>
      dsimp only
      split_ifs <;> rfl

/-- The context that a record names leaves everything but the contexts and the next identifier. -/
theorem openContext_rest {s u : State} {p cid : Nat} {c : List Byte} (h : s.openContext p c = some (u, cid)) :
    u = { s with contexts := u.contexts, nextId := u.nextId } := by
  have hwith := openContext_with s s p c
  rw [h] at hwith
  exact (Prod.mk.inj (Option.some.inj hwith)).1

/-- The node that a record posts (R300). -/
def postedNode (r : NodeRec) (cid : Nat) (queue : Option Nat) (prio : Nat) : Node :=
  { kind := r.kind, prio := prio, tag := BitVec.ofNat 64 r.tag, payload := BitVec.ofNat 64 r.payload
    caddr := BitVec.ofNat 64 r.comp, succ := r.succ.filter (fun y => y != 65535), cq := r.cq, queue := queue, ctx := cid
    phase := .posted, readyAt := 0, waitSince := 0, aged := 0, ctime := 0, det := 0 }

/-- A node whose counter is not above 0: its phase by the poison of its slot and the life of its context (R304). -/
def readied (s : State) (x : NodeSlot) (d : Node) : Node :=
  { d with phase := if x.poison then .ended 6 0 else if !s.liveContext d.ctx then .ended 3 0 else .ready
           readyAt := s.time, waitSince := s.time, aged := 0 }

theorem makeReady_of_node {s : State} {p n : Nat} {d : Node} (hnode : s.node p n = some d) :
    s.makeReady p n = s.setSlot p { s.nodeSlot p n with counter := 0, node := some (s.readied (s.nodeSlot p n) d) } := by
  rw [node] at hnode
  simp only [makeReady, hnode]
  rfl

/-- A free slot takes a record: its counter starts at the record's dependences, less what has been counted down already. -/
theorem postNode_of_free {s : State} {p : Nat} {r : NodeRec} (hfree : s.node p r.id = none) (cid : Nat) (queue : Option Nat) (prio : Nat) :
    s.postNode p r cid queue prio = some
      (let s1 := s.setSlot p { s.nodeSlot p r.id with
          counter := (s.nodeSlot p r.id).counter + r.deps, node := some (postedNode r cid queue prio) }
       if (s.nodeSlot p r.id).counter + r.deps ≤ 0 then s1.makeReady p r.id else s1) := by
  rw [node] at hfree
  unfold postNode
  dsimp only
  rw [hfree]
  rfl

/-- The slot of a record that has just been posted. -/
theorem nodeSlot_posted (s : State) {p : Nat} (hp : p < s.parts.length) (n : Nat) (c : Int) (d : Node) :
    (s.setSlot p { s.nodeSlot p n with counter := c, node := some d }).nodeSlot p n =
      { s.nodeSlot p n with counter := c, node := some d } := by
  have hslot := nodeSlot_setSlot s hp { s.nodeSlot p n with counter := c, node := some d }
  rwa [nodeSlot_n] at hslot

/-- What the posting of a record into a free slot leaves (R302). -/
theorem postNode_posts {s : State} {p : Nat} (hp : p < s.parts.length) {r : NodeRec} (hfree : s.node p r.id = none) (cid : Nat)
    (queue : Option Nat) (prio : Nat) :
    let count := (s.nodeSlot p r.id).counter + r.deps
    ∃ t y, s.postNode p r cid queue prio = some t ∧ t.mem = s.mem ∧ t.node p r.id = some y ∧ y.kind = r.kind ∧ y.prio = prio ∧ y.ctx = cid ∧
      y.payload = BitVec.ofNat 64 r.payload ∧ y.queue = queue ∧
      (0 < count → y.phase = .posted ∧ (t.nodeSlot p r.id).counter = count) ∧
      (count ≤ 0 → (s.nodeSlot p r.id).poison = false → s.liveContext cid = true → y.phase = .ready ∧ y.readyAt = s.time) := by
  intro count
  have hpost := postNode_of_free hfree cid queue prio
  have hslot := nodeSlot_posted s hp r.id count (postedNode r cid queue prio)
  have hlen : p < (s.setSlot p { s.nodeSlot p r.id with counter := count, node := some (postedNode r cid queue prio) }).parts.length := by
    rw [setSlot, updPart_parts, List.length_modify]
    exact hp
  have hmem : (s.setSlot p { s.nodeSlot p r.id with counter := count, node := some (postedNode r cid queue prio) }).mem = s.mem := rfl
  have hlive : (s.setSlot p { s.nodeSlot p r.id with counter := count, node := some (postedNode r cid queue prio) }).liveContext cid =
    s.liveContext cid := rfl
  dsimp only at hpost
  rw [show (s.nodeSlot p r.id).counter + (r.deps : Int) = count from rfl] at hpost
  have htime : (s.setSlot p { s.nodeSlot p r.id with counter := count, node := some (postedNode r cid queue prio) }).time = s.time := rfl
  generalize s.setSlot p _ = u at *
  have hnode : u.node p r.id = some (postedNode r cid queue prio) := by rw [node, hslot]
  by_cases hcount : count ≤ 0
  · rw [if_pos hcount] at hpost
    have hready := nodeSlot_posted u hlen r.id 0 (u.readied (u.nodeSlot p r.id) (postedNode r cid queue prio))
    rw [makeReady_of_node hnode] at hpost
    refine ⟨_, u.readied (u.nodeSlot p r.id) (postedNode r cid queue prio), hpost, hmem, ?_, rfl, rfl, rfl, rfl, rfl,
      fun h => absurd hcount (by omega), fun _ hpoison halive => ⟨?_, ?_⟩⟩
    · rw [node, hready]
    · rw [readied, hslot, hpoison, show (postedNode r cid queue prio).ctx = cid from rfl, hlive, halive]
      rfl
    · exact htime
  · rw [if_neg hcount] at hpost
    exact ⟨u, _, hpost, hmem, hnode, rfl, rfl, rfl, rfl, rfl, fun _ => ⟨rfl, by rw [hslot]⟩, fun h => absurd h hcount⟩

/-- A submission entry that can be posted: its queue on and not empty, its record and the context's read and well formed. -/
structure Submits (s : State) (p q : Nat) (b c : List Byte) : Prop where
  serving : s.serving p = true
  on : (s.queueOf p q).size.getLsbD 31 = true
  nonempty : (s.queueOf p q).sqhead ≠ (s.queueOf p q).sqtail
  record : s.gpRead p ((s.queueOf p q).base.toNat + 64 * (s.queueOf p q).sqhead) 64 = some b
  context : s.gpRead p (s.queueOf p q).ctx.toNat 32 = some c
  wellFormed : (nodeRec b).bad = false

/-- The queue with its head past an entry. -/
def Queue.headed (x : Queue) : Queue := { x with sqhead := (x.sqhead + 1) % 2 ^ Queue.sqLog x }

theorem gpRead_eq_some {s : State} {p a n : Nat} {b : List Byte} (h : s.gpRead p a n = some b) :
    ∃ ks, s.gpKeys p a 1 n = some ks ∧ ks.any s.lostKey = false ∧ b = ks.map s.mem.byte := by
  obtain ⟨ks, hks, hread⟩ := Option.bind_eq_some_iff.1 h
  cases hlost : ks.any s.lostKey with
  | true =>
    rw [hlost] at hread
    exact absurd hread nofun
  | false =>
    rw [hlost] at hread
    exact ⟨ks, hks, hlost, (Option.some.inj hread).symm⟩

theorem upToHomes_setQueue {s t : State} (h : UpToHomes s t) (p q : Nat) (x : Queue) : UpToHomes (s.setQueue p q x) (t.setQueue p q x) := by
  unfold UpToHomes at h
  exact congrArg (fun u : State => u.setQueue p q x) h

/-- Which context a record names does not depend on the homes. -/
theorem openContext_homes {s t u : State} {p cid : Nat} {c : List Byte} (h : UpToHomes s t) (hopen : s.openContext p c = some (u, cid)) :
    ∃ v, UpToHomes u v ∧ t.openContext p c = some (v, cid) := by
  have hsame : t = { t with contexts := s.contexts, nextId := s.nextId } := by rw [h]
  have hwith := openContext_with s t p c
  rw [← hsame, hopen] at hwith
  refine ⟨_, ?_, hwith⟩
  have hhomes : UpToHomes { s with contexts := u.contexts, nextId := u.nextId } { t with contexts := u.contexts, nextId := u.nextId } := by
    unfold UpToHomes at h
    exact congrArg (fun x : State => { x with contexts := u.contexts, nextId := u.nextId }) h
  rwa [← openContext_rest hopen] at hhomes

/-- The post of an entry at the head of its queue: the reads of its bytes stay at the homes, and the record takes its slot. -/
theorem Submits.postSubmission {s u : State} {p q cid : Nat} {b c : List Byte} (h : s.Submits p q b c)
    (hopen : (s.setQueue p q (Queue.headed (s.queueOf p q))).openContext p c = some (u, cid)) :
    ∃ v, UpToHomes u v ∧ ∀ t, v.postNode p (nodeRec b) cid (some q) (nodeRec b).prio = some t → s.postSubmission p q = some t := by
  obtain ⟨ks, hks, hkept, hbytes⟩ := gpRead_eq_some h.record
  obtain ⟨v, hhomes, hopen'⟩ := openContext_homes
    (upToHomes_setQueue (s.frontReads_homes { part := p } (ks ++ (s.gpKeys p (s.queueOf p q).ctx.toNat 1 32).getD [])) p q _) hopen
  refine ⟨v, hhomes, fun t ht => ?_⟩
  have hgo : ¬ (!Queue.on (s.queueOf p q) || (s.queueOf p q).sqhead == (s.queueOf p q).sqtail) = true := by
    rw [Queue.on, h.on, beq_false_of_ne h.nonempty]
    exact nofun
  unfold State.postSubmission
  dsimp only
  rw [if_neg hgo, hks]
  dsimp only
  rw [if_neg (by rw [hkept]; exact nofun), h.context, Option.bind_some]
  change (match ((s.frontReads { part := p } _).setQueue p q (Queue.headed (s.queueOf p q))).openContext p c with
    | none => _
    | some (s2, cid) => _) = _
  rw [hopen']
  dsimp only
  rw [← hbytes, h.wellFormed, ht]
  rfl

theorem Submits.exec_nodePost {s t : State} {p q : Nat} {b c : List Byte} (h : s.Submits p q b c) (hq : q < 8)
    (hpost : s.postSubmission p q = some t) (hports : s.portsServe (.nodePost p q)) : exec (.nodePost p q) s = .next t := by
  refine exec_of_portsServe (name := "NODE_POST") (congrArg (evPort "NODE_POST") ((if_neg ?_).trans ((if_pos hq).trans hpost))) hports
  rw [h.serving]
  exact nofun

/-! ### Copy nodes (R301) -/

/-- A copy job posted for a node. -/
def nodeJob (s : State) (p n : Nat) (d : Node) (card : List Byte) (k : Nat) : Job :=
  { id := s.nextId, kind := .copy, cluster := k, part := p, ctx := d.ctx, gang := none, node := some n
    fibre := none, wg := 0, prio := d.prio, card := card, phase := .queued, pos := 0, fetched := 0
    stalled := false, sat := 0, flags := 0, error := 0, ctime := 0, since := (s.cluster k).cycle, raised := none }

theorem dispatchCopy_posts {s : State} {p n k : Nat} {d : Node} {card : List Byte} (halign : d.payload.toNat % 128 = 0)
    (hglobal : d.payload.toNat / 2 ^ 56 = 0) (hread : s.frontRead d.ctx d.payload.toNat 128 = .ok card)
    (hcard : s.ccardBad none 0 d.ctx card = false) (hapart : (s.copyData none 0 d.ctx card).1.meets (s.copyData none 0 d.ctx card).2 = false)
    (hleast : s.leastLoaded p = some k) (hroom : s.copyLoad k < 32) :
    s.dispatchCopy p n d = some
      (({ s with jobs := s.jobs ++ [s.nodeJob p n d card k] }.bump).setNode p n { d with phase := .dispatched }) := by
  have hplace : ¬ (d.payload.toNat % 128 != 0 || aperture d.payload.toNat != 0) = true := by
    rw [halign, aperture, hglobal]
    exact nofun
  have hfull : ¬ Config.copyMax ≤ s.copyLoad k := Nat.not_le.2 hroom
  unfold dispatchCopy
  rw [if_neg hplace, hread]
  dsimp only
  rw [hcard, hapart, if_neg (by exact nofun), hleast]
  dsimp only
  rw [if_neg hfull]
  rfl

/-! ### Completion (R302 to R304) -/

/-- The node's successors are counted down, and its slot is free. -/
def freedNode (s : State) (p n : Nat) (d : Node) (e : Nat) : State :=
  (d.succ.foldl (fun s x => s.decrement p (e != 0) x) s).setSlot p ⟨n, 0, false, none⟩

/-- What counting a node down leaves: all but the nodes of its partition. -/
theorem decrement_rest (s : State) (p : Nat) (poison : Bool) (n : Nat) : (s.decrement p poison n).mem = s.mem ∧
    (s.decrement p poison n).parts.length = s.parts.length ∧ (s.decrement p poison n).launches = s.launches ∧
    (s.decrement p poison n).gangs = s.gangs := by
  unfold decrement makeReady
  dsimp only
  (repeat' split) <;> simp [setSlot]

theorem foldl_decrement_rest (p : Nat) (poison : Bool) (l : List Nat) (s : State) :
    (l.foldl (fun s x => s.decrement p poison x) s).mem = s.mem ∧
    (l.foldl (fun s x => s.decrement p poison x) s).parts.length = s.parts.length ∧
    (l.foldl (fun s x => s.decrement p poison x) s).launches = s.launches ∧
    (l.foldl (fun s x => s.decrement p poison x) s).gangs = s.gangs := by
  refine List.foldlRecOn (motive := fun t : State => t.mem = s.mem ∧ t.parts.length = s.parts.length ∧ t.launches = s.launches ∧
    t.gangs = s.gangs) _ _ ⟨rfl, rfl, rfl, rfl⟩ fun t ht x _ => ?_
  obtain ⟨hmem, hparts, hlaunches, hgangs⟩ := ht
  obtain ⟨hmem', hparts', hlaunches', hgangs'⟩ := t.decrement_rest p poison x
  exact ⟨hmem'.trans hmem, hparts'.trans hparts, hlaunches'.trans hlaunches, hgangs'.trans hgangs⟩

theorem freedNode_rest (s : State) (p n : Nat) (d : Node) (e : Nat) : (s.freedNode p n d e).mem = s.mem ∧
    (s.freedNode p n d e).launches = s.launches ∧ (s.freedNode p n d e).gangs = s.gangs := by
  obtain ⟨hmem, -, hlaunches, hgangs⟩ := foldl_decrement_rest p (e != 0) d.succ s
  exact ⟨hmem, hlaunches, hgangs⟩

theorem node_freedNode {s : State} {p : Nat} (hp : p < s.parts.length) (n : Nat) (d : Node) (e : Nat) : (s.freedNode p n d e).node p n = none := by
  obtain ⟨-, hparts, -⟩ := foldl_decrement_rest p (e != 0) d.succ s
  rw [node, freedNode, nodeSlot_setSlot _ (by rwa [hparts]) ⟨n, 0, false, none⟩]

theorem nodeSlot_setSlot_ne (s : State) {p m : Nat} (hp : p < s.parts.length) (x : NodeSlot) (h : m ≠ x.n) :
    (s.setSlot p x).nodeSlot p m = s.nodeSlot p m := by
  have hlast : [x].find? (fun y => y.n == m) = none := List.find?_eq_none.2 fun y hy => by
    rw [List.mem_singleton.1 hy]
    simpa using h.symm
  rw [nodeSlot, nodeSlot, setSlot, part_updPart_same s _ hp, List.find?_append, hlast, Option.or_none, List.find?_filter]
  congr 2
  funext y
  by_cases hy : y.n = m
  · simp [hy, h]
  · simp [hy]

/-- A slot with its count and poison changed. -/
theorem nodeSlot_counted (s : State) {p : Nat} (hp : p < s.parts.length) (m : Nat) (c : Int) (b : Bool) :
    (s.setSlot p { s.nodeSlot p m with counter := c, poison := b }).nodeSlot p m = { s.nodeSlot p m with counter := c, poison := b } := by
  have hslot := nodeSlot_setSlot s hp { s.nodeSlot p m with counter := c, poison := b }
  rwa [nodeSlot_n] at hslot

/-- A node counted down has one dependence less, and the poison of its predecessor. -/
theorem nodeSlot_decrement {s : State} {p : Nat} (hp : p < s.parts.length) (poison : Bool) (m : Nat) :
    ((s.decrement p poison m).nodeSlot p m).counter = max ((s.nodeSlot p m).counter - 1) (-4096) ∧
      ((s.decrement p poison m).nodeSlot p m).poison = ((s.nodeSlot p m).poison || poison) := by
  have hslot := s.nodeSlot_counted hp m (max ((s.nodeSlot p m).counter - 1) (-4096)) ((s.nodeSlot p m).poison || poison)
  have hlen : p < (s.setSlot p { s.nodeSlot p m with
      counter := max ((s.nodeSlot p m).counter - 1) (-4096), poison := (s.nodeSlot p m).poison || poison }).parts.length := by
    rw [setSlot, updPart_parts, List.length_modify]
    exact hp
  unfold decrement
  dsimp only
  generalize s.setSlot p _ = u at *
  cases hnode : (s.nodeSlot p m).node with
  | none =>
    dsimp only
    rw [hslot]
    exact ⟨rfl, rfl⟩
  | some d =>
    dsimp only
    split
    next hready =>
      have hzero : max ((s.nodeSlot p m).counter - 1) (-4096) = 0 := by simpa using (Bool.and_eq_true_iff.1 hready).2
      have hthere : u.node p m = some d := by rw [node, hslot]; exact hnode
      rw [makeReady_of_node hthere, nodeSlot_posted u hlen, hslot]
      exact ⟨hzero.symm, rfl⟩
    · rw [hslot]
      exact ⟨rfl, rfl⟩

/-- A node completes once its writes have passed, without an entry in a completion ring. -/
theorem completeNode_eq {s : State} {p n : Nat} {d : Node} (htime : d.ctime ≤ s.time) (hcq : d.cq = false) (hseen : s.hostSeen p n = true)
    (e r : Nat) : s.completeNode p n d e r =
      (if d.caddr = 0 then some s else match s.forceFill p d.ctx d.caddr.toNat (r % 2 ^ 32 * 2 ^ 32 + e * 2 ^ 24 + d.det * 256 + 32) with
        | .ok t => some t
        | .error _ => if s.liveContext d.ctx then none else some s).map (fun t => t.freedNode p n d e) := by
  have hgo : ¬ (decide (s.time < d.ctime) || !s.hostSeen p n) = true := by
    rw [hseen, decide_eq_false (Nat.not_lt.2 htime)]
    exact nofun
  unfold completeNode
  dsimp only
  rw [if_neg hgo, hcq]
  dsimp only
  refine congrArg (Option.map _) ?_
  unfold completeNode.fill
  simp only [beq_iff_eq]
  rfl

/-- The work of a node that is no launch has ended with its phase. -/
theorem nodeWork_ended {s : State} {p n e r : Nat} {d : Node} (hnode : s.node p n = some d) (hkind : d.kind ≠ 0) (hphase : d.phase = .ended e r) :
    s.nodeWork p n = some (s, d, e, r) := by
  have hnone : s.launches.find? (fun l => l.part == p && l.node == n && d.kind == 0) = none :=
    List.find?_eq_none.2 fun l _ => by simp [hkind]
  simp only [nodeWork, hnode, hnone, hphase]

/-- A node whose work has ended and that completes does so. -/
theorem exec_nodeComplete {s u t : State} {p n e r : Nat} {d : Node} (hwork : s.nodeWork p n = some (u, d, e, r)) (htime : d.ctime ≤ s.time)
    (hdone : u.completeNode p n d e r = some t) (hports : s.portsServe (.nodeComplete p n)) : exec (.nodeComplete p n) s = .next t := by
  refine exec_of_portsServe (name := "NODE_COMPLETE") ?_ hports
  have hpast : ¬ s.time < d.ctime := Nat.not_lt.2 htime
  simp only [exec, execNodeComplete, hwork, if_neg hpast, hdone]

/-! ### The end of a launch (R302) -/

/-- Nothing differs but the memory and what the homes hold. -/
def UpToMemory (s t : State) : Prop := UpToHomes { s with mem := t.mem } t

theorem upToMemory_of_homes {s t : State} (h : UpToHomes s t) : UpToMemory s t := by
  have hmem := upToHomes_mem h
  unfold UpToMemory
  rw [hmem]
  exact h

theorem UpToMemory.trans {s t u : State} (h1 : UpToMemory s t) (h2 : UpToMemory t u) : UpToMemory s u := by
  unfold UpToMemory UpToHomes at *
  rw [h1] at h2
  exact h2

theorem upToMemory_foldl {α : Type} {f : State → α → State} (h : ∀ s x, UpToMemory s (f s x)) (l : List α) (s : State) :
    UpToMemory s (l.foldl f s) :=
  List.foldlRecOn (motive := fun t => UpToMemory s t) _ _ (upToMemory_of_homes (upToHomes_refl s)) fun t ht x _ => ht.trans (h t x)

theorem markBitmap_upToMemory (s : State) (keys : List Nat) : UpToMemory s (s.markBitmap keys) := by
  unfold markBitmap
  refine upToMemory_foldl (fun t m => ?_) _ _
  split
  · rfl
  · rfl

theorem homeWrote_upToMemory (s : State) (u : HomeUse) (keys words : List Nat) : UpToMemory s (s.homeWrote u keys words) := by
  unfold homeWrote
  exact (upToMemory_foldl (fun _ _ => upToMemory_of_homes (writeLine_homes ..)) _ _).trans
    ((markBitmap_upToMemory ..).trans (upToMemory_of_homes (touchLines_homes ..)))

theorem addHold_hostVisible (s : State) (p m l : Nat) (up : Bool) : (s.addHold p m l up).hostVisible = s.hostVisible := by
  unfold addHold
  extract_lets h h1 keys s0 s1 upd
  have hreads : UpToMemory s s0 := upToMemory_of_homes (homeReads_homes ..)
  have hwrote : UpToMemory s0 s1 :=
    UpToMemory.trans (t := { s0 with mem := s0.mem.write (s.layerKey p m l + 8) 4 h1 }) rfl (homeWrote_upToMemory ..)
  have hboth := hreads.trans hwrote
  unfold UpToMemory at hboth
  rw [updPart_hostVisible, hboth]

theorem foldl_addHold_rest (p : Nat) (holds : List (Nat × Nat × Nat)) (s : State) :
    let t := holds.foldl (fun s h => (List.range h.2.2).foldl (fun s _ => s.addHold p h.1 h.2.1 false) s) s
    KeepsClocks s t ∧ t.hostVisible = s.hostVisible := by
  refine List.foldlRecOn (motive := fun t : State => KeepsClocks s t ∧ t.hostVisible = s.hostVisible) _ _ ⟨keepsClocks_refl s, rfl⟩
    fun t ht h _ => ?_
  refine List.foldlRecOn (motive := fun t : State => KeepsClocks s t ∧ t.hostVisible = s.hostVisible) _ _ ht fun u hu _ _ => ?_
  obtain ⟨hclocks, hvisible⟩ := hu
  exact ⟨hclocks.trans (addHold_keepsClocks ..), (addHold_hostVisible ..).trans hvisible⟩

theorem dropHolds_rest (s : State) (lid : Nat) : KeepsClocks s (s.dropHolds lid) ∧ (s.dropHolds lid).hostVisible = s.hostVisible := by
  unfold dropHolds
  split
  · exact ⟨keepsClocks_refl s, rfl⟩
  next l _ =>
    obtain ⟨hclocks, hvisible⟩ := foldl_addHold_rest l.part l.holds s
    exact ⟨hclocks.trans ⟨rfl, rfl, rfl⟩, hvisible⟩

/-- A launch whose gangs are all done leaves with them. -/
def launchLeft (s : State) (l : Launch) : State :=
  { s.dropHolds l.id with
    launches := (s.dropHolds l.id).launches.filter (fun x => x.id != l.id), gangs := (s.dropHolds l.id).gangs.filter (fun g => g.launch != l.id) }

/-- The node of a launch whose work has ended: with its bits of determinism and its completion time. -/
def launchNode (d : Node) (l : Launch) : Node :=
  { d with det := (if l.detx then 1 else 0) + (if l.deta then 2 else 0) + (if l.deto then 4 else 0), ctime := max d.ctime l.ctime }

theorem nodeWork_launch {s : State} {p n : Nat} {d : Node} {l : Launch} (hnode : s.node p n = some d) (hkind : d.kind = 0)
    (hfind : s.launches.find? (fun x => x.part == p && x.node == n) = some l) (hdone : s.launchDone l = true) :
    s.nodeWork p n = some (s.launchLeft l, launchNode d l, l.error, 0) := by
  have hsame : s.launches.find? (fun l => l.part == p && l.node == n && d.kind == 0) = some l := by
    simpa [hkind] using hfind
  simp only [nodeWork, hnode, hsame, hdone]
  rfl

end State

/-! ### The settled statement -/

open State

/-- Settles O46: the registers of a queue by their guards, posting and dispatch by the reads they turn on, completion by the node's work. -/
theorem nodeEventsComplete : Obligations.NodeEventsComplete := by
  unfold Obligations.NodeEventsComplete
  refine ⟨fun s p n d hp hlen => ⟨?notReady, fun q v hq hready => ⟨?sqtail, ?cqhead, ?off, ?sizes, ?on, ?post⟩, ?marker, ?reservedKind, ?copy, ?aging⟩,
    fun s p n d hlen hnode htime hcq hseen hports => ⟨fun e r hkind hphase => ⟨?plain, ?filled, ?successor⟩, ?launch⟩⟩
  case notReady => exact fun q v _ hready => exec_queue_notReady p q hready v
  case sqtail => exact exec_sqtail hp hq hready v
  case cqhead => exact exec_cqhead hp hq hready v
  case off => exact exec_qsize_off hp hq hready
  case sizes => exact fun a b hoff hv ha ha' hb hb' => exec_qsize_sizes hp hq hready hoff hv ha ha' hb hb'
  case on =>
    exact fun a b hoff hv ha ha' hb hb' hsub hcmp hbase hcqbase => exec_qsize_on hp hq hready hoff hv ha ha' hb hb' hsub hcmp hbase hcqbase
  case post =>
    intro b c u cid hserving hon hnonempty hrecord hcontext s1 hports hopen hbad hfree r count
    have hsubmits : s.Submits p q b c := ⟨hserving, hon, hnonempty, hrecord, hcontext, hbad⟩
    obtain ⟨v, hhomes, hsubmit⟩ := hsubmits.postSubmission hopen
    have hu := openContext_rest hopen
    have hparts : v.parts = u.parts := upToHomes_parts hhomes
    have hslots : ∀ m, v.nodeSlot p m = u.nodeSlot p m := fun m => by simp [nodeSlot, part, hparts]
    have hvlen : p < v.parts.length := by
      rw [hparts, hu]
      change p < (s.parts.modify p _).length
      rwa [List.length_modify]
    have hvfree : v.node p r.id = none := (node_of_parts hparts p r.id).trans hfree
    have hlive : v.liveContext cid = u.liveContext cid := by
      unfold liveContext context
      rw [show v.contexts = u.contexts by rw [hhomes]]
    have htime : v.time = s.time := (upToHomes_time hhomes).trans (by rw [hu]; rfl)
    have hmem : v.mem = s.mem := (upToHomes_mem hhomes).trans (by rw [hu]; rfl)
    obtain ⟨t, y, hpost, hkept, hthere, hkind, hprio, hctx, hpayload, hqueue, hwaits, hready⟩ :=
      postNode_posts hvlen hvfree cid (some q) r.prio
    rw [hslots, hlive, htime] at hready
    rw [hslots] at hwaits
    exact ⟨t, y, hsubmits.exec_nodePost hq (hsubmit t hpost) hports, hkept.trans hmem, hthere, hkind, hprio, hctx, hpayload, hqueue, hwaits, hready⟩
  case marker =>
    intro hnodeReady hkind hports
    have hdispatch := dispatch_of_nodeReady hnodeReady (kind := (· == 6)) (by rw [hkind]; rfl)
      (fun s d => some (s.endNode p n (if d.payload == 0 then 0 else 2) 0))
    obtain ⟨-, hthere, -, -⟩ := hnodeReady
    rw [endNode_of_node hthere] at hdispatch
    simp only [← beq_iff_eq (a := d.payload)]
    exact ⟨_, exec_of_portsServe (name := "NODE_MARKER") (congrArg (evPort "NODE_MARKER") hdispatch) hports, frontHas_homes ..⟩
  case reservedKind =>
    intro hnodeReady hkind hports
    have hdispatch := dispatch_of_nodeReady hnodeReady (kind := fun k => decide (7 ≤ k)) (decide_eq_true hkind)
      (fun s _ => some (s.endNode p n 2 0))
    obtain ⟨-, hthere, -, -⟩ := hnodeReady
    rw [endNode_of_node hthere] at hdispatch
    exact ⟨_, exec_of_portsServe (name := "NODE_RESERVED_KIND") (congrArg (evPort "NODE_RESERVED_KIND") hdispatch) hports, frontHas_homes ..⟩
  case copy =>
    intro card k hnodeReady hkind halign hglobal hread hcard hapart hleast hroom hports
    have hdispatch := dispatch_of_nodeReady hnodeReady (kind := (· == 1)) (by rw [hkind]; rfl) (fun s d => s.dispatchCopy p n d)
    rw [dispatchCopy_posts halign hglobal hread hcard hapart hleast hroom, Option.map_some] at hdispatch
    have hexec : exec (.nodeCopy p n) s = .next _ := exec_of_portsServe (name := "NODE_COPY") (congrArg (evPort "NODE_COPY") hdispatch) hports
    have hhomes := frontHas_homes (({ s with jobs := s.jobs ++ [s.nodeJob p n d card k] }.bump).setNode p n { d with phase := .dispatched })
      p d.ctx (s.payloadRanges d)
    refine ⟨s.nodeJob p n d card k, _, hexec, ?_, ?_, rfl, rfl, rfl, rfl, rfl, rfl, rfl⟩
    · rw [upToHomes_parts hhomes]
      exact hhomes
    · rw [node_of_parts (upToHomes_parts hhomes)]
      exact node_setNode _ hlen n _
  case aging =>
    intro hnode hkind hphase hsince hprio
    have hgo : (d.kind == 0 && d.phase == .dispatched && decide (d.waitSince + 1000000 * (d.aged + 1) ≤ s.time) &&
        decide (d.prio + d.aged < 255)) = true := by
      rw [hkind, hphase, decide_eq_true hsince, decide_eq_true hprio]
      rfl
    simp only [exec, execPriorityAging, hnode, hgo]
    rfl
  case plain =>
    intro hcaddr
    have hdone := completeNode_eq htime hcq hseen e r
    rw [if_pos hcaddr] at hdone
    exact ⟨_, exec_nodeComplete (nodeWork_ended hnode hkind hphase) htime hdone hports, rfl, node_freedNode hlen n d e,
      (s.freedNode_rest p n d e).1⟩
  case filled =>
    intro u hcaddr hfill
    have hdone := completeNode_eq htime hcq hseen e r
    rw [if_neg hcaddr, hfill] at hdone
    exact exec_nodeComplete (nodeWork_ended hnode hkind hphase) htime hdone hports
  case successor =>
    intro m hcaddr hsucc hne
    have hdone := completeNode_eq htime hcq hseen e r
    rw [if_pos hcaddr] at hdone
    refine ⟨_, exec_nodeComplete (nodeWork_ended hnode hkind hphase) htime hdone hports, ?_⟩
    have hlast : (s.freedNode p n d e).nodeSlot p m = (s.decrement p (e != 0) m).nodeSlot p m := by
      obtain ⟨-, hparts, -⟩ := s.decrement_rest p (e != 0) m
      rw [freedNode, hsucc]
      exact nodeSlot_setSlot_ne _ (by rwa [List.foldl_cons, List.foldl_nil, hparts]) _ hne
    obtain ⟨hcounter, hpoison⟩ := nodeSlot_decrement hlen (e != 0) m
    rw [hlast]
    exact ⟨hcounter, hpoison.trans (congrArg _ (Bool.eq_iff_iff.2 (by simp)))⟩
  case launch =>
    intro l hkind hfind hdone hlaunch hcaddr
    obtain ⟨hclocks, hvisible⟩ := s.dropHolds_rest l.id
    have hlater : (launchNode d l).ctime ≤ s.time := max_le htime hlaunch
    have hcomplete := completeNode_eq (s := s.launchLeft l) (p := p) (n := n) (d := launchNode d l) (by
      rw [show (s.launchLeft l).time = s.time from hclocks.1]; exact hlater) hcq (by
      rw [← hseen, hostSeen, hostSeen, show (s.launchLeft l).hostVisible = s.hostVisible from hvisible,
        show (s.launchLeft l).time = s.time from hclocks.1]) l.error 0
    rw [if_pos (show (launchNode d l).caddr = 0 from hcaddr)] at hcomplete
    obtain ⟨-, hlaunches, hgangs⟩ := (s.launchLeft l).freedNode_rest p n (launchNode d l) l.error
    refine ⟨_, exec_nodeComplete (nodeWork_launch hnode hkind hfind hdone) hlater hcomplete hports,
      node_freedNode (s := s.launchLeft l) (hclocks.parts_length ▸ hlen) n _ _, fun x hx => ?_, fun g hg => ?_⟩
    · rw [hlaunches] at hx
      simpa using (List.mem_filter.1 hx).2
    · rw [hgangs] at hg
      simpa using (List.mem_filter.1 hg).2

end Sys2Proof.Machine

/-! ## Link jobs (R301, R369, R371 to R374) -/

namespace Sys2Proof.Machine

namespace State

/-! ### What a job's reads and flits leave -/

theorem linkHas_homes (s : State) (j : LinkJob) (rs : List (Nat × Nat)) : UpToHomes s (s.linkHas j rs) := by
  unfold linkHas
  refine upToHomes_foldl _ (fun t r => ?_) rs s
  split
  · exact frontReads_homes ..
  · exact upToHomes_refl t

/-- A session's link takes the next flit of a kind other than 3. -/
structure TakesFlit (s : State) (link : Nat) (x : Session) : Prop where
  up : (s.link link).up = true
  room : (s.link link).replay.length < 256
  count : x.txCount < 2 ^ 32 - 1

/-- A flit has left: it stands in its link's replay buffer, and its session's counter is advanced. -/
def flitSent (s : State) (link p : Nat) (x : Session) (flit : List Byte) : State :=
  (s.updLink link (fun l => { l with txSeq := (l.txSeq + 1) % 65536, replay := l.replay ++ [(l.txSeq, flit)] })).setSession p
    { x with txCount := x.txCount + 1 }

section
variable {s : State} {link p n kind : Nat} {x : Session}

theorem TakesFlit.sends (h : s.TakesFlit link x) (p : Nat) (hkind : kind ≠ 3) (job off : Nat) (payload : List Byte) :
    ∃ flit, s.sendFlitOn link p x kind job off payload = some (s.flitSent link p x flit) :=
  sendFlitOn_of_room p h.up h.room (by rw [if_neg hkind]; exact h.count) job off payload

theorem sendFlitOn_none (h : ¬ s.TakesFlit link x) (p : Nat) (hkind : kind ≠ 3) (job off : Nat) (payload : List Byte) :
    s.sendFlitOn link p x kind job off payload = none := by
  refine if_pos ?_
  rw [if_neg (by simpa using hkind)]
  by_contra hgo
  simp only [Bool.or_eq_true, Bool.not_eq_true', decide_eq_true_eq, not_or, Bool.not_eq_false, Nat.not_le] at hgo
  obtain ⟨⟨hup, hroom⟩, hcount⟩ := hgo
  exact h ⟨hup, hroom, hcount⟩

theorem session_flitSent (h : s.session p n = some x) (flit : List Byte) :
    (s.flitSent link p x flit).session p n = some { x with txCount := x.txCount + 1 } := by
  have hn := session_n h
  have hopen := session_isOpen h
  exact session_setSession (s := s.updLink link _) (x := x) h hn hopen

/-- A job's flit has left, what it read stands at the homes, and the job has its new state. -/
theorem jobSent_rest (h : s.session p n = some x) (flit : List Byte) (j y : LinkJob) (rs : List (Nat × Nat)) :
    let t := ((s.flitSent link p x flit).linkHas j rs).setLinkJob y
    t.mem = s.mem ∧ t.fibres = s.fibres ∧ t.linkJobs = (s.setLinkJob y).linkJobs ∧
      t.session p n = some { x with txCount := x.txCount + 1 } ∧
      (link < s.links.length → (t.link link).replay = (s.link link).replay ++ [((s.link link).txSeq, flit)]) := by
  have hhas := (s.flitSent link p x flit).linkHas_homes j rs
  have hlinkJobs : ((s.flitSent link p x flit).linkHas j rs).linkJobs = s.linkJobs := by rw [hhas]; rfl
  have hlinks : ((s.flitSent link p x flit).linkHas j rs).links = (s.flitSent link p x flit).links := by rw [hhas]
  have hsession : ((s.flitSent link p x flit).linkHas j rs).session p n = some { x with txCount := x.txCount + 1 } :=
    (session_of_parts (upToHomes_parts hhas) p n).trans (session_flitSent h flit)
  refine ⟨(upToHomes_mem hhas).trans rfl, (upToHomes_fibres hhas).trans rfl, ?_, hsession, fun hlink => ?_⟩
  · simp only [setLinkJob, hlinkJobs]
  · change (((s.flitSent link p x flit).linkHas j rs).links.getD link .initial).replay = _
    rw [hlinks]
    exact congrArg Link.replay (link_updLink_same s hlink _)

end

/-! ### Puts and gets (R371, R376) -/

section
variable {s : State} {j : LinkJob} (hj : s.linkJob j.id = some j) (hserve : s.linkServes j.part = true)

theorem putNext_sends {x : Session} {b : List Byte} (hsession : s.session j.part j.session = some x) (htakes : s.TakesFlit x.link x)
    (hread : s.linkRead j ((lcard j.card).loc + j.pos) (min 216 ((lcard j.card).n - j.pos)) = .ok b) :
    ∃ flit, s.putNext j = some (((s.flitSent x.link j.part x flit).linkHas j
      [((lcard j.card).loc + j.pos, min 216 ((lcard j.card).n - j.pos))]).setLinkJob { j with
        pos := j.pos + min 216 ((lcard j.card).n - j.pos)
        stage := if (lcard j.card).n ≤ j.pos + min 216 ((lcard j.card).n - j.pos) then 1 else 0 }) := by
  obtain ⟨flit, hflit⟩ := htakes.sends j.part (kind := 0) (by omega) j.id ((lcard j.card).remote + j.pos)
    (Config.dataPayload (lcard j.card).n (lcard j.card).flag b)
  refine ⟨flit, ?_⟩
  unfold putNext
  rw [hsession]
  dsimp only
  rw [hread]
  dsimp only
  rw [sendFlit, hflit]
  rfl

/-- A link of the partition that is up and has room is open. -/
theorem mem_openLinks {link : Nat} : link ∈ s.openLinks j.part ↔
    link < 16 ∧ s.linkOwner link = some j.part ∧ (s.link link).up = true ∧ (s.link link).replay.length < 256 := by
  simp [openLinks, Config.links, List.mem_filter, and_assoc]

theorem putLine_sends {x : Session} {y : Nat × List Byte} {rest : List (Nat × List Byte)} (hlines : j.lines = y :: rest)
    (hsession : s.session j.part j.session = some x) (htakes : s.TakesFlit x.link x) (hlink : x.link < 16)
    (howner : s.linkOwner x.link = some j.part) :
    ∃ link flit, s.putLine j = some ((State.flitSent { s with fresh := s.fresh + 1 } link j.part x flit).setLinkJob { j with lines := rest }) := by
  have hmem : x.link ∈ s.openLinks j.part := mem_openLinks.2 ⟨hlink, howner, htakes.up, htakes.room⟩
  have hpos : 0 < (s.openLinks j.part).length := List.length_pos_of_mem hmem
  have hchosen := s.pick_lt hpos
  have hopen : (s.openLinks j.part).getD (s.pick (s.openLinks j.part).length).1 0 ∈ s.openLinks j.part := by
    rw [List.getD_eq_getElem _ _ hchosen]
    exact List.getElem_mem hchosen
  obtain ⟨-, -, hup, hroom⟩ := mem_openLinks.1 hopen
  obtain ⟨flit, hflit⟩ := TakesFlit.sends (s := { s with fresh := s.fresh + 1 }) ⟨hup, hroom, htakes.count⟩ j.part (kind := 0) (by omega)
    j.id y.1 (Config.dataPayload (lcard j.card).n noFlag y.2)
  refine ⟨(s.openLinks j.part).getD (s.pick (s.openLinks j.part).length).1 0, flit, ?_⟩
  unfold putLine
  rw [hlines, hsession]
  dsimp only
  rw [if_neg (by rw [List.isEmpty_iff]; exact List.ne_nil_of_length_pos hpos)]
  exact congrArg (Option.map _) hflit

include hj hserve in
theorem exec_linkPut {t : State} (hkind : j.kind = .put) (hstage : j.stage = 0) (hfirst : s.linkFirst j = true)
    (hdone : (if j.checkpoint then s.putLine j else s.putNext j) = some t) (hports : s.portsServe (.linkPut j.id)) :
    exec (.linkPut j.id) s = .next t := by
  refine exec_of_portsServe (name := "LINK_PUT") ?_ hports
  have hgo : (s.linkServes j.part && j.kind == .put && j.stage == 0 && s.linkFirst j) = true := by
    rw [hserve, hkind, hstage, hfirst]
    rfl
  simp only [exec, execLinkPut, hj, if_pos hgo, hdone]

include hj hserve in
theorem exec_linkGet {t : State} (hkind : j.kind = .get) (hstage : j.stage = 0) (hfirst : s.linkFirst j = true)
    (hdone : s.getAll j = some t) (hports : s.portsServe (.linkGet j.id)) : exec (.linkGet j.id) s = .next t := by
  refine exec_of_portsServe (name := "LINK_GET") ?_ hports
  have hgo : (s.linkServes j.part && j.kind == .get && j.stage == 0 && s.linkFirst j) = true := by
    rw [hserve, hkind, hstage, hfirst]
    rfl
  simp only [exec, execLinkGet, hj, if_pos hgo, hdone]

theorem getAll_outside {x : Session} (hsession : s.session j.part j.session = some x)
    (hout : x.peerLen < (lcard j.card).remote + (lcard j.card).n) : s.getAll j = some (s.setLinkJob { j with stage := 2, error := 2 }) := by
  unfold getAll
  rw [hsession]
  exact if_pos hout

theorem getAll_inside {x : Session} {u : State} {e : Nat} (hsession : s.session j.part j.session = some x)
    (hin : (lcard j.card).remote + (lcard j.card).n ≤ x.peerLen) (hup : (s.link x.link).up = true)
    (hwrite : s.linkWrite j (lcard j.card).loc ((List.range (lcard j.card).n).map
      (fun i => Config.peerByte j.part x.peer j.session ((lcard j.card).remote + i) s.time)) = .ok (u, e)) :
    s.getAll j = some (u.setLinkJob { j with stage := 2, ctime := max j.ctime e }) := by
  unfold getAll
  rw [hsession]
  dsimp only
  rw [if_neg (Nat.not_lt.2 hin), hup, hwrite]
  rfl

/-! ### Reduces (R372, R373) -/

/-- The scales of a reduce's elements: read where its card has them, else 1. -/
def ScalesRead (s : State) (j : LinkJob) (ss : List Nat) : Prop :=
  (lcard j.card).scales = 0 ∧ ss = List.replicate (((lcard j.card).n + 15) / 16) 127 ∨
    (lcard j.card).scales ≠ 0 ∧ ∃ sb, s.linkRead j (lcard j.card).scales (((lcard j.card).n + 15) / 16) = .ok sb ∧ ss = sb.map (·.toNat)

theorem scaleRange_eq (c : LCard) : scaleRange c = if c.scales = 0 then [] else [(c.scales, (c.n + 15) / 16)] := by
  simp only [scaleRange, beq_iff_eq]

/-- A reduce that begins: its vector quantised into its own slot. -/
theorem reduceStart_eq {xs : List Byte} {ss : List Nat} {u : State} {e : Nat} (hread : s.linkRead j (lcard j.card).loc (4 * (lcard j.card).n) = .ok xs)
    (hscales : s.ScalesRead j ss)
    (hwrite : s.linkWrite j (slotAddr (lcard j.card) (selfRank j.members))
      (quantise (lcard j.card) ((List.range (lcard j.card).n).map (fun i => cardN xs (4 * i) 4)) ss).1 = .ok (u, e)) :
    s.reduceStart j = (u.linkHas j (((lcard j.card).loc, 4 * (lcard j.card).n) :: scaleRange (lcard j.card))).setLinkJob { j with
      stage := 1, arrived := [selfRank j.members]
      sat := (quantise (lcard j.card) ((List.range (lcard j.card).n).map (fun i => cardN xs (4 * i) 4)) ss).2, ctime := max j.ctime e } := by
  unfold reduceStart
  dsimp only
  rw [hread]
  rcases hscales with ⟨hzero, rfl⟩ | ⟨hsome, sb, hsb, rfl⟩
  · rw [if_pos (beq_iff_eq.2 hzero)]
    dsimp only
    rw [if_pos (beq_iff_eq.2 hzero), hwrite]
  · rw [if_neg (by simpa using hsome), hsb]
    dsimp only
    rw [if_neg (by simpa using hsome), hwrite]

include hj hserve in
theorem exec_linkReduce {t : State} (hkind : j.kind = .reduce)
    (hdone : (if j.stage == 0 then some (s.reduceStart j) else if j.stage != 1 then none else if (s.takeEarly j).isSome then s.takeEarly j
      else if !reduceSent j then s.reduceNext j
      else if (ranksOf (lcard j.card).mask).all (fun r => j.arrived.contains r) then some (s.reduceEnd j) else none) = some t)
    (hports : s.portsServe (.linkReduce j.id)) : exec (.linkReduce j.id) s = .next t := by
  refine exec_of_portsServe (name := "LINK_REDUCE") ?_ hports
  have hgo : ¬ (j.kind != .reduce || !s.linkServes j.part) = true := by
    rw [hserve, hkind]
    exact nofun
  simp only [exec, execLinkReduce, hj, if_neg hgo, hdone]

/-- The ranks whose contributions a reduce has. -/
def contributors (j : LinkJob) : List Nat := (ranksOf (lcard j.card).mask).filter (fun r => j.arrived.contains r)

/-- The slots of its contributors are read. -/
def SlotsRead (s : State) (j : LinkJob) (bs : List (List Byte)) : Prop :=
  bs.length = (contributors j).length ∧ ∀ i < (contributors j).length,
    s.linkRead j (slotAddr (lcard j.card) ((contributors j).getD i 0)) (slotStride (lcard j.card)) = .ok (bs.getD i [])

theorem SlotsRead.slots {bs : List (List Byte)} (h : s.SlotsRead j bs) :
    (contributors j).map (fun r => s.linkRead j (slotAddr (lcard j.card) r) (slotStride (lcard j.card))) = bs.map .ok := by
  obtain ⟨hlen, hread⟩ := h
  refine List.ext_getElem (by simp [hlen]) fun i hi hi' => ?_
  rw [List.length_map] at hi hi'
  have hat := hread i hi
  rw [List.getD_eq_getElem _ _ hi, List.getD_eq_getElem _ _ hi'] at hat
  rw [List.getElem_map, List.getElem_map]
  exact hat

theorem findSome_map_ok {α β ε : Type} {f : Except ε α → Option β} (h : ∀ b, f (.ok b) = none) (l : List α) :
    (l.map Except.ok).findSome? f = none := by
  simp [h]

theorem filterMap_map_ok {α ε : Type} {f : Except ε α → Option α} (h : ∀ b, f (.ok b) = some b) (l : List α) :
    (l.map Except.ok).filterMap f = l := by
  rw [List.filterMap_map, show f ∘ Except.ok = some from funext h, List.filterMap_some]

/-- The sum of the contributions in ascending rank order. -/
def reduceSum (j : LinkJob) (bs : List (List Byte)) : List Byte :=
  (((List.range (lcard j.card).n).map (fun i =>
    bs.foldl (fun acc b => (fAdd .f32 .rne acc (slotValue (lcard j.card) b i)).1) 0x80000000)).map (fun x => bytesOfNat 4 x)).flatten

theorem reduceSum_eq (j : LinkJob) (bs : List (List Byte)) : reduceSum j bs = ((List.range (lcard j.card).n).map (fun i =>
    bytesOfNat 4 (bs.foldl (fun acc b => (fAdd .f32 .rne acc (slotValue (lcard j.card) b i)).1) 0x80000000))).flatten := by
  rw [reduceSum, List.map_map]
  rfl

/-- A reduce whose contributions have been summed and whose sum is written. -/
def reduced (u : State) (j : LinkJob) (e : Nat) : State :=
  ((u.linkHas j ((contributors j).map (fun r => (slotAddr (lcard j.card) r, slotStride (lcard j.card))))).dropLater j).setLinkJob
    { j with stage := 2, mask := (contributors j).foldl (fun m r => m + 2 ^ r) 0, ctime := max j.ctime e }

theorem reduceEnd_eq {bs : List (List Byte)} {u : State} {e : Nat} (hslots : s.SlotsRead j bs)
    (hwrite : s.linkWrite j (lcard j.card).loc (reduceSum j bs) = .ok (u, e)) : s.reduceEnd j = u.reduced j e := by
  unfold reduceEnd
  dsimp only
  rw [show (ranksOf (lcard j.card).mask).filter (fun r => j.arrived.contains r) = contributors j from rfl, hslots.slots,
    findSome_map_ok (fun _ => rfl)]
  dsimp only
  unfold reduceSum at hwrite
  rw [filterMap_map_ok (fun _ => rfl), hwrite]
  rfl

include hj hserve in
theorem exec_reduceDeadline {t : State} (hkind : j.kind = .reduce) (hstage : j.stage = 1) (hpast : j.deadline ≤ s.time)
    (hleft : s.earlyLeft j = false) (hdone : s.reduceEnd j = t) (hports : s.portsServe (.reduceDeadline j.id)) :
    exec (.reduceDeadline j.id) s = .next t := by
  refine exec_of_portsServe (name := "REDUCE_DEADLINE") ?_ hports
  have hgo : (s.linkServes j.part && j.kind == .reduce && j.stage == 1 && decide (j.deadline ≤ s.time) && !s.earlyLeft j) = true := by
    rw [hserve, hkind, hstage, hleft, decide_eq_true hpast]
    rfl
  simp only [exec, execReduceDeadline, hj, if_pos hgo, hdone]

/-- A rank of a mask comes after the lower ones. -/
theorem ranksOf_sorted (mask : Nat) : (ranksOf mask).Pairwise (· < ·) :=
  (List.pairwise_lt_range (n := 64)).filter _

/-- A reduce sends to the lowest other rank that can take a flit. -/
theorem reduceNext_of_lowest {r : Nat} {t : State} (hr : r ∈ ranksOf (lcard j.card).mask) (hother : r ≠ selfRank j.members)
    (hlower : ∀ q ∈ ranksOf (lcard j.card).mask, q < r → s.reduceTo j q = none ∨ q = selfRank j.members) (hto : s.reduceTo j r = some t) :
    s.reduceNext j = some t := by
  have hmem : r ∈ reduceOthers j := List.mem_filter.2 ⟨hr, by simpa using hother⟩
  obtain ⟨before, after, hsplit⟩ := List.append_of_mem hmem
  have hsorted : (reduceOthers j).Pairwise (· < ·) := (ranksOf_sorted _).filter _
  rw [hsplit, List.pairwise_append] at hsorted
  obtain ⟨-, -, hbefore⟩ := hsorted
  refine List.findSome?_eq_some_iff.2 ⟨before, r, after, hsplit, hto, fun q hq => ?_⟩
  obtain ⟨hqr, hqother⟩ := List.mem_filter.1 (show q ∈ reduceOthers j by rw [hsplit]; exact List.mem_append_left _ hq)
  exact (hlower q hqr (hbefore q hq r List.mem_cons_self)).resolve_right (by simpa using hqother)

theorem reduceTo_sends {r : Nat} {x : Session} {b : List Byte} (hmore : 216 * sentTo j r < slotStride (lcard j.card))
    (hsession : s.session j.part (memberOf j.members r) = some x) (htakes : s.TakesFlit x.link x)
    (hread : s.linkRead j (slotAddr (lcard j.card) (selfRank j.members) + 216 * sentTo j r)
      (min 216 (slotStride (lcard j.card) - 216 * sentTo j r)) = .ok b) :
    ∃ flit rs, s.reduceTo j r = some (((s.flitSent x.link j.part x flit).linkHas j rs).setLinkJob
      { j with sent := setCount j.sent r (sentTo j r + 1) }) := by
  have hleft : ¬ reduceFlits j ≤ sentTo j r := by
    unfold reduceFlits
    omega
  obtain ⟨flit, hflit⟩ := htakes.sends j.part (kind := 2) (by omega) j.id (216 * sentTo j r)
    (Config.contributionPayload (lcard j.card).coll (lcard j.card).n (lcard j.card).desc.toNat (lcard j.card).mask b)
  refine ⟨flit, [(slotAddr (lcard j.card) (selfRank j.members) + 216 * sentTo j r,
    min 216 (slotStride (lcard j.card) - 216 * sentTo j r))], ?_⟩
  unfold reduceTo
  dsimp only
  rw [if_neg hleft, hsession]
  dsimp only
  rw [hread]
  dsimp only
  rw [sendFlit, hflit]
  rfl

/-- Flits are still to be sent while a rank has not had them all. -/
theorem reduceSent_eq_false {r : Nat} (hr : r ∈ ranksOf (lcard j.card).mask) (hother : r ≠ selfRank j.members)
    (hmore : 216 * sentTo j r < slotStride (lcard j.card)) : reduceSent j = false := by
  refine List.all_eq_false.2 ⟨r, List.mem_filter.2 ⟨hr, by simpa using hother⟩, ?_⟩
  unfold reduceFlits
  simp only [decide_eq_true_eq]
  omega

/-! ### The end of a job (R374) -/

include hj hserve in
theorem exec_linkJobEnd_mask {u : State} {e : Nat} (hstage : j.stage = 2)
    (hwrite : s.linkWrite j ((lcard j.card).result + 8) (bytesOfNat 8 j.mask) = .ok (u, e)) (hports : s.portsServe (.linkJobEnd j.id)) :
    exec (.linkJobEnd j.id) s = .next (u.setLinkJob { j with stage := 3, ctime := max j.ctime e }) := by
  refine exec_of_portsServe (name := "LINK_JOB_END") ?_ hports
  have hmask : s.linkMask j = u.setLinkJob { j with stage := 3, ctime := max j.ctime e } := by
    unfold linkMask
    rw [hwrite]
  simp only [exec, execLinkJobEnd, hj, hserve, hstage, hmask]
  rfl

/-- The end of a node's work, and the note of an error, change no job and no fibre. -/
theorem endNode_rest (s : State) (p n error result : Nat) : (s.endNode p n error result).mem = s.mem ∧
    (s.endNode p n error result).linkJobs = s.linkJobs ∧ (s.endNode p n error result).fibres = s.fibres := by
  unfold endNode
  split <;> exact ⟨rfl, rfl, rfl⟩

theorem noteFatal_linkJobs (s : State) (c kind value : Nat) : (s.noteFatal c kind value).linkJobs = s.linkJobs := by
  unfold noteFatal
  split <;> rfl

theorem jobsUntil_linkJobs (s : State) (own : Option Nat) (post t : Nat) : (s.jobsUntil own post t).linkJobs = s.linkJobs := by
  unfold jobsUntil
  (repeat' split) <;> rfl

theorem joinLaunch_linkJobs (s : State) (g t : Nat) : (s.joinLaunch g t).linkJobs = s.linkJobs := by
  unfold joinLaunch
  (repeat' split) <;> rfl

/-- A job that leaves the engine takes nothing but its place, and leaves its fibre its completion time. -/
theorem linkGone_rest (s : State) (j : LinkJob) : (s.linkGone j).mem = s.mem ∧
    (s.linkGone j).linkJobs = s.linkJobs.filter (fun x => x.id != j.id) ∧ OnlyJobsTill s (s.linkGone j) j.fibre := by
  unfold linkGone
  extract_lets s1 s2
  have h1 : s1.mem = s.mem ∧ s1.linkJobs = s.linkJobs.filter (fun x => x.id != j.id) ∧ OnlyJobsTill s s1 j.fibre :=
    ⟨(jobsUntil_rest _ j.fibre j.post j.ctime).1, jobsUntil_linkJobs .., (jobsUntil_onlyJobsTill _ j.fibre j.post j.ctime).of_fibres rfl⟩
  have h2 : s2.mem = s1.mem ∧ s2.linkJobs = s1.linkJobs ∧ s2.fibres = s1.fibres := by
    dsimp only [s2]
    cases j.gang with
    | none => exact ⟨rfl, rfl, rfl⟩
    | some g =>
      obtain ⟨hmem, hfibres, -⟩ := s1.joinLaunch_rest g j.ctime
      exact ⟨hmem, joinLaunch_linkJobs .., hfibres⟩
  clear_value s1 s2
  obtain ⟨hmem1, hjobs1, honly1⟩ := h1
  obtain ⟨hmem2, hjobs2, hfibres2⟩ := h2
  cases j.node with
  | none => exact ⟨hmem2.trans hmem1, hjobs2.trans hjobs1, honly1.then_fibres hfibres2⟩
  | some n =>
    have h3 : ∀ u : State, u.mem = s2.mem → u.linkJobs = s2.linkJobs → u.fibres = s2.fibres → ∀ e : Nat,
        (u.endNode j.part n e 0).mem = s.mem ∧ (u.endNode j.part n e 0).linkJobs = s.linkJobs.filter (fun x => x.id != j.id) ∧
          OnlyJobsTill s (u.endNode j.part n e 0) j.fibre := by
      intro u hmem hjobs hfibres e
      obtain ⟨hmem3, hjobs3, hfibres3⟩ := u.endNode_rest j.part n e 0
      exact ⟨hmem3.trans (hmem.trans (hmem2.trans hmem1)), hjobs3.trans (hjobs.trans (hjobs2.trans hjobs1)),
        honly1.then_fibres (hfibres3.trans (hfibres.trans hfibres2))⟩
    refine h3 _ ?_ ?_ ?_ _
    · split
      · rfl
      · exact (noteFatal_rest ..).1
    · split
      · rfl
      · exact noteFatal_linkJobs ..
    · split
      · rfl
      · exact (noteFatal_rest ..).2.1

/-- The force-fill of a word, with no migration running and nobody waiting. -/
theorem fillKeys_homes (hm : s.migrations = []) (hc : s.calm) (u : HomeUse) (keys : List Nat) (v : Nat) :
    UpToHomes { s with mem := (bytesAt s.mem keys (bytesOfNat 8 v)).setFull (keys.headD 0 / 8) true } (s.fillKeys u keys v) :=
  frontWrote_homes (s := { s with mem := (bytesAt s.mem keys (bytesOfNat 8 v)).setFull (keys.headD 0 / 8) true }) hm hc u _ _

include hj hserve in
theorem exec_linkJobEnd_status {t : State} (hstage : j.stage = 3) (hpast : j.ctime ≤ s.time) (hdone : s.linkEnd j = t)
    (hports : s.portsServe (.linkJobEnd j.id)) : exec (.linkJobEnd j.id) s = .next t := by
  refine exec_of_portsServe (name := "LINK_JOB_END") ?_ hports
  simp only [exec, execLinkJobEnd, hj, hserve, hstage, decide_eq_true hpast, hdone]
  rfl

/-- The status word is full, and the job is gone. -/
theorem linkEnd_rest {ks : List Nat} (hm : s.migrations = []) (hc : s.calm)
    (hkeys : s.jobKeys j.asJob (lcard j.card).result .write 8 = .ok ks) :
    (s.linkEnd j).mem = (bytesAt s.mem ks (bytesOfNat 8 (linkStatus j))).setFull (ks.headD 0 / 8) true ∧
      (s.linkEnd j).linkJobs = s.linkJobs.filter (fun x => x.id != j.id) ∧ OnlyJobsTill s (s.linkEnd j) j.fibre := by
  unfold linkEnd
  rw [hkeys]
  dsimp only
  have hfill := fillKeys_homes hm hc (s.linkUse j (lcard j.card).result .write) ks (linkStatus j)
  generalize s.fillKeys _ ks _ = u at *
  have hmem := upToHomes_mem hfill
  have hfibres := upToHomes_fibres hfill
  have hjobs : u.linkJobs = s.linkJobs := by rw [hfill]
  have hsees : ∀ v, (u.hostSees j.fibre j.part v ks).linkJobs = u.linkJobs := fun v => by
    unfold hostSees
    split <;> rfl
  have hseesFibres : ∀ v, (u.hostSees j.fibre j.part v ks).fibres = u.fibres := fun v => by
    unfold hostSees
    split <;> rfl
  obtain ⟨hgone, hleft, honly⟩ := (u.hostSees j.fibre j.part (s.jobNode j.asJob) ks).linkGone_rest
    { j with ctime := (ks.filter (fun k => !isScratch k)).foldl (fun t k => max t (s.leaseOf k)) j.ctime }
  refine ⟨hgone.trans ((hostSees_mem ..).trans hmem), hleft.trans ?_, honly.of_fibres ((hseesFibres _).trans hfibres)⟩
  rw [hsees, hjobs]

end

/-! ### The flag of a peer's put (R371) -/

/-- A put to the session's window that is all performed, whose writes have passed. -/
structure Landed (s : State) (w : RemotePut) (x : Session) : Prop where
  found : s.remotePuts.find? (fun y => y.id == w.id) = some w
  performed : w.n ≤ w.got
  passed : w.ctime ≤ s.time
  serves : s.linkServes w.part = true
  session : s.session w.part w.session = some x

section
variable {s : State} {w : RemotePut} {x : Session}

theorem Landed.exec_putFlagFill {t : State} (h : s.Landed w x) (hdone : s.fillFlag w = some t) (hports : s.portsServe (.putFlagFill w.id)) :
    exec (.putFlagFill w.id) s = .next t := by
  refine exec_of_portsServe (name := "PUT_FLAG_FILL") ?_ hports
  simp only [exec, execPutFlagFill, h.found, h.serves, h.performed, h.passed, and_self, if_true, hdone]

theorem fillFlag_acknowledged (hsession : s.session w.part w.session = some x) (htakes : (s.flagFilled w x).TakesFlit x.link x) :
    ∃ flit, s.fillFlag w = some { (s.flagFilled w x).flitSent x.link w.part x flit with
      remotePuts := (s.flagFilled w x).remotePuts.filter (fun y => y.id != w.id) } := by
  obtain ⟨flit, hflit⟩ := htakes.sends w.part (kind := 1) (by omega) w.job 0 (Config.ackPayload (if w.breach then 2 else 0))
  refine ⟨flit, ?_⟩
  unfold fillFlag
  rw [hsession]
  dsimp only
  rw [sendFlit, hflit]
  rfl

theorem fillFlag_filled (hsession : s.session w.part w.session = some x) (htakes : ¬ (s.flagFilled w x).TakesFlit x.link x)
    (hfilled : w.filled = false) : s.fillFlag w = some { s.flagFilled w x with
      remotePuts := (s.flagFilled w x).remotePuts.map (fun y => if y.id == w.id then { y with filled := true } else y) } := by
  unfold fillFlag
  rw [hsession]
  dsimp only
  rw [sendFlit, sendFlitOn_none htakes w.part (kind := 1) (by omega), hfilled]
  rfl

/-- The keys of the flag that a put names in its session's window. -/
def FlagAt (s : State) (w : RemotePut) (x : Session) (ks : List Nat) : Prop :=
  ∃ f, w.breach = false ∧ w.filled = false ∧ w.flag = some f ∧ f + 8 ≤ x.len ∧ s.gpKeys w.part (x.base + f) 2 8 = some ks

theorem flagFilled_of_none (h : ∀ ks, ¬ s.FlagAt w x ks) : s.flagFilled w x = s := by
  unfold flagFilled
  split
  · rfl
  next f hflag =>
    split
    · rfl
    next ks hkeys =>
      obtain ⟨hclear, hnamed⟩ := Option.ite_none_left_eq_some.1 hflag
      obtain ⟨hin, hat⟩ := Option.ite_none_right_eq_some.1 hkeys
      obtain ⟨hbreach, hfilled⟩ := Bool.or_eq_false_iff.1 (Bool.eq_false_iff.2 hclear)
      exact absurd ⟨f, hbreach, hfilled, hnamed, hin, hat⟩ (h ks)

theorem flagFilled_at {ks : List Nat} (h : s.FlagAt w x ks) : s.flagFilled w x = s.fillKeys { part := w.part } ks w.n := by
  obtain ⟨f, hbreach, hfilled, hflag, hin, hkeys⟩ := h
  unfold flagFilled
  rw [hbreach, hfilled, hflag, if_neg (by exact nofun)]
  dsimp only
  rw [if_pos hin, hkeys]

end

/-! ### Link nodes (R301) -/

section
variable {s : State} {p n : Nat} {d : Node}

/-- A link node's card and, for a reduce, its member table have been read. -/
structure LinkCardRead (s : State) (d : Node) (card members : List Byte) : Prop where
  aligned : d.payload.toNat % 128 = 0
  global : d.payload.toNat / 2 ^ 56 = 0
  read : s.frontRead d.ctx d.payload.toNat 128 = .ok card
  members : (lcard card).kind ≠ 2 ∧ members = [] ∨ (lcard card).kind = 2 ∧ (lcard card).members % 8 = 0 ∧
    (lcard card).members / 2 ^ 56 % 256 = 0 ∧ s.frontRead d.ctx (lcard card).members 64 = .ok members

theorem LinkCardRead.dispatchLink {card members : List Byte} (h : s.LinkCardRead d card members) : s.dispatchLink p n d =
    if s.lcardBad p none 0 card members then some (s.endNode p n 2 0)
    else if 64 ≤ s.linkLoad p then none
    else some ((s.postLink p d.ctx none none (some n) 0 0 card members).setNode p n { d with phase := .dispatched }) := by
  have hplace : ¬ (d.payload.toNat % 128 != 0 || aperture d.payload.toNat != 0) = true := by
    rw [h.aligned, aperture, h.global]
    exact nofun
  unfold State.dispatchLink
  dsimp only
  rw [if_neg hplace, h.read]
  dsimp only
  rcases h.members with ⟨hkind, rfl⟩ | ⟨hkind, halign, hglobal, hmembers⟩
  · rw [if_pos (by simpa using hkind)]
  · rw [if_neg (by simpa using hkind), if_neg (by rw [halign, aperture, hglobal]; exact nofun), hmembers]

end

end State

open State

/-! ### The settled statement -/

/-- Settles O59: each event of a link job by what its reads, its writes and its flit leave. -/
theorem linkJobsComplete : Obligations.LinkJobsComplete := by
  unfold Obligations.LinkJobsComplete
  intro s
  refine ⟨fun p n d card members hp hready hkind halign hglobal hcard hmembers hports => ?node, fun w x hfound hperformed hpassed hserves hsession hports => ?flag,
    fun j hj hserve => ⟨fun x hkind hstage hfirst hsession hup hroom hcount hports => ⟨fun b hplain hread => ?put, fun y rest hcheck hlines hlink howner => ?line⟩,
      fun x hkind hstage hfirst hsession hports => ⟨fun hout => ?outside, fun u e hin hup hwrite => ?inside⟩,
      fun ranks bs u e hkind hstage hranks hlen hread hwrite => ⟨fun hpast hleft hports => ?deadline, fun hearly hsent hall hports => ?sum⟩,
      fun hkind hstage hports xs ss u e hread hscales => ?start,
      fun hkind hstage hports => ⟨fun t ht => ?early, fun r x b hearly hr hother hlower => ?send⟩,
      fun u e hstage hports hwrite => exec_linkJobEnd_mask hj hserve hstage hwrite hports,
      fun ks hstage hpast hcalm hmig hkeys hports => ?status⟩⟩
  case node =>
    have hread : s.LinkCardRead d card members := ⟨halign, hglobal, hcard, hmembers⟩
    have hdispatch := dispatch_of_nodeReady hready (kind := (· == 3)) (by rw [hkind]; rfl) (fun s d => s.dispatchLink p n d)
    obtain ⟨-, hthere, -, -⟩ := hready
    rw [hread.dispatchLink, endNode_of_node hthere] at hdispatch
    refine ⟨fun hbad => ?_, fun hgood hroom => ?_⟩
    · rw [hbad, if_pos rfl] at hdispatch
      exact ⟨_, exec_of_portsServe (name := "NODE_LINK") (congrArg (evPort "NODE_LINK") hdispatch) hports, frontHas_homes ..⟩
    · rw [hgood, if_neg nofun, if_neg (Nat.not_le.2 hroom)] at hdispatch
      exact ⟨_, exec_of_portsServe (name := "NODE_LINK") (congrArg (evPort "NODE_LINK") hdispatch) hports, frontHas_homes ..⟩
  case flag =>
    have hlanded : s.Landed w x := ⟨hfound, hperformed, hpassed, hserves, hsession⟩
    refine ⟨fun hnamed hacks => ?_, fun f ks hbreach hfilled hflag hin hkeys hmig hcalm => ?_⟩
    · obtain ⟨hup, hroom, hcount⟩ := hacks
      have hsame : s.flagFilled w x = s := flagFilled_of_none fun ks ⟨f, hflag⟩ => hnamed ⟨f, ks, hflag⟩
      obtain ⟨flit, hdone⟩ := fillFlag_acknowledged (w := w) hsession (by rw [hsame]; exact ⟨hup, hroom, hcount⟩)
      rw [hsame] at hdone
      exact ⟨_, hlanded.exec_putFlagFill hdone hports, rfl, rfl, rfl⟩
    · have hflagged := flagFilled_at (w := w) (x := x) ⟨f, hbreach, hfilled, hflag, hin, hkeys⟩
      have hhomes := fillKeys_homes hmig hcalm { part := w.part } ks w.n
      rw [← hflagged] at hhomes
      have hputs : (s.flagFilled w x).remotePuts = s.remotePuts := by rw [hhomes]
      have hlink : (s.flagFilled w x).link x.link = s.link x.link := by
        unfold link
        rw [show (s.flagFilled w x).links = s.links by rw [hhomes]]
      by_cases hacks : (s.link x.link).up = true ∧ (s.link x.link).replay.length < 256 ∧ x.txCount < 2 ^ 32 - 1
      · obtain ⟨hup, hroom, hcount⟩ := hacks
        obtain ⟨flit, hdone⟩ := fillFlag_acknowledged (w := w) hsession ⟨by rw [hlink]; exact hup, by rw [hlink]; exact hroom, hcount⟩
        rw [hputs] at hdone
        exact ⟨_, hlanded.exec_putFlagFill hdone hports, (upToHomes_fibres hhomes).trans rfl, (upToHomes_mem hhomes).trans rfl,
          fun _ => rfl, fun hnot => absurd ⟨hup, hroom, hcount⟩ hnot⟩
      · have hdone := fillFlag_filled (w := w) hsession (fun ⟨hup, hroom, hcount⟩ => hacks ⟨hlink ▸ hup, hlink ▸ hroom, hcount⟩) hfilled
        rw [hputs] at hdone
        exact ⟨_, hlanded.exec_putFlagFill hdone hports, (upToHomes_fibres hhomes).trans rfl, (upToHomes_mem hhomes).trans rfl,
          fun h => absurd h hacks, fun _ => rfl⟩
  case put =>
    obtain ⟨flit, hdone⟩ := putNext_sends hsession ⟨hup, hroom, hcount⟩ hread
    have hexec := exec_linkPut hj hserve hkind hstage hfirst (by rw [hplain]; exact hdone) hports
    obtain ⟨hmem, hfibres, hjobs, hcounted, hreplay⟩ := jobSent_rest (link := x.link) hsession flit j { j with
      pos := j.pos + min 216 ((lcard j.card).n - j.pos)
      stage := if (lcard j.card).n ≤ j.pos + min 216 ((lcard j.card).n - j.pos) then 1 else 0 }
      [((lcard j.card).loc + j.pos, min 216 ((lcard j.card).n - j.pos))]
    exact ⟨_, hexec, hmem, hfibres, hjobs, hcounted, fun hlink => ⟨flit, hreplay hlink⟩⟩
  case line =>
    obtain ⟨link, flit, hdone⟩ := putLine_sends hlines hsession ⟨hup, hroom, hcount⟩ hlink howner
    exact ⟨_, exec_linkPut hj hserve hkind hstage hfirst ((if_pos hcheck).trans hdone) hports, rfl, rfl, rfl⟩
  case outside => exact exec_linkGet hj hserve hkind hstage hfirst (getAll_outside hsession hout) hports
  case inside => exact exec_linkGet hj hserve hkind hstage hfirst (getAll_inside hsession hin hup hwrite) hports
  case deadline =>
    subst hranks
    rw [← reduceSum_eq] at hwrite
    exact exec_reduceDeadline hj hserve hkind hstage hpast hleft (reduceEnd_eq ⟨hlen, hread⟩ hwrite) hports
  case sum =>
    have harrived : (ranksOf (lcard j.card).mask).all (fun r => j.arrived.contains r) = true :=
      List.all_eq_true.2 (List.filter_eq_self.1 (hranks.symm.trans hall))
    subst hranks
    rw [← reduceSum_eq] at hwrite
    refine exec_linkReduce hj hserve hkind ?_ hports
    rw [hstage, hearly, hsent, harrived, reduceEnd_eq ⟨hlen, hread⟩ hwrite]
    rfl
  case start =>
    intro q reads hwrite
    refine exec_linkReduce hj hserve hkind ?_ hports
    rw [hstage, reduceStart_eq hread hscales hwrite, scaleRange_eq]
    rfl
  case early =>
    refine exec_linkReduce hj hserve hkind ?_ hports
    rw [hstage, ht]
    rfl
  case send =>
    intro sent n hmore hsession hup hroom hcount hread
    obtain ⟨flit, rs, hto⟩ := reduceTo_sends hmore hsession ⟨hup, hroom, hcount⟩ hread
    have hexec := exec_linkReduce hj hserve hkind (by
      rw [hstage, hearly, reduceSent_eq_false hr hother hmore]
      exact reduceNext_of_lowest hr hother hlower hto) hports
    obtain ⟨hmem, hfibres, hjobs, hcounted, -⟩ := jobSent_rest (link := x.link) hsession flit j
      { j with sent := setCount j.sent r (sentTo j r + 1) } rs
    exact ⟨_, hexec, hmem, hfibres, hjobs, hcounted⟩
  case status =>
    intro status
    obtain ⟨hmem, hjobs, honly⟩ := linkEnd_rest hmig hcalm hkeys
    exact ⟨_, exec_linkJobEnd_status hj hserve hstage hpast rfl hports, hjobs, honly, hmem⟩

end Sys2Proof.Machine

/-! ## Models and swaps (R325 to R336) -/

namespace Sys2Proof.Machine

namespace State

/-! ### What a write at the homes leaves -/

section
variable {s t : State}

theorem UpToMemory.parts (h : UpToMemory s t) : t.parts = s.parts :=
  upToHomes_parts (s := { s with mem := t.mem }) h
theorem UpToMemory.fibres (h : UpToMemory s t) : t.fibres = s.fibres :=
  upToHomes_fibres (s := { s with mem := t.mem }) h
theorem UpToMemory.accesses (h : UpToMemory s t) : t.accesses = s.accesses :=
  upToHomes_accesses (s := { s with mem := t.mem }) h
theorem UpToMemory.migrations (h : UpToMemory s t) : t.migrations = s.migrations :=
  upToHomes_migrations (s := { s with mem := t.mem }) h
theorem UpToMemory.regions (h : UpToMemory s t) : t.regions = s.regions := by
  unfold UpToMemory at h
  rw [h]
theorem UpToMemory.calm (h : UpToMemory s t) (hc : s.calm) : t.calm := by
  unfold State.calm
  rw [h.accesses]
  exact hc

/-- Memory has been put, and the homes have taken part in it. -/
theorem upToMemory_of_put {m : Memory} (h : UpToHomes { s with mem := m } t) : UpToMemory s t ∧ t.mem = m := by
  have hmem := upToHomes_mem h
  refine ⟨?_, hmem⟩
  unfold UpToMemory
  rw [hmem]
  exact h

/-- A write of the front, with nobody waiting. -/
theorem frontWrote_upToMemory (hc : s.calm) (u : HomeUse) (keys words : List Nat) : UpToMemory s (s.frontWrote u keys words) := by
  have hwrote : UpToMemory s ((s.homeWrote u keys words).frontTook u.part keys) :=
    (homeWrote_upToMemory ..).trans (upToMemory_of_homes (frontTook_homes ..))
  rw [frontWrote, scanKeys_calm (hwrote.calm hc)]
  exact hwrote

/-- What an update of a partition leaves alone it leaves alone in every partition. -/
theorem updPart_field {α : Type} {s : State} {p : Nat} {f : Part → Part} (g : Part → α) (h : ∀ x, g (f x) = g x) (q : Nat) :
    g ((s.updPart p f).part q) = g (s.part q) := by
  by_cases hq : q = p
  · subst hq
    by_cases hlen : q < s.parts.length
    · rw [part_updPart_same s f hlen, h]
    · rw [part, part, updPart, List.getD_eq_default _ _ (by simpa using hlen), List.getD_eq_default _ _ (by simpa using hlen)]
  · rw [part_updPart_ne s f hq]

theorem modelRec_of_models {p : Nat} (h : (t.part p).models = (s.part p).models) (m : Nat) : t.modelRec p m = s.modelRec p m := by
  rw [modelRec, modelRec, h]

theorem UpToLayers.modelRec (h : UpToLayers s t) (p m : Nat) : t.modelRec p m = s.modelRec p m :=
  modelRec_of_models (by rw [h p]) m

/-- A layer's entry lies where the model's table and the partition's ranges say. -/
theorem layerKey_congr {p : Nat} (hmodels : (t.part p).models = (s.part p).models) (hranges : (t.part p).ranges = (s.part p).ranges)
    (hmig : t.migrations = s.migrations) (m l : Nat) : t.layerKey p m l = s.layerKey p m l := by
  unfold layerKey forward Part.stage2 Part.range
  rw [modelRec_of_models hmodels, hranges, hmig]

end

theorem UpToMemory.layerKey {s t : State} (h : UpToMemory s t) (p m l : Nat) : t.layerKey p m l = s.layerKey p m l :=
  layerKey_congr (congrArg (fun ps : List Part => (ps.getD p .initial).models) h.parts)
    (congrArg (fun ps : List Part => (ps.getD p .initial).ranges) h.parts) h.migrations m l

/-! ### Model records (R325) -/

section
variable {s : State} {p m : Nat} (hp : p < 16) (hm : m < 64) (hready : s.pf.ready = true)

theorem modelRec_setModel (s : State) {p m : Nat} (hlen : p < s.parts.length) (hmodel : m < (s.part p).models.length)
    (f : ModelRec → ModelRec) : (s.setModel p m f).modelRec p m = f (s.modelRec p m) := by
  rw [modelRec, setModel, part_updPart_same s _ hlen, modelRec, List.getD_eq_getElem?_getD, List.getD_eq_getElem?_getD]
  simp [hmodel]

/-- The part refuses a write or an enable. -/
def vfRefuse (s : State) (p : Nat) : State := s.updPart p (fun x => { x with vfRefused := true })

/-- The fields of word 1 of a record. -/
theorem recordFields (v : DWord) : (v.extractLsb' 0 16).toNat = v.toNat % 2 ^ 16 ∧ (v.extractLsb' 16 8).toNat = v.toNat / 2 ^ 16 % 256 ∧
    (v.extractLsb' 25 7).toNat = v.toNat / 2 ^ 25 % 128 ∧ (v.extractLsb' 32 32).toNat = v.toNat / 2 ^ 32 := by
  refine ⟨by simp [BitVec.extractLsb'_toNat], by simp [BitVec.extractLsb'_toNat, Nat.shiftRight_eq_div_pow],
    by simp [BitVec.extractLsb'_toNat, Nat.shiftRight_eq_div_pow], ?_⟩
  have hlt := v.isLt
  rw [BitVec.extractLsb'_toNat, Nat.shiftRight_eq_div_pow]
  omega

include hp hm in
theorem record_guard {k : Nat} (hk : k < 4) : ¬ (p ≥ Config.partitions ∨ m ≥ 64 ∨ k ≥ 4) := by
  simp only [Config.partitions]
  omega

include hp hm hready in
theorem exec_modelRecordWrite_disabled (hoff : (s.modelRec p m).enabled = false) (v : DWord) :
    exec (.modelRecordWrite p m 0 v) s = .next (s.setModel p m (fun x => { x with table := v })) ∧
    exec (.modelRecordWrite p m 1 v) s = .next (s.setModel p m (fun x => { x with
      layers := v.toNat % 2 ^ 16, prio := v.toNat / 2 ^ 16 % 256, ctl := v.toNat / 2 ^ 25 % 128, gen := v.toNat / 2 ^ 32 })) ∧
    exec (.modelRecordWrite p m 2 v) s = .next (s.setModel p m (fun x => { x with context := v })) ∧
    exec (.modelRecordWrite p m 3 v) s = .next (s.setModel p m (fun x => { x with rest := v })) := by
  obtain ⟨hlayers, hprio, hctl, hgen⟩ := recordFields v
  rw [← hlayers, ← hprio, ← hctl, ← hgen]
  have hwrite : ∀ k < 4, ∀ t, (match k with
      | 0 => s.setModel p m (fun x => { x with table := v })
      | 1 => s.setModel p m (fun x => { x with
          layers := (v.extractLsb' 0 16).toNat, prio := (v.extractLsb' 16 8).toNat, ctl := (v.extractLsb' 25 7).toNat
          gen := (v.extractLsb' 32 32).toNat })
      | 2 => s.setModel p m (fun x => { x with context := v })
      | _ => s.setModel p m (fun x => { x with rest := v })) = t → exec (.modelRecordWrite p m k v) s = .next t := by
    intro k hk t ht
    refine congrArg (ev "MODEL_RECORD_WRITE") ((if_pos hready).trans ((if_neg (record_guard hp hm hk)).trans (congrArg some ?_)))
    exact (if_neg (by rw [hoff]; exact nofun)).trans ht
  exact ⟨hwrite 0 (by omega) _ rfl, hwrite 1 (by omega) _ rfl, hwrite 2 (by omega) _ rfl, hwrite 3 (by omega) _ rfl⟩

include hp hm hready in
theorem exec_modelRecordWrite_prio (hon : (s.modelRec p m).enabled = true) {v : DWord} (hlayers : v.toNat % 2 ^ 16 = (s.modelRec p m).layers)
    (hctl : v.toNat / 2 ^ 25 % 128 = (s.modelRec p m).ctl) (hgen : v.toNat / 2 ^ 32 = (s.modelRec p m).gen) :
    exec (.modelRecordWrite p m 1 v) s = .next (s.setModel p m (fun x => { x with prio := v.toNat / 2 ^ 16 % 256 })) := by
  obtain ⟨hlayers', hprio', hctl', hgen'⟩ := recordFields v
  rw [← hprio']
  refine congrArg (ev "MODEL_RECORD_WRITE") ((if_pos hready).trans ((if_neg (record_guard hp hm (by omega))).trans (congrArg some
    ((if_pos hon).trans ((if_pos rfl).trans (if_pos ?_))))))
  rw [hlayers', hctl', hgen', hlayers, hctl, hgen]
  simp

include hp hm hready in
theorem exec_modelRecordWrite_refused (hon : (s.modelRec p m).enabled = true) {k : Nat} (hk : k < 4) (hne : k ≠ 1) (v : DWord) :
    exec (.modelRecordWrite p m k v) s = .next (s.vfRefuse p) :=
  congrArg (ev "MODEL_RECORD_WRITE") ((if_pos hready).trans ((if_neg (record_guard hp hm hk)).trans (congrArg some
    ((if_pos hon).trans (if_neg (by simpa using hne))))))

/-- Regions and the layers of a partition have changed. -/
def withLayers (s : State) (rs : List Region) (p : Nat) (g : List LayerSt → List LayerSt) : State :=
  State.updPart { s with regions := rs } p (fun x => { x with layers := g x.layers })

theorem withLayers_rest (s : State) (rs : List Region) (p : Nat) (g : List LayerSt → List LayerSt) :
    (s.withLayers rs p g).fibres = s.fibres ∧ (s.withLayers rs p g).accesses = s.accesses ∧ (s.withLayers rs p g).migrations = s.migrations ∧
      (s.withLayers rs p g).mem = s.mem ∧ (s.withLayers rs p g).parts.length = s.parts.length :=
  ⟨rfl, rfl, rfl, rfl, List.length_modify ..⟩

theorem withLayers_upToLayers (s : State) (rs : List Region) (p : Nat) (g : List LayerSt → List LayerSt) :
    UpToLayers s (s.withLayers rs p g) :=
  (upToLayers_of_parts (t := { s with regions := rs }) rfl).trans (updPart_upToLayers _ p g)

/-! ### Enabling (R325, R328) -/

theorem readTables_homes (s : State) (p : Nat) (keys : List Nat) : UpToHomes s (s.readTables p keys) := by
  unfold readTables
  refine upToHomes_trans ?_ (frontReads_homes ..)
  split
  · exact countLost_homes ..
  · exact upToHomes_refl s

/-- The words of a model's layers as an enable leaves them: empty, of epoch 0, with no hold. -/
def clearLayers (s : State) (p m : Nat) (ls : List Nat) : State :=
  ls.foldl (fun s l =>
    let k := s.layerKey p m l
    State.frontWrote { s with mem := ((s.mem.write k 8 0).write (k + 8) 4 0).setFull (k / 8) false } { part := p }
      ((List.range 12).map (k + ·)) [k / 8]) s

theorem clearLayers_upToMemory (hc : s.calm) (p m : Nat) (ls : List Nat) : UpToMemory s (s.clearLayers p m ls) := by
  unfold clearLayers
  refine List.foldlRecOn (motive := fun t => UpToMemory s t) _ _ (upToMemory_of_homes (upToHomes_refl s)) fun t ht l _ => ?_
  have hcalm : State.calm { t with mem := ((t.mem.write (t.layerKey p m l) 8 0).write (t.layerKey p m l + 8) 4 0).setFull (t.layerKey p m l / 8) false } :=
    ht.calm hc
  have hput : UpToMemory t { t with mem := ((t.mem.write (t.layerKey p m l) 8 0).write (t.layerKey p m l + 8) 4 0).setFull (t.layerKey p m l / 8) false } := rfl
  exact ht.trans (hput.trans (frontWrote_upToMemory hcalm ..))

/-- A region that a layer of an enabled model names: pooled, and absent. -/
def pooledRegion (s : State) (p m cid : Nat) (x : Region) : Region :=
  if x.ctx == cid then (match (s.modelHandles p m).find? (fun h => h.1 == x.handle) with
    | some h => { x with pooled := true, absent := true, frames := [], layerRef := layerRefOf (s.modelRec p m).gen m h.2 }
    | none => x) else x

theorem pooledRegion_same (s : State) (p m cid : Nat) (x : Region) :
    (s.pooledRegion p m cid x).ctx = x.ctx ∧ (s.pooledRegion p m cid x).handle = x.handle := by
  unfold pooledRegion
  (repeat' split) <;> exact ⟨rfl, rfl⟩

theorem pooledRegion_of_mem {cid : Nat} {x : Region} (hctx : x.ctx = cid) (hin : x.handle ∈ (s.modelHandles p m).map (·.1)) :
    (s.pooledRegion p m cid x).pooled = true ∧ (s.pooledRegion p m cid x).absent = true ∧ (s.pooledRegion p m cid x).frames = [] := by
  obtain ⟨h, hmem, hh⟩ := List.mem_map.1 hin
  have hsome : ((s.modelHandles p m).find? (fun h => h.1 == x.handle)).isSome := List.find?_isSome.2 ⟨h, hmem, by simpa using hh⟩
  obtain ⟨y, hy⟩ := Option.isSome_iff_exists.1 hsome
  rw [pooledRegion, if_pos (beq_iff_eq.2 hctx), hy]
  exact ⟨rfl, rfl, rfl⟩

/-- What an accepted enable leaves. -/
theorem enableModel_rest (hlen : p < s.parts.length) (hmodel : m < (s.part p).models.length) (hc : s.calm) (cid : Nat) :
    (s.enableModel p m cid).fibres = s.fibres ∧ ((s.enableModel p m cid).modelRec p m).enabled = true ∧
      (s.enableModel p m cid).regions = s.regions.map (s.pooledRegion p m cid) := by
  have hclear := clearLayers_upToMemory (s := s.setModel p m (fun x => { x with enabled := true, cid := cid, disabling := false })) hc p m
    (List.range (s.modelRec p m).layers)
  have hrec := modelRec_setModel s hlen hmodel (fun x => { x with enabled := true, cid := cid, disabling := false })
  refine ⟨hclear.fibres, ?_, congrArg (List.map (s.pooledRegion p m cid)) hclear.regions⟩
  obtain ⟨rs, g, henable⟩ : ∃ rs g, s.enableModel p m cid = (State.clearLayers
      (s.setModel p m (fun x => { x with enabled := true, cid := cid, disabling := false })) p m
      (List.range (s.modelRec p m).layers)).withLayers rs p g := ⟨_, fun ls => ls.filter _ ++ _, rfl⟩
  generalize State.clearLayers _ p m _ = u at *
  rw [henable, (u.withLayers_upToLayers rs p g).modelRec, UpToLayers.modelRec (upToLayers_of_parts hclear.parts), hrec]

theorem enable_guard (hp : p < 16) (hm : m < 64) (hoff : (s.modelRec p m).enabled = false) :
    ¬ (p ≥ Config.partitions ∨ m ≥ 64 ∨ (s.modelRec p m).enabled = true) := by
  simp only [Config.partitions, hoff, Bool.false_eq_true, or_false]
  omega

/-- An enable that the checks accept, and one that they refuse. -/
theorem exec_modelEnable (hp : p < 16) (hm : m < 64) (hready : s.pf.ready = true) (hoff : (s.modelRec p m).enabled = false)
    (hports : s.portsServe (.modelEnable p m)) :
    (∀ c, s.modelCtx p m = some c → s.enableOk p m = true →
      ∃ t, exec (.modelEnable p m) s = .next t ∧ UpToHomes (s.enableModel p m c.id) t) ∧
    (s.enableOk p m = false → ∃ t, exec (.modelEnable p m) s = .next t ∧ UpToHomes (s.vfRefuse p) t) := by
  have hexec : ∀ o, (match s.modelCtx p m with
      | some c =>
        let s1 := if s.enableOk p m then s.enableModel p m c.id else s.vfRefuse p
        some (if s.recordBad p m then s1
          else s1.readTables p ((List.range (s.modelRec p m).layers).map (s.tableKeys p m)).flatten)
      | none => some (s.vfRefuse p)) = some o → exec (.modelEnable p m) s = .next o := fun o ho =>
    exec_of_portsServe (name := "MODEL_ENABLE")
      (congrArg (evPort "MODEL_ENABLE") ((if_pos hready).trans ((if_neg (enable_guard hp hm hoff)).trans ho))) hports
  have hread : ∀ u : State, UpToHomes u (if s.recordBad p m then u
      else u.readTables p ((List.range (s.modelRec p m).layers).map (s.tableKeys p m)).flatten) := fun u => by
    split
    · exact upToHomes_refl u
    · exact readTables_homes ..
  refine ⟨fun c hctx hok => ⟨_, hexec _ ?_, hread _⟩, fun hbad => ?_⟩
  · rw [hctx, hok]
    rfl
  · cases hctx : s.modelCtx p m with
    | none => exact ⟨_, hexec _ (by rw [hctx]), upToHomes_refl _⟩
    | some c =>
      refine ⟨_, hexec _ ?_, hread _⟩
      rw [hctx, hbad]
      rfl

/-! ### Evictions (R335) -/

/-- Layers are evicted: nothing differs but their words' bits, their regions and the homes. -/
structure Evicted (s t : State) : Prop where
  fibres : t.fibres = s.fibres
  accesses : t.accesses = s.accesses
  migrations : t.migrations = s.migrations
  cells : t.mem.cells = s.mem.cells
  length : t.parts.length = s.parts.length
  layers : UpToLayers s t

theorem Evicted.calm {t : State} (h : Evicted s t) (hc : s.calm) : t.calm := by
  unfold State.calm
  rw [h.accesses]
  exact hc

theorem evicted_refl (s : State) : Evicted s s := ⟨rfl, rfl, rfl, rfl, rfl, upToLayers_of_parts rfl⟩

theorem Evicted.trans {t u : State} (h1 : Evicted s t) (h2 : Evicted t u) : Evicted s u :=
  ⟨h2.fibres.trans h1.fibres, h2.accesses.trans h1.accesses, h2.migrations.trans h1.migrations, h2.cells.trans h1.cells,
    h2.length.trans h1.length, h1.layers.trans h2.layers⟩

/-- A resident layer without a hold is evicted: its word is empty. -/
theorem evict_of_resident (hc : s.calm) (hmig : s.migrations = []) {l : Nat} (hheld : s.holdCount p m l = 0) (hres : s.resident p m l = true) :
    Evicted s (s.evict p m l) ∧ (s.evict p m l).mem = s.mem.setFull (s.layerKey p m l / 8) false := by
  obtain ⟨hwrote, hput⟩ := upToMemory_of_put (s := s) (frontWrote_homes (s := { s with mem := s.mem.setFull (s.layerKey p m l / 8) false })
    hmig hc { part := p } [] [s.layerKey p m l / 8])
  obtain ⟨rs, g, hevict⟩ : ∃ rs g, s.evict p m l = (State.frontWrote { s with mem := s.mem.setFull (s.layerKey p m l / 8) false }
      { part := p } [] [s.layerKey p m l / 8]).withLayers rs p g := by
    unfold evict
    rw [hheld, hres]
    exact ⟨_, fun ls => ls.map _, rfl⟩
  generalize State.frontWrote _ _ _ _ = u at *
  obtain ⟨hfibres, haccesses, hmigrations, hmem, hlength⟩ := u.withLayers_rest rs p g
  rw [hevict]
  refine ⟨⟨hfibres.trans hwrote.fibres, haccesses.trans hwrote.accesses, hmigrations.trans hwrote.migrations, ?_, ?_, ?_⟩, hmem.trans hput⟩
  · rw [hmem, hput]
    rfl
  · exact hlength.trans (congrArg List.length hwrote.parts)
  · exact (upToLayers_of_parts hwrote.parts).trans (u.withLayers_upToLayers rs p g)

theorem evict_evicted (hc : s.calm) (hmig : s.migrations = []) (l : Nat) : Evicted s (s.evict p m l) := by
  by_cases hgo : s.holdCount p m l = 0 ∧ s.resident p m l = true
  · exact (evict_of_resident hc hmig hgo.1 hgo.2).1
  · rw [evict, if_pos]
    · exact evicted_refl s
    · simp only [Bool.or_eq_true, bne_iff_ne, Bool.not_eq_true', ne_eq]
      by_contra hnot
      simp only [not_or, Decidable.not_not, Bool.not_eq_false] at hnot
      exact hgo hnot

theorem foldl_evict_evicted (hc : s.calm) (hmig : s.migrations = []) (ls : List Nat) : Evicted s (ls.foldl (fun s l => s.evict p m l) s) :=
  List.foldlRecOn (motive := fun t => Evicted s t) _ _ (evicted_refl s) fun _ ht l _ =>
    ht.trans (evict_evicted (ht.calm hc) (ht.migrations.trans hmig) l)

/-! ### Disabling (R325) -/

/-- A layer of the model is held. -/
theorem any_held : (List.range (s.modelRec p m).layers).any (fun l => s.holdCount p m l != 0) = true ↔
    ∃ l < (s.modelRec p m).layers, s.holdCount p m l ≠ 0 := by
  simp [List.any_eq_true]

theorem not_any_held (h : ∀ l < (s.modelRec p m).layers, s.holdCount p m l = 0) :
    (List.range (s.modelRec p m).layers).any (fun l => s.holdCount p m l != 0) = false := by
  rw [Bool.eq_false_iff, ne_eq, any_held]
  rintro ⟨l, hl, hne⟩
  exact hne (h l hl)

theorem exec_modelDisable (hp : p < 16) (hm : m < 64) (hready : s.pf.ready = true) (hon : (s.modelRec p m).enabled = true) {t : State}
    (ht : (if !(List.range (s.modelRec p m).layers).any (fun l => s.holdCount p m l != 0) && (s.part p).swaps.any (fun w => w.model == m) then
      s.setModel p m (fun x => { x with disabling := true }) else s.disableNow p m) = t) (hports : s.portsServe (.modelDisable p m)) :
    exec (.modelDisable p m) s = .next t := by
  have hgo : ¬ (p ≥ Config.partitions ∨ m ≥ 64 ∨ (s.modelRec p m).enabled = false) := by
    simp only [Config.partitions, hon, Bool.true_eq_false, or_false]
    omega
  exact exec_of_portsServe (name := "MODEL_DISABLE")
    (congrArg (evPort "MODEL_DISABLE") ((if_pos hready).trans ((if_neg hgo).trans (congrArg some ht)))) hports

theorem disableNow_held (h : ∃ l < (s.modelRec p m).layers, s.holdCount p m l ≠ 0) :
    s.disableNow p m = (s.setModel p m (fun x => { x with disabling := false })).vfRefuse p :=
  if_pos (any_held.2 h)

/-- A model's regions, pooled no longer. -/
def unpooled (s : State) (p m : Nat) (r : Region) : Region :=
  if r.part == p && ((s.modelHandles p m).map (·.1)).contains r.handle && r.ctx == (s.modelRec p m).cid then
    { r with pooled := false, absent := false } else r

theorem disableNow_free (h : ∀ l < (s.modelRec p m).layers, s.holdCount p m l = 0) : s.disableNow p m =
    (let s1 := ((List.range (s.modelRec p m).layers).foldl (fun s l => s.evict p m l) s).setModel p m
      (fun x => { x with enabled := false, disabling := false })
     { s1 with regions := s1.regions.map (s.unpooled p m) }) :=
  if_neg (by rw [not_any_held h]; exact nofun)

theorem unpooled_same (s : State) (p m : Nat) (r : Region) : (s.unpooled p m r).part = r.part ∧ (s.unpooled p m r).ctx = r.ctx ∧
    (s.unpooled p m r).handle = r.handle := by
  unfold unpooled
  split <;> exact ⟨rfl, rfl, rfl⟩

theorem unpooled_of_mem {r : Region} (hpart : r.part = p) (hctx : r.ctx = (s.modelRec p m).cid) (hin : r.handle ∈ (s.modelHandles p m).map (·.1)) :
    (s.unpooled p m r).pooled = false := by
  rw [unpooled, if_pos]
  rw [beq_iff_eq.2 hpart, beq_iff_eq.2 hctx, List.contains_iff_mem.2 hin]
  rfl

/-- What a disable that takes place leaves. -/
theorem disableNow_rest (hlen : p < s.parts.length) (hmodel : m < (s.part p).models.length) (hc : s.calm) (hmig : s.migrations = [])
    (h : ∀ l < (s.modelRec p m).layers, s.holdCount p m l = 0) :
    (s.disableNow p m).fibres = s.fibres ∧ (s.disableNow p m).mem.cells = s.mem.cells ∧ ((s.disableNow p m).modelRec p m).enabled = false ∧
      ∀ x ∈ (s.disableNow p m).regions, x.part = p → x.ctx = (s.modelRec p m).cid → x.handle ∈ (s.modelHandles p m).map (·.1) →
        x.pooled = false := by
  have hevicted := foldl_evict_evicted (p := p) (m := m) hc hmig (List.range (s.modelRec p m).layers)
  rw [disableNow_free h]
  dsimp only
  generalize (List.range (s.modelRec p m).layers).foldl _ s = u at *
  refine ⟨hevicted.fibres, hevicted.cells, ?_, fun x hx hpart hctx hin => ?_⟩
  · have hmodels : m < (u.part p).models.length := by rw [hevicted.layers p]; exact hmodel
    exact congrArg ModelRec.enabled (modelRec_setModel u (hevicted.length ▸ hlen) hmodels _)
  · obtain ⟨y, -, rfl⟩ := List.mem_map.1 hx
    obtain ⟨hpart', hctx', hhandle⟩ := s.unpooled_same p m y
    exact unpooled_of_mem (hpart'.symm.trans hpart) (hctx'.symm.trans hctx) (hhandle ▸ hin)

end

/-! ### Swap nodes (R301, R333, R334) -/

theorem setNode_field {α : Type} (s : State) (p n : Nat) (d : Node) (g : Part → α) (h : ∀ (x : Part) ns, g { x with nodes := ns } = g x) (q : Nat) :
    g ((s.setNode p n d).part q) = g (s.part q) :=
  updPart_field (f := fun x => { x with nodes := _ }) g (fun x => h x _) q

theorem node_of_nodes {s t : State} {p : Nat} (h : (t.part p).nodes = (s.part p).nodes) (n : Nat) : t.node p n = s.node p n := by
  rw [node, node, nodeSlot, nodeSlot, h]

/-- A residency word is written, and the homes take part in it. -/
theorem setResidency_rest {s : State} (hmig : s.migrations = []) (p m l : Nat) (v : DWord) :
    UpToMemory s (s.setResidency p m l v) ∧ (s.setResidency p m l v).mem = s.mem.write (s.layerKey p m l) 8 v.toNat :=
  upToMemory_of_put (homeWrote_homes (s := { s with mem := s.mem.write (s.layerKey p m l) 8 v.toNat }) hmig ..)

section
variable {s : State} {p n : Nat} {d : Node} {b : List Byte} {ref : DWord}

/-- A swap node whose record has been read. -/
structure SwapReady (s : State) (p n : Nat) (d : Node) (b : List Byte) (ref : DWord) : Prop where
  ready : s.nodeReady p n d
  kind : d.kind = 2
  record : s.frontRead d.ctx d.payload.toNat 16 = .ok b
  valid : s.refValid p d.ctx ref = true

theorem SwapReady.dispatches (h : s.SwapReady p n d b ref) {e : Bool} (hrec : swapRec b = some (ref, e)) (f : State → Node → DWord → State) :
    ∃ t, s.dispatch p n (· == 2) (fun s d => s.dispatchSwap p n d e (f s d)) = some t ∧ UpToHomes (f s d ref) t := by
  have hdispatch := dispatch_of_nodeReady h.ready (kind := (· == 2)) (by rw [h.kind]; rfl) (fun s d => s.dispatchSwap p n d e (f s d))
  have hswap : s.dispatchSwap p n d e (f s d) = some (f s d ref) := by
    unfold dispatchSwap
    rw [h.record]
    dsimp only
    rw [hrec]
    exact if_pos (beq_self_eq_true e)
  rw [hswap] at hdispatch
  exact ⟨_, hdispatch, frontHas_homes ..⟩

theorem SwapReady.exec_nodeSwapIn (h : s.SwapReady p n d b ref) (hrec : swapRec b = some (ref, false)) (hports : s.portsServe (.nodeSwapIn p n)) :
    ∃ t, exec (.nodeSwapIn p n) s = .next t ∧ UpToHomes (s.swapInNode p n d ref) t := by
  obtain ⟨t, hdispatch, hhomes⟩ := h.dispatches hrec (fun s d => s.swapInNode p n d)
  exact ⟨t, exec_of_portsServe (name := "NODE_SWAP_IN") (congrArg (evPort "NODE_SWAP_IN") hdispatch) hports, hhomes⟩

theorem SwapReady.exec_nodeSwapEvict (h : s.SwapReady p n d b ref) (hrec : swapRec b = some (ref, true))
    (hports : s.portsServe (.nodeSwapEvict p n)) :
    ∃ t, exec (.nodeSwapEvict p n) s = .next t ∧ UpToHomes (s.swapOutNode p n d ref) t := by
  obtain ⟨t, hdispatch, hhomes⟩ := h.dispatches hrec (fun s d => s.swapOutNode p n d)
  exact ⟨t, exec_of_portsServe (name := "NODE_SWAP_EVICT") (congrArg (evPort "NODE_SWAP_EVICT") hdispatch) hports, hhomes⟩

/-- A loading node: of a resident layer, of one in flight, and of an absent one. -/
theorem SwapReady.swapInNode_eq (h : s.SwapReady p n d b ref) : s.swapInNode p n d ref =
    if s.resident p (refModel ref) (refLayer ref) then s.setNode p n { d with phase := .ended 0 0 }
    else if (s.residency p (refModel ref) (refLayer ref)).getLsbD 40 then
      (s.setNode p n { d with phase := .dispatched }).updPart p (fun x => { x with swaps := x.swaps.map (fun y =>
        if y.model == refModel ref && y.layer == refLayer ref then { y with nodes := y.nodes ++ [n] } else y) })
    else ((s.setNode p n { d with phase := .dispatched }).setResidency p (refModel ref) (refLayer ref)
      (s.residency p (refModel ref) (refLayer ref) ||| 0x10000000000)).startSwap p (refModel ref) (refLayer ref) [n] := by
  obtain ⟨-, hthere, -, -⟩ := h.ready
  unfold swapInNode
  dsimp only
  rw [h.valid, endNode_of_node hthere 0 0]
  rfl

/-- A swap-in that begins joins its partition's order. -/
theorem startSwap_rest (s : State) {p : Nat} (hlen : p < s.parts.length) (m l : Nat) (ns : List Nat) :
    (s.startSwap p m l ns).mem = s.mem ∧ (s.startSwap p m l ns).fibres = s.fibres ∧
      (∃ w, ((s.startSwap p m l ns).part p).swaps = (s.part p).swaps ++ [w] ∧ w.model = m ∧ w.layer = l ∧ w.nodes = ns ∧ w.stage = 0) ∧
      ∀ n, (s.startSwap p m l ns).node p n = s.node p n := by
  refine ⟨rfl, rfl, ⟨_, congrArg Part.swaps (part_updPart_same s _ hlen), rfl, rfl, rfl, rfl⟩, fun n => node_of_nodes ?_ n⟩
  exact updPart_field (f := fun x => { x with swaps := x.swaps ++ [_] }) (·.nodes) (fun _ => rfl) p

/-- A loading node of an absent layer marks its word and starts a swap-in. -/
theorem SwapReady.swapInNode_absent (h : s.SwapReady p n d b ref) (hlen : p < s.parts.length) (hmig : s.migrations = [])
    (hres : s.resident p (refModel ref) (refLayer ref) = false)
    (hflight : (s.residency p (refModel ref) (refLayer ref)).getLsbD 40 = false) :
    (s.swapInNode p n d ref).fibres = s.fibres ∧ (s.swapInNode p n d ref).mem = s.mem.write (s.layerKey p (refModel ref) (refLayer ref)) 8
        (s.residency p (refModel ref) (refLayer ref) ||| 0x10000000000).toNat ∧
      (∃ w, ((s.swapInNode p n d ref).part p).swaps = (s.part p).swaps ++ [w] ∧ w.model = refModel ref ∧ w.layer = refLayer ref ∧
        w.nodes = [n] ∧ w.stage = 0) ∧
      (s.swapInNode p n d ref).node p n = some { d with phase := .dispatched } := by
  rw [h.swapInNode_eq, if_neg (by rw [hres]; exact nofun), if_neg (by rw [hflight]; exact nofun)]
  have hthere := node_setNode s hlen n { d with phase := .dispatched }
  have hkey : (s.setNode p n { d with phase := .dispatched }).layerKey p (refModel ref) (refLayer ref) =
      s.layerKey p (refModel ref) (refLayer ref) :=
    layerKey_congr (s.setNode_field p n _ (·.models) (fun _ _ => rfl) p) (s.setNode_field p n _ (·.ranges) (fun _ _ => rfl) p) rfl _ _
  have hswaps := s.setNode_field p n { d with phase := .dispatched } (·.swaps) (fun _ _ => rfl) p
  obtain ⟨hwrote, hmem⟩ := setResidency_rest (s := s.setNode p n { d with phase := .dispatched }) hmig p (refModel ref) (refLayer ref)
    (s.residency p (refModel ref) (refLayer ref) ||| 0x10000000000)
  rw [hkey] at hmem
  generalize State.setResidency _ p (refModel ref) (refLayer ref) _ = u at *
  have hparts := hwrote.parts
  have hulen : p < u.parts.length := by
    rw [hparts, setNode, setSlot, updPart_parts, List.length_modify]
    exact hlen
  obtain ⟨hmem', hfibres', ⟨w, hw, hmodel, hlayer, hnodes, hstage⟩, hnode'⟩ := u.startSwap_rest hulen (refModel ref) (refLayer ref) [n]
  refine ⟨hfibres'.trans (hwrote.fibres.trans rfl), hmem'.trans (hmem.trans rfl), ⟨w, ?_, hmodel, hlayer, hnodes, hstage⟩, ?_⟩
  · rw [hw, part, hparts, ← part]
    exact congrArg (· ++ [w]) hswaps
  · rw [hnode', node_of_parts hparts]
    exact hthere

/-- An evicting node: of a held layer, and of a free one. -/
theorem SwapReady.swapOutNode_eq (h : s.SwapReady p n d b ref) : s.swapOutNode p n d ref =
    if s.holdCount p (refModel ref) (refLayer ref) != 0 then s.setNode p n { d with phase := .ended 7 0 }
    else (s.evict p (refModel ref) (refLayer ref)).endNode p n 0 0 := by
  obtain ⟨-, hthere, -, -⟩ := h.ready
  unfold swapOutNode
  dsimp only
  rw [h.valid, endNode_of_node hthere 7 0]
  rfl

/-- A resident layer without a hold is evicted by its node, which ends. -/
theorem SwapReady.swapOutNode_evicts (h : s.SwapReady p n d b ref) (hlen : p < s.parts.length) (hc : s.calm) (hmig : s.migrations = [])
    (hheld : s.holdCount p (refModel ref) (refLayer ref) = 0) (hres : s.resident p (refModel ref) (refLayer ref) = true) :
    (s.swapOutNode p n d ref).mem = s.mem.setFull (s.layerKey p (refModel ref) (refLayer ref) / 8) false ∧
      (s.swapOutNode p n d ref).node p n = some { d with phase := .ended 0 0 } := by
  obtain ⟨-, hthere, -, -⟩ := h.ready
  obtain ⟨hevicted, hmem⟩ := evict_of_resident hc hmig hheld hres
  rw [h.swapOutNode_eq, if_neg (by simpa using hheld)]
  generalize s.evict p (refModel ref) (refLayer ref) = u at *
  have hstill : u.node p n = some d := (node_of_nodes (by rw [hevicted.layers p]) n).trans hthere
  rw [endNode_of_node hstill]
  exact ⟨hmem, node_setNode u (hevicted.length ▸ hlen) n _⟩

end

/-! ### Swap-ins (R333 to R336) -/

section
variable {s : State} {p : Nat} {w : Swap}

theorem adviseLayer_rest (s : State) (p m l : Nat) : (s.adviseLayer p m l).fibres = s.fibres ∧ (s.adviseLayer p m l).parts = s.parts := by
  unfold adviseLayer
  split
  · refine List.foldlRecOn (motive := fun t : State => t.fibres = s.fibres ∧ t.parts = s.parts) _ _ ⟨rfl, rfl⟩ fun t ht x _ => ?_
    split
    · exact ht
    · split <;> exact ht
  · exact ⟨rfl, rfl⟩

/-- Frames taken from a partition's pool. -/
def takeFrames (s : State) (p : Nat) (mine : List Nat) : State :=
  s.updPart p (fun x => { x with poolFree := x.poolFree.filter (fun f => !mine.contains f) })

/-- The frames that a swap-in takes, first come. -/
def myFrames (s : State) (p : Nat) (w : Swap) : List Nat := (s.freeFrames p).take (s.layerNeeds p w.model w.layer)

/-- A swap-in first in line takes its frames, where enough are free. -/
theorem swapStep_frames (hlen : p < s.parts.length) (hserve : s.serving p = true) (hactive : s.swapActive p w = true) (hstage : w.stage = 0)
    (hfirst : s.firstForFrames p w = true) (hfree : s.layerNeeds p w.model w.layer ≤ (s.freeFrames p).length) :
    ∃ t, s.swapStep p w = some t ∧ t.mem = s.mem ∧ t.fibres = s.fibres ∧
      (t.part p).poolFree = (s.part p).poolFree.filter (fun f => !((s.freeFrames p).take (s.layerNeeds p w.model w.layer)).contains f) ∧
      (t.part p).swaps = (s.part p).swaps.map (fun y => if y.id == w.id then
        { w with stage := 1, frames := (s.freeFrames p).take (s.layerNeeds p w.model w.layer) } else y) := by
  obtain ⟨ks, hdone⟩ : ∃ ks, s.swapStep p w = some ((((s.takeFrames p (s.myFrames p w)).readTables p ks).setSwap p
      { w with stage := 1, frames := s.myFrames p w }).adviseLayer p w.model w.layer) := by
    unfold swapStep
    rw [hserve, hactive, hstage, hfirst, if_neg (by exact nofun), if_neg (by exact nofun), if_neg (by exact nofun)]
    dsimp only
    rw [if_pos hfree]
    exact ⟨_, rfl⟩
  have htaken : (s.takeFrames p (s.myFrames p w)).part p =
    { s.part p with poolFree := (s.part p).poolFree.filter (fun f => !(s.myFrames p w).contains f) } := part_updPart_same s _ hlen
  have hlength : p < (s.takeFrames p (s.myFrames p w)).parts.length := by
    rw [takeFrames, updPart_parts, List.length_modify]
    exact hlen
  have hmem : (s.takeFrames p (s.myFrames p w)).mem = s.mem := rfl
  have hfibres : (s.takeFrames p (s.myFrames p w)).fibres = s.fibres := rfl
  generalize s.takeFrames p (s.myFrames p w) = u at *
  have hread := u.readTables_homes p ks
  have hparts := upToHomes_parts hread
  have hset : ((u.readTables p ks).setSwap p { w with stage := 1, frames := s.myFrames p w }).part p =
      { u.part p with swaps := (u.part p).swaps.map (fun y => if y.id == w.id then { w with stage := 1, frames := s.myFrames p w } else y) } := by
    rw [setSwap, part_updPart_same _ _ (hparts ▸ hlength), part, hparts, ← part]
  obtain ⟨hadvFibres, hadvParts⟩ := ((u.readTables p ks).setSwap p { w with stage := 1, frames := s.myFrames p w }).adviseLayer_rest p w.model w.layer
  refine ⟨_, hdone, ?_, hadvFibres.trans ((upToHomes_fibres hread).trans hfibres), ?_, ?_⟩
  · rw [adviseLayer_mem]
    exact (upToHomes_mem hread).trans hmem
  · rw [part, hadvParts, ← part, hset, htaken]
    rfl
  · rw [part, hadvParts, ← part, hset, htaken]
    rfl

theorem exec_swapInFrames {t : State} (hswap : s.swapOf w.id = some (p, w)) (hdone : s.swapStep p w = some t)
    (hports : s.portsServe (.swapInFrames w.id)) : exec (.swapInFrames w.id) s = .next t := by
  refine exec_of_portsServe (name := "SWAP_IN_FRAMES") (congrArg (evPort "SWAP_IN_FRAMES") ?_) hports
  rw [hswap]
  exact hdone

theorem exec_swapInComplete (hswap : s.swapOf w.id = some (p, w)) (hstage : w.stage = 2) (hpast : w.ctime ≤ s.time)
    (hports : s.portsServe (.swapInComplete w.id)) : exec (.swapInComplete w.id) s = .next (s.swapDone p w) := by
  refine exec_of_portsServe (name := "SWAP_IN_COMPLETE") ?_ hports
  simp only [exec, execSwapInComplete, hswap, hstage, decide_eq_true hpast]
  rfl

theorem exec_swapInFailure (hswap : s.swapOf w.id = some (p, w)) (hcause : w.cause ≠ 0) (hports : s.portsServe (.swapInFailure w.id)) :
    exec (.swapInFailure w.id) s = .next (s.swapFail p w) := by
  refine exec_of_portsServe (name := "SWAP_IN_FAILURE") ?_ hports
  have hfailed : (w.cause != 0) = true := by simpa using hcause
  simp only [exec, execSwapInFailure, hswap, if_pos hfailed]

/-- A swap-in that ends lets no disable take place where none waits. -/
theorem swapEnded_of_not_disabling {m : Nat} (h : (s.modelRec p m).disabling = false) : s.swapEnded p m = s := by
  rw [swapEnded, h]
  rfl

/-- A swap-in leaves its partition's order. -/
def dropSwap (s : State) (p id : Nat) : State := s.updPart p (fun x => { x with swaps := x.swaps.filter (fun y => y.id != id) })

theorem part_dropSwap (s : State) {p : Nat} (hlen : p < s.parts.length) (id : Nat) :
    (s.dropSwap p id).part p = { s.part p with swaps := (s.part p).swaps.filter (fun y => y.id != id) } :=
  part_updPart_same s _ hlen

/-- What a completed swap-in leaves (R333 step 4). -/
theorem swapDone_rest (hlen : p < s.parts.length) (hc : s.calm) (hmig : s.migrations = []) (hnodes : w.nodes = [])
    (hdis : (s.modelRec p w.model).disabling = false) : (s.swapDone p w).fibres = s.fibres ∧
      (s.swapDone p w).mem = (s.mem.write (s.layerKey p w.model w.layer) 8 ((s.residency p w.model w.layer + 1) &&& 0xFFFFFFFF).toNat).setFull
        (s.layerKey p w.model w.layer / 8) true ∧
      ((s.swapDone p w).part p).swaps = (s.part p).swaps.filter (fun y => y.id != w.id) := by
  obtain ⟨hs1, hmem1⟩ := setResidency_rest hmig p w.model w.layer ((s.residency p w.model w.layer + 1) &&& 0xFFFFFFFF)
  have hkey := hs1.layerKey p w.model w.layer
  unfold swapDone
  extract_lets old s1 key s2 ids upd s3 s4
  obtain ⟨hput, hmem2⟩ := upToMemory_of_put (s := s1) (frontWrote_homes (s := { s1 with mem := s1.mem.setFull (key / 8) true })
    (hs1.migrations.trans hmig) (hs1.calm hc) { part := p } [] [key / 8])
  have hs2 : UpToMemory s s2 := hs1.trans hput
  have hmem : s2.mem = (s.mem.write (s.layerKey p w.model w.layer) 8 ((s.residency p w.model w.layer + 1) &&& 0xFFFFFFFF).toNat).setFull
      (s.layerKey p w.model w.layer / 8) true := by
    rw [← hmem1, ← hkey]
    exact hmem2
  clear_value s2
  obtain ⟨rs, g, hs3⟩ : ∃ rs g, s3 = (s2.withLayers rs p g).dropSwap p w.id := ⟨_, fun ls => ls.map _, rfl⟩
  have hlayers : UpToLayers s (s2.withLayers rs p g) := (upToLayers_of_parts hs2.parts).trans (s2.withLayers_upToLayers rs p g)
  obtain ⟨hfibres, haccesses, -, hmem3, hlength⟩ := s2.withLayers_rest rs p g
  have hpart := (s2.withLayers rs p g).part_dropSwap (by rw [hlength, hs2.parts]; exact hlen) w.id
  rw [hlayers p, ← hs3] at hpart
  have hcalm : s3.calm := hs2.calm hc
  have hended : (List.foldl (fun s n => s.endNode p n 0 0) s4 w.nodes).swapEnded p w.model = s3 := by
    rw [hnodes, List.foldl_nil, show s4 = s3 from scanAll_calm hcalm _, swapEnded_of_not_disabling]
    rw [modelRec_of_models (s := s) (by rw [hpart]), hdis]
  rw [hended]
  exact ⟨hs2.fibres, hmem, by rw [hpart]⟩

/-- A failed swap-in gives its frames back and leaves its partition's order; its layer is absent. -/
def swapGone (s : State) (p : Nat) (w : Swap) : State :=
  (s.markAbsent p w.model w.layer true).updPart p (fun x => { x with
    poolFree := sortBy id (x.poolFree ++ w.frames), swaps := x.swaps.filter (fun y => y.id != w.id) })

theorem swapGone_rest (s : State) {p : Nat} (hlen : p < s.parts.length) (w : Swap) : (s.swapGone p w).mem = s.mem ∧
    (s.swapGone p w).fibres = s.fibres ∧ (s.swapGone p w).accesses = s.accesses ∧ (s.swapGone p w).migrations = s.migrations ∧
      (s.swapGone p w).part p = { s.part p with
        poolFree := sortBy id ((s.part p).poolFree ++ w.frames), swaps := (s.part p).swaps.filter (fun y => y.id != w.id) } :=
  ⟨rfl, rfl, rfl, rfl, part_updPart_same (s.markAbsent p w.model w.layer true) _ hlen⟩

/-- What a failed swap-in leaves (R336). -/
theorem swapFail_rest (hlen : p < s.parts.length) (hc : s.calm) (hmig : s.migrations = []) (hrefused : ∀ a ∈ s.accesses, a.phase ≠ .refused)
    (hnodes : w.nodes = []) (hdis : (s.modelRec p w.model).disabling = false) : (s.swapFail p w).fibres = s.fibres ∧
      (s.swapFail p w).mem = s.mem.write (s.layerKey p w.model w.layer) 8
        ((s.residency p w.model w.layer &&& 0xFFFFFFFF) ||| BitVec.ofNat 64 (w.cause * 2 ^ 32)).toNat ∧
      (∀ f, f ∈ ((s.swapFail p w).part p).poolFree ↔ f ∈ (s.part p).poolFree ∨ f ∈ w.frames) ∧
      ((s.swapFail p w).part p).swaps = (s.part p).swaps.filter (fun y => y.id != w.id) := by
  unfold swapFail
  extract_lets old s0 s1 key waits s2 s3
  obtain ⟨hmem0, hfibres0, haccesses0, hmigrations0, hpart0⟩ : s0.mem = s.mem ∧ s0.fibres = s.fibres ∧ s0.accesses = s.accesses ∧
      s0.migrations = s.migrations ∧ s0.part p = { s.part p with
        poolFree := sortBy id ((s.part p).poolFree ++ w.frames), swaps := (s.part p).swaps.filter (fun y => y.id != w.id) } :=
    s.swapGone_rest hlen w
  obtain ⟨hs1, hmem1⟩ : UpToMemory s0 s1 ∧ s1.mem = s0.mem.write (s0.layerKey p w.model w.layer) 8
      ((old &&& 0xFFFFFFFF) ||| BitVec.ofNat 64 (w.cause * 2 ^ 32)).toNat := setResidency_rest (hmigrations0.trans hmig) ..
  clear_value s1 s0
  have hkey : s0.layerKey p w.model w.layer = s.layerKey p w.model w.layer :=
    layerKey_congr (by rw [hpart0]) (by rw [hpart0]) hmigrations0 _ _
  rw [hkey, hmem0] at hmem1
  have hwaits : waits = [] := by
    refine List.filter_eq_nil_iff.2 fun a ha => ?_
    have hin : a ∈ s.accesses := by
      rw [← haccesses0, ← hs1.accesses]
      exact ha
    rw [Bool.and_eq_true]
    rintro ⟨-, hwaits⟩
    split at hwaits
    next hphase _ => exact hc a hin _ _ hphase
    next hphase _ => exact hrefused a hin hphase
    next => exact absurd hwaits nofun
  have hs2 : s2 = s1 := by
    dsimp only [s2]
    rw [hwaits]
    rfl
  have hpart1 : s1.part p = s0.part p := congrArg (fun ps : List Part => ps.getD p .initial) hs1.parts
  have hpart3 : s3.part p = s0.part p := by
    rw [← hpart1, ← hs2]
    exact congrArg (fun ps : List Part => ps.getD p .initial) (s2.noteFatal_parts ..)
  obtain ⟨hmem3, hfibres3, -⟩ := s2.noteFatal_rest (s2.modelRec p w.model).cid 8 (w.model * 4096 + w.layer)
  have hended : (List.foldl (fun s n => s.endNode p n 7 0) s3 w.nodes).swapEnded p w.model = s3 := by
    rw [hnodes, List.foldl_nil, swapEnded_of_not_disabling]
    rw [modelRec_of_models (s := s) (by rw [hpart3, hpart0]), hdis]
  rw [hended, hpart3, hpart0]
  refine ⟨hfibres3.trans (hs2 ▸ hs1.fibres.trans hfibres0), hmem3.trans (hs2 ▸ ?_), fun f => ?_, rfl⟩
  · exact hmem1
  · rw [mem_sortBy, List.mem_append]

theorem exec_evictionFramesReturn {y : LayerSt} {k i : Nat} (hlayer : s.layerSt p k i = some y) (hleaving : y.leaving ≠ [])
    (hbusy : s.framesBusy p y.leaving = false) : exec (.evictionFramesReturn p k i) s = .next
      ((s.updLayer p k i (fun y => { y with leaving := [] })).updPart p (fun x => { x with poolFree := sortBy id (x.poolFree ++ y.leaving) })) := by
  have hgo : ¬ (y.leaving.isEmpty || s.framesBusy p y.leaving) = true := by
    rw [hbusy]
    simpa using hleaving
  simp only [exec, execEvictionFramesReturn, hlayer, if_neg hgo]
  rfl

end

end State

open State

/-! ### The settled statement -/

/-- Settles O53: model records by their guards, swap nodes by what their record and the layer's word say, swap-ins by their steps. -/
theorem modelEventsComplete : Obligations.ModelEventsComplete := by
  unfold Obligations.ModelEventsComplete
  refine ⟨fun s p m hp hlen hm hmodel hready => ⟨?written, ?prio, ?kept, ?enabled, ?refused, fun hon hports => ⟨?held, ?waits, ?disabled⟩⟩,
    fun s p n d b ref hp hlen hmig hcalm => ⟨fun hnode hkind hrecord hvalid hportsIn hportsOut => ?nodes, ?frames, ?complete, ?failure, ?returned⟩⟩
  case written => exact fun v hoff => exec_modelRecordWrite_disabled hp hm hready hoff v
  case prio => exact fun v hon hlayers hctl hgen => exec_modelRecordWrite_prio hp hm hready hon hlayers hctl hgen
  case kept => exact fun k v hon hk hne => exec_modelRecordWrite_refused hp hm hready hon hk hne v
  case enabled =>
    intro c hoff hctx hok hc hports
    obtain ⟨t, hexec, hhomes⟩ := (exec_modelEnable hp hm hready hoff hports).1 c hctx hok
    obtain ⟨hfibres, henabled, hregions⟩ := enableModel_rest hlen hmodel hc c.id
    refine ⟨t, hexec, (upToHomes_fibres hhomes).trans hfibres, ?_, fun x hx hxctx hin => ?_⟩
    · rw [modelRec_of_models (congrArg (fun ps : List Part => (ps.getD p .initial).models) (upToHomes_parts hhomes))]
      exact henabled
    · rw [show t.regions = (s.enableModel p m c.id).regions by rw [hhomes], hregions] at hx
      obtain ⟨y, -, rfl⟩ := List.mem_map.1 hx
      obtain ⟨hctx', hhandle⟩ := s.pooledRegion_same p m c.id y
      exact pooledRegion_of_mem (hctx'.symm.trans hxctx) (hhandle ▸ hin)
  case refused => exact fun hoff hbad hports => (exec_modelEnable hp hm hready hoff hports).2 hbad
  case held =>
    intro hheld
    refine exec_modelDisable hp hm hready hon ?_ hports
    rw [any_held.2 hheld, disableNow_held hheld]
    rfl
  case waits =>
    rintro hfree ⟨w, hw, hmodelOf⟩
    have hswap : (s.part p).swaps.any (fun w => w.model == m) = true := List.any_eq_true.2 ⟨w, hw, by simpa using hmodelOf⟩
    refine exec_modelDisable hp hm hready hon ?_ hports
    rw [not_any_held hfree, hswap]
    rfl
  case disabled =>
    intro hfree hnone hc hmig
    have hnoswap : (s.part p).swaps.any (fun w => w.model == m) = false := List.any_eq_false.2 fun w hw => by simpa using hnone w hw
    refine ⟨_, exec_modelDisable hp hm hready hon ?_ hports, disableNow_rest hlen hmodel hc hmig hfree⟩
    rw [hnoswap, Bool.and_false]
    rfl
  case nodes =>
    have hswap : s.SwapReady p n d b ref := ⟨hnode, hkind, hrecord, hvalid⟩
    refine ⟨fun hrec hres => ?_, fun hrec hres hflight => ?_, fun hrec hres hflight => ?_, fun hrec hheld => ?_, fun hrec hheld hres => ?_⟩
    · obtain ⟨t, hexec, hhomes⟩ := hswap.exec_nodeSwapIn hrec hportsIn
      rw [hswap.swapInNode_eq, if_pos hres] at hhomes
      exact ⟨t, hexec, hhomes⟩
    · obtain ⟨t, hexec, hhomes⟩ := hswap.exec_nodeSwapIn hrec hportsIn
      rw [hswap.swapInNode_eq, if_neg (by rw [hres]; exact nofun), if_pos hflight] at hhomes
      simp only [Bool.and_eq_true, beq_iff_eq] at hhomes
      exact ⟨t, hexec, hhomes⟩
    · obtain ⟨t, hexec, hhomes⟩ := hswap.exec_nodeSwapIn hrec hportsIn
      obtain ⟨hfibres, hmem, ⟨w, hswaps, hmodel, hlayer, hnodes, hstage⟩, hthere⟩ := hswap.swapInNode_absent hlen hmig hres hflight
      have hparts := upToHomes_parts hhomes
      exact ⟨t, w, hexec, (upToHomes_fibres hhomes).trans hfibres, (upToHomes_mem hhomes).trans hmem,
        (congrArg (fun ps : List Part => (ps.getD p .initial).swaps) hparts).trans hswaps, hmodel, hlayer, hnodes, hstage,
        (node_of_parts hparts p n).trans hthere⟩
    · obtain ⟨t, hexec, hhomes⟩ := hswap.exec_nodeSwapEvict hrec hportsOut
      rw [hswap.swapOutNode_eq, if_pos (by simpa using hheld)] at hhomes
      exact ⟨t, hexec, hhomes⟩
    · obtain ⟨t, hexec, hhomes⟩ := hswap.exec_nodeSwapEvict hrec hportsOut
      obtain ⟨hmem, hthere⟩ := hswap.swapOutNode_evicts hlen hcalm hmig hheld hres
      exact ⟨t, hexec, (upToHomes_mem hhomes).trans hmem, (node_of_parts (upToHomes_parts hhomes) p n).trans hthere⟩
  case frames =>
    intro w hswap hserve hactive hstage hfirst hfree hports
    obtain ⟨t, hdone, hrest⟩ := swapStep_frames hlen hserve hactive hstage hfirst hfree
    exact ⟨t, exec_swapInFrames hswap hdone hports, hrest⟩
  case complete =>
    intro w hswap hstage hpast hnodes hdis hports
    exact ⟨_, exec_swapInComplete hswap hstage hpast hports, swapDone_rest hlen hcalm hmig hnodes hdis⟩
  case failure =>
    intro w hswap hcause hrefused hnodes hdis hports
    exact ⟨_, exec_swapInFailure hswap hcause hports, swapFail_rest hlen hcalm hmig hrefused hnodes hdis⟩
  case returned =>
    intro y k i hlayer hleaving hbusy
    refine ⟨_, exec_evictionFramesReturn hlayer hleaving hbusy, rfl, rfl, fun f => ?_⟩
    have hlayers : UpToLayers s (s.updLayer p k i (fun y => { y with leaving := [] })) := updPart_upToLayers s p (fun ls => ls.map _)
    rw [part_updPart_same _ _ (by rw [updLayer, updPart_parts, List.length_modify]; exact hlen), hlayers p]
    dsimp only
    rw [mem_sortBy, List.mem_append]

end Sys2Proof.Machine
